-- ==== Sys2Proof/Word.lean ====
section
/-! DEFINITION. Word.lean: the plain words and the identifier types of the CQ32 (spec/00_scope.md, 2.7 and 2.2).
Ticks, counts and positions are natural numbers; what the manual treats as bits is a bit vector. -/

namespace Sys2Proof

/-- One byte of the command port or of DRAM. -/
abbrev Byte := BitVec 8

/-- The 32 probe lines at one sample: line `n` is bit `n` (spec/13, 13.2). Also a set of channels. -/
abbrev Lines := BitVec 32

/-- Channels 0 to 31 (2.7). -/
abbrev Chan := Fin 32

/-- Pods 0 to 3 (2.7). -/
abbrev Pod := Fin 4

/-- Segments 0 to 7 (2.7). -/
abbrev SegId := Fin 8

/-- Decoder contexts 0 to 15 (2.7). -/
abbrev CtxId := Fin 16

/-- Match units 0 to 15 (2.7). -/
abbrev UnitId := Fin 16

/-- Trigger stages 0 to 7 (2.7). -/
abbrev StageId := Fin 8

/-- Branches 0 to 3 of a stage (2.7). -/
abbrev BranchId := Fin 4

/-- The members of `Fin n` in ascending order. -/
abbrev everyId (n : Nat) : List (Fin n) := List.finRange n

end Sys2Proof
end

