-- ==== Sys2Proof/Config.lean ====
section
/-! DEFINITION. Config.lean: the fixed capacities of the CQ32, each with the rule that states it, the two
conventions the manual leaves to the implementation (assumption log 1 and 2), and the free values. -/

namespace Sys2Proof.Config

/-- R42: pages of the DRAM. -/
def pageCount : Nat := 32768
/-- R42: bytes of a page. -/
def pageBytes : Nat := 4096
/-- R47: entry slots of a record page. -/
def entriesPerPage : Nat := 510
/-- R55: entry slots of an annotation page. -/
def annotationsPerPage : Nat := 256
/-- R52: places of the transition staging FIFO. -/
def transitionFifoDepth : Nat := 4096
/-- R53: the occupancy at or below which the encoder leaves DROPPING. -/
def dropoutResume : Nat := 2048
/-- R56: places of the annotation staging FIFO. -/
def annotationFifoDepth : Nat := 64
/-- R96: places of the decoded-record queue. -/
def queueDepth : Nat := 512
/-- R21: the largest acquisition tick. -/
def tickMax : Nat := 2 ^ 48 - 1
/-- R48: one EXTEND block. -/
def extendBlock : Nat := 2 ^ 24
/-- R168: columns of the display. -/
def columns : Nat := 400
/-- R174: labels of one annotation row. -/
def labelDepth : Nat := 32
/-- R174: columns an annotation must overlap to be labelled. -/
def labelColumns : Nat := 16
/-- R33: the pattern step at which MEASURING is entered. -/
def settlingSteps : Nat := 1024
/-- R33: the last pattern step of a calibration run. -/
def lastPatternStep : Nat := 17422
/-- R34: the first and the last comparison index. -/
def firstComparison : Nat := 1032
/-- R34: the last comparison index. -/
def lastComparison : Nat := 17415
/-- R101: the bounds of every asynchronous period. -/
def periodMin : Nat := 1024
/-- R101: the upper bound of every asynchronous period. -/
def periodMax : Nat := 268435455
/-- R89: the least window upper bound that decodes at ECONOMY. -/
def economyPeriodMin : Nat := 4096

/-- R8 bounds the latency of the conditioned stream by 24 sample steps; R3 and R5 make it fixed. DESIGN CHOICE
(assumption log 1), unsafe: the conditioned sample of step k is formed at raw step k + 24. -/
def conditionedLatency : Nat := 24

/-- What a DRAM byte that nothing has written reads as. R42 leaves it undefined and says nothing reads it.
DESIGN CHOICE (assumption log 2), unsafe. -/
def dramFill : Byte := 0#8

/-! ## Free values (assumption log 14) -/

/-- FREE VALUE: parameter bytes hold every parameter of the request with this code; chapter 13 gives no request but
FLASH_SET_LOAD its parameter length. -/
opaque covers (code : Nat) : List Byte → Bool

/-- FREE VALUE: where in a request's parameter bytes its field `k` of a form that R185 fixes lies. -/
opaque fieldPlace (code k : Nat) : List Byte → Nat

/-- FREE VALUE: the fields of a request that R185 gives no form, as its parameter bytes hold them. -/
opaque freeFields {α : Type} [Inhabited α] (code : Nat) : List Byte → α

/-- FREE VALUE: the bytes of field `k` of a response, by the row of its request in Table 12-2, where chapter 13 gives
the field no form. -/
opaque freeBytes {α : Type} (code k : Nat) : α → List Byte

/-- FREE VALUE: the places of `count` fields of a response, or of a part of one, among each other: lower keys lie
first. -/
opaque fieldKey (part : List Nat) (count k : Nat) : Nat

end Sys2Proof.Config
end

