-- ==== Sys2Proof/Syntax.lean ====
section
/-! DEFINITION. Syntax.lean: the commands of the CQ32, one constructor of `Instr` per row of spec/opcode_table.json,
with the operand types they carry. The first 50 rows are power-on, the frame of the command port and its requests
(Table 12-2); the rest are the events of the blocks (spec/95). -/

namespace Sys2Proof

/-- The operating levels (Table 2-1). -/
inductive Level where
  | full | economy | standby
deriving DecidableEq, Repr

/-- Whether the parameter length of a request's header covers its parameters (R179, R185). -/
inductive Fit where
  /-- At least as many parameter bytes as the request needs; surplus bytes are ignored. -/
  | enough
  /-- Fewer bytes than the request needs: BAD_PARAM. -/
  | short
deriving DecidableEq, Repr

/-- Parity of an asynchronous frame (Table 7-1). -/
inductive Parity where
  | none | even | odd
deriving DecidableEq, Repr

/-- Polarity of an asynchronous lane (Table 7-1). -/
inductive Polarity where
  | normal | inverted
deriving DecidableEq, Repr

/-- Tracker mode of an asynchronous context (Table 7-1). -/
inductive TrackerMode where
  | fixed | track | auto
deriving DecidableEq, Repr

/-- Sampling edge of a clocked context (Table 8-1). -/
inductive ClockEdge where
  | rising | falling
deriving DecidableEq, Repr

/-- Select polarity of a clocked context (Table 8-1). -/
inductive SelectPolarity where
  | activeLow | activeHigh
deriving DecidableEq, Repr

/-- Bit order of a clocked word (Table 8-1). -/
inductive BitOrder where
  | msbFirst | lsbFirst
deriving DecidableEq, Repr

/-- The two flash command sets (R127). -/
inductive SetName where
  | a | b
deriving DecidableEq, Repr

/-- Effect classes of a flash command (Table 8-5), in the order of Table 13-7. -/
inductive EffectClass where
  | read | programPage | modify | enable | disable | statusRead | wrapSet | powerDown | powerUp | wideOn | wideOff | other
deriving DecidableEq, Repr

/-- Data direction of a flash command (Table 8-5). -/
inductive DataDirection where
  | none | fromTarget | toTarget
deriving DecidableEq, Repr

/-- Direction of an EDGE match unit (Table 10-2). -/
inductive EdgeDirection where
  | rising | falling | any
deriving DecidableEq, Repr

/-- Direction of an ACTIVITY match unit (Table 10-2). -/
inductive ActivityDirection where
  | toActive | toQuiet
deriving DecidableEq, Repr

/-- The seven record kinds (Table 6-8), in the order of 13.2. -/
inductive RecordKind where
  | character | brk | idle | word | flashOp | message | gap
deriving DecidableEq, Repr

/-- A setting whose parameter byte names one of a closed list of values; `none` is a byte outside the list. -/
abbrev Choice (α : Type) := Option α

/-- A lane of CONTEXT_CONFIGURE: a channel number, or none (R82). -/
abbrev LaneParam := Option Byte

/-- ASYNC settings as CONTEXT_CONFIGURE carries them (Table 7-1), before clamping. -/
structure AsyncParams where
  dataBits : Nat
  parity : Choice Parity
  stopBits : Nat
  polarity : Choice Polarity
  addressMark : Bool
  filterAddress : Option Nat
  idleLength : Nat
  mode : Choice TrackerMode
  nominal : Nat
  lower : Nat
  upper : Nat
deriving DecidableEq, Repr

/-- CLOCKED settings as carried (Table 8-1), before clamping. -/
structure ClockedParams where
  edge : Choice ClockEdge
  selectPolarity : Choice SelectPolarity
  wordLength : Nat
  bitOrder : Choice BitOrder
  idleLevel : Choice Bool
  gapTimeout : Nat
deriving DecidableEq, Repr

/-- FLASH settings as carried (Table 8-4), before clamping. -/
structure FlashParams where
  set : Choice SetName
  pageExponent : Nat
  busyBit : Nat
  enableBit : Nat
deriving DecidableEq, Repr

/-- TWO_WIRE settings as carried (Table 9-1), before clamping. -/
structure TwoWireParams where
  filter : List (Nat × Nat)
  clockLow : Nat
  stretchLimit : Nat
  stuckLimit : Nat
  busFree : Nat
deriving DecidableEq, Repr

/-- The protocol of CONTEXT_CONFIGURE with its lanes (Table 6-4) and settings. -/
inductive ProtocolParams where
  | async (data : LaneParam) (settings : AsyncParams)
  | clocked (clock out select inn : LaneParam) (settings : ClockedParams)
  | flash (clock select d0 d1 d2 d3 : LaneParam) (settings : FlashParams)
  | twoWire (clock data : LaneParam) (settings : TwoWireParams)
  /-- A protocol that is not one of the four (R82). -/
  | unknown
deriving DecidableEq, Repr, Inhabited

/-- What CONTEXT_CONFIGURE carries beside the context id (R82). -/
structure ConfigureParams where
  protocol : ProtocolParams
  report : Bool
  annotate : Bool
  errorThreshold : Nat
deriving DecidableEq, Repr, Inhabited

/-- The context a RECORD match unit names: ANY or a number (Table 10-2). -/
inductive ContextParam where
  | any
  | id (n : Byte)
deriving DecidableEq, Repr

/-- The compares of a RECORD match unit (Table 10-2, R158). `kinds` has bit n set for record kind n. -/
structure RecordCompare where
  kinds : BitVec 7
  flagsAny : BitVec 32
  flagsAll : BitVec 32
  payloadValue : Vector Byte 4
  payloadMask : Vector Byte 4
  addressValue : BitVec 32
  addressMask : BitVec 32
deriving DecidableEq, Repr

/-- Kind and settings of MATCH_UNIT_SET (Table 10-2, R153). -/
inductive UnitParams where
  | disabled
  | edge (channel : Byte) (direction : Choice EdgeDirection)
  | pattern (mask value : Lines) (hold : BitVec 32)
  | activity (channel : Byte) (direction : Choice ActivityDirection)
  | record (context : ContextParam) (compare : RecordCompare)
  | elapsed (time : BitVec 32)
  /-- A kind that is not one of the six (R153). -/
  | unknown
deriving DecidableEq, Repr, Inhabited

/-- The fields of BRANCH_SET (Table 10-3). -/
structure BranchParams where
  enabled : Bool
  unit : Byte
  target : BitVec 16
  next : Byte
  fire : Bool
  notice : Bool
deriving DecidableEq, Repr

/-- One row of VIEW_SET (Table 11-2). -/
inductive RowParam where
  | channel (n : Byte)
  | annotation (n : Byte)
deriving DecidableEq, Repr

/-- The fields of VIEW_SET (Table 11-2); `segment` none is "none". -/
structure ViewParams where
  segment : Option Byte
  start : Nat
  ticksPerColumn : Nat
  follow : Bool
  rows : List RowParam
deriving DecidableEq, Repr, Inhabited

/-- The commands: one constructor per row of spec/opcode_table.json, in the table's order. -/
inductive Instr where
  | powerOn
  | portSelectAssert
  | portSelectDeassert
  | unknownRequest (code : Byte)
  | thresholdSet (fit : Fit) (pod code : Byte)
  | deskewSet (fit : Fit) (level : Byte) (channels : Lines) (offset : Int)
  | glitchWidthSet (fit : Fit) (level pods : Byte) (width : Nat)
  | frontEndRead (fit : Fit) (level : Byte)
  | linesRead
  | monitorSet (fit : Fit) (writeThreshold : Bool) (threshold : Nat) (writeQuiet : Bool) (quiet : Nat)
  | monitorRead (fit : Fit) (channels : Lines)
  | setLevel (fit : Fit) (level : Byte)
  | levelStatus
  | calibrate (fit : Fit) (channels : Lines) (seed tolerance : Nat)
  | calibrationAbort
  | readCalibration
  | poolThresholdSet (fit : Fit) (threshold : Nat)
  | poolStatus
  | segmentPrepare (fit : Fit) (segment : Byte) (mask : Lines) (budget : Nat) (target : BitVec 32)
      (limit annotationBudget : Nat)
  | segmentStatus (fit : Fit) (segment : Byte)
  | segmentStart (fit : Fit) (segment : Byte)
  | segmentStop
  | segmentAbort
  | segmentRetire (fit : Fit) (segment : Byte)
  | segmentRead (fit : Fit) (segment : Byte) (start : BitVec 48) (count : Nat)
  | annotationRead (fit : Fit) (segment : Byte) (offset : BitVec 32) (count : Nat)
  | contextOpen (fit : Fit) (context : Byte)
  | contextClose (fit : Fit) (context : Byte)
  | contextConfigure (fit : Fit) (context : Byte) (params : ConfigureParams)
  | contextStart (fit : Fit) (context : Byte)
  | contextStop (fit : Fit) (context : Byte)
  | contextStatus (fit : Fit) (context : Byte)
  | flashSetLoad (params : List Byte)
  | flashModelClear (fit : Fit) (context : Byte)
  | recordsTake (fit : Fit) (count : Nat)
  | queueThresholdSet (fit : Fit) (threshold : Nat)
  | queueStatus
  | queueAckGap
  | matchUnitSet (fit : Fit) (unit : Byte) (params : UnitParams)
  | branchSet (fit : Fit) (stage branch : Byte) (params : BranchParams)
  | triggerForce
  | triggerStatus
  | triggerProgramRead
  | viewSet (fit : Fit) (params : ViewParams)
  | refresh
  | displayStatus
  | noticesRead
  | noticesMask (fit : Fit) (mask : BitVec 16)
  | identify
  | reset
  /-- The probe voltages of the 32 channels at this sample, in microvolts (R1, R2). -/
  | sampleStep (probes : Vector Int 32)
  | quietTimerExpiry (channel : Chan)
  | idleTimerExpiry (context : CtxId)
  | wordGapTimerExpiry (context : CtxId)
  | stuckTimerExpiry (context : CtxId)
  | busFreeTimerExpiry (context : CtxId)
  | patternHoldExpiry (unit : UnitId)
  | stageTimerExpiry
  | calMeasuringEntry
  | calibrationComplete
  | countExhausted
  | levelTransitionComplete
  /-- The place, among the fires on their way to CAP, of the one CAP takes (R163: whichever it takes first). -/
  | fireAccept (index : Nat)
  /-- The context whose record the path passes on (R95: the path chooses among records of one moment). -/
  | recordPathDelivery (context : CtxId)
  | drainCompletion
  | segmentReadResponseFormed
  | annotationReadResponseFormed
  | refreshColumnRead
  | refreshSendComplete
  | segmentReadEntryTake
  | annotationReadEntryTake
deriving DecidableEq, Repr

end Sys2Proof
end

