-- ==== Sys2Proof/Decode.lean ====
section
/-! DEFINITION. Decode.lean: the frame of the command port to its command: the request header of Table 13-1 and the
request codes of R185. spec/opcode_table.json gives no row any bits, so no word of that table spells a command. The
byte layouts of the answers are in Machine/Layouts.lean. -/

namespace Sys2Proof

/-! ## Parameters (R185, R179) -/

/-- One byte: a segment, context, unit or pod number, or a level (R185). -/
def readByte (command : Fit → Byte → Instr) : List Byte → Instr
  | b :: _ => command .enough b
  | [] => command .short 0#8

/-- A set of channels: 32 bits, least significant byte first (R185). -/
def readLines (command : Fit → Lines → Instr) : List Byte → Instr
  | a :: b :: c :: d :: _ => command .enough (d ++ c ++ b ++ a)
  | _ => command .short 0#32

/-- A set of notice kinds: 14 bits in two bytes (R185). -/
def readKinds (command : Fit → BitVec 16 → Instr) : List Byte → Instr
  | a :: b :: _ => command .enough (b ++ a)
  | _ => command .short 0#16

/-- R179, R185: the parameters of a request whose layout chapter 13 does not give: the shortest beginning of the
parameter bytes that is at least `least` bytes long and holds every parameter; none where the bytes are too few. What
holds every parameter is a free value (assumption log 14). -/
def neededParams (code least : Nat) (params : List Byte) : Option (List Byte) :=
  ((List.range (params.length + 1)).find? fun n => decide (least ≤ n) && Config.covers code (params.take n)).map
    params.take

/-- R179: a request from its needed parameters alone, so that surplus bytes are ignored; short without them. -/
def readNeeded (code least : Nat) (short : Instr) (read : List Byte → Instr) (params : List Byte) : Instr :=
  match neededParams code least params with
  | some needed => read needed
  | none => short

/-- Parameters of a request from its field `k`, of `width` bytes, on: its place is a free value (assumption log 14). -/
def fieldAt (code k width : Nat) (params : List Byte) : List Byte :=
  params.drop (Config.fieldPlace code k params % (params.length + 1 - width))

/-- R185: a number or a level, one byte. -/
def byteField (code k : Nat) (params : List Byte) : Byte := (fieldAt code k 1 params).headD 0#8

/-- R185: a set of channels, four bytes, least significant first. -/
def linesField (code k : Nat) (params : List Byte) : Lines :=
  match fieldAt code k 4 params with
  | a :: b :: c :: d :: _ => d ++ c ++ b ++ a
  | _ => 0#32

/-- The fields that R185 gives no form: a free value (assumption log 14). -/
def freeFields {α : Type} [Inhabited α] (code : Nat) (params : List Byte) : α := Config.freeFields code params

/-- MATCH_UNIT_SET's settings: a RECORD unit's context number is one byte (R185), the rest has no form. -/
def unitFields (params : List Byte) : UnitParams :=
  match (freeFields 0x23 params : UnitParams) with
  | .record (.id _) compare => .record (.id (byteField 0x23 1 params)) compare
  | settings => settings

/-- VIEW_SET's fields: the segment number and the context numbers of the rows are one byte each (R185), the rest has no
form. -/
def viewFields (params : List Byte) : ViewParams :=
  let v : ViewParams := freeFields 0x28 params
  { v with
    segment := v.segment.map fun _ => byteField 0x28 0 params
    rows := v.rows.zipIdx.map fun (row, i) =>
      match row with
      | .annotation _ => .annotation (byteField 0x28 (i + 1) params)
      | .channel n => .channel n }

/-! ## Request codes (R185) -/

/-- R185, R179: the command of a request code and its parameter bytes. -/
def requestOf (code : Byte) (params : List Byte) : Instr :=
  match code.toNat with
  | 0x01 => readNeeded 0x01 2 (.thresholdSet .short 0#8 0#8)
      (fun p => .thresholdSet .enough (byteField 0x01 0 p) (freeFields 0x01 p)) params
  | 0x02 => readNeeded 0x02 6 (.deskewSet .short 0#8 0#32 0)
      (fun p => .deskewSet .enough (byteField 0x02 0 p) (linesField 0x02 1 p) (freeFields 0x02 p)) params
  | 0x03 => readNeeded 0x03 3 (.glitchWidthSet .short 0#8 0#8 0)
      (fun p => .glitchWidthSet .enough (byteField 0x03 0 p) (byteField 0x03 1 p) (freeFields 0x03 p)) params
  | 0x04 => readByte .frontEndRead params
  | 0x05 => .linesRead
  | 0x06 => readNeeded 0x06 1 (.monitorSet .short false 0 false 0)
      (fun p => let v : Bool × Nat × Bool × Nat := freeFields 0x06 p
        .monitorSet .enough v.1 v.2.1 v.2.2.1 v.2.2.2) params
  | 0x07 => readLines .monitorRead params
  | 0x08 => readByte .setLevel params
  | 0x09 => .levelStatus
  | 0x0A => readNeeded 0x0A 5 (.calibrate .short 0#32 0 0)
      (fun p => let v : Nat × Nat := freeFields 0x0A p
        .calibrate .enough (linesField 0x0A 0 p) v.1 v.2) params
  | 0x0B => .calibrationAbort
  | 0x0C => .readCalibration
  | 0x0D => readNeeded 0x0D 1 (.poolThresholdSet .short 0) (fun p => .poolThresholdSet .enough (freeFields 0x0D p)) params
  | 0x0E => .poolStatus
  | 0x0F => readNeeded 0x0F 6 (.segmentPrepare .short 0#8 0#32 0 0#32 0 0)
      (fun p => let v : Nat × BitVec 32 × Nat × Nat := freeFields 0x0F p
        .segmentPrepare .enough (byteField 0x0F 0 p) (linesField 0x0F 1 p) v.1 v.2.1 v.2.2.1 v.2.2.2) params
  | 0x10 => readByte .segmentStatus params
  | 0x11 => readByte .segmentStart params
  | 0x12 => .segmentStop
  | 0x13 => .segmentAbort
  | 0x14 => readByte .segmentRetire params
  | 0x15 => readNeeded 0x15 2 (.segmentRead .short 0#8 0#48 0)
      (fun p => let v : BitVec 48 × Nat := freeFields 0x15 p
        .segmentRead .enough (byteField 0x15 0 p) v.1 v.2) params
  | 0x16 => readNeeded 0x16 2 (.annotationRead .short 0#8 0#32 0)
      (fun p => let v : BitVec 32 × Nat := freeFields 0x16 p
        .annotationRead .enough (byteField 0x16 0 p) v.1 v.2) params
  | 0x17 => readByte .contextOpen params
  | 0x18 => readByte .contextClose params
  | 0x19 => readNeeded 0x19 2 (.contextConfigure .short 0#8 ⟨.unknown, false, false, 0⟩)
      (fun p => .contextConfigure .enough (byteField 0x19 0 p) (freeFields 0x19 p)) params
  | 0x1A => readByte .contextStart params
  | 0x1B => readByte .contextStop params
  | 0x1C => readByte .contextStatus params
  | 0x1D => .flashSetLoad params
  | 0x1E => readByte .flashModelClear params
  | 0x1F => readNeeded 0x1F 1 (.recordsTake .short 0) (fun p => .recordsTake .enough (freeFields 0x1F p)) params
  | 0x20 => readNeeded 0x20 1 (.queueThresholdSet .short 0) (fun p => .queueThresholdSet .enough (freeFields 0x20 p)) params
  | 0x21 => .queueStatus
  | 0x22 => .queueAckGap
  | 0x23 => readNeeded 0x23 2 (.matchUnitSet .short 0#8 .unknown)
      (fun p => .matchUnitSet .enough (byteField 0x23 0 p) (unitFields p)) params
  | 0x24 => readNeeded 0x24 5 (.branchSet .short 0#8 0#8 ⟨false, 0#8, 0#16, 0#8, false, false⟩)
      (fun p => let v : Bool × BitVec 16 × Bool × Bool := freeFields 0x24 p
        .branchSet .enough (byteField 0x24 0 p) (byteField 0x24 1 p)
          ⟨v.1, byteField 0x24 2 p, v.2.1, byteField 0x24 3 p, v.2.2.1, v.2.2.2⟩) params
  | 0x25 => .triggerForce
  | 0x26 => .triggerStatus
  | 0x27 => .triggerProgramRead
  | 0x28 => readNeeded 0x28 1 (.viewSet .short ⟨none, 0, 0, false, []⟩) (fun p => .viewSet .enough (viewFields p)) params
  | 0x29 => .refresh
  | 0x2A => .displayStatus
  | 0x2B => .noticesRead
  | 0x2C => readKinds .noticesMask params
  | 0x2D => .identify
  | 0x2E => .reset
  | _ => .unknownRequest code

/-- Table 13-1, R178, R179: the command of the bytes that a host has clocked into a frame: the request code, the
parameter length, that number of parameter bytes; later bytes are ignored. None while the request is not complete. -/
def decodeFrame : List Byte → Option Instr
  | code :: low :: high :: rest =>
    let length := low.toNat + 256 * high.toNat
    if length ≤ rest.length then some (requestOf code (rest.take length)) else none
  | _ => none

/-! ## The table's words -/

/-- The command a word spells by the table's bits: the table has none (assumption log 27). -/
def decodeTableWord (_ _ : Nat) : Option Instr := none

end Sys2Proof
end

