-- ==== Sys2Proof/Machine/State.lean ====
section
/-! DEFINITION. Machine/State.lean: everything the manual gives the CQ32 to hold, block by block, as plain data, and
`State.reset`, the machine right after power-on (R18, R184 name what a RESET request keeps). Each field's docstring
names the table or rule it comes from; a field marked MODEL is the model's own bookkeeping for a rule. -/

namespace Sys2Proof.Machine

/-! ## Command port and notices (chapter 12) -/

/-- The 14 notice kinds, in the order of Table 0-4 (R185 numbers them 0 to 13 in this order). -/
inductive Notice where
  | segmentSealed | triggerFired | triggerStage | segmentRetired | poolLow | queueLevel | queueClosed | lockChange
  | errorThreshold | glitchThreshold | activityChange | calibrationDone | levelChanged | refreshDone
deriving DecidableEq, Repr

/-- Response statuses (Table 0-3). -/
inductive Status where
  | ok | accepted | busy | wrongState | badParam | notFound | full | level | unknown
deriving DecidableEq, Repr

/-- Frame states (Table 12-1, R178). -/
inductive FrameState where
  | idle | request | response
deriving DecidableEq, Repr

/-! ## Probe front end (chapter 1) -/

/-- The two front-end contexts (1.5). -/
inductive FrontEndId where
  | full | economy
deriving DecidableEq, Repr

/-- Activity state of a channel (R15). -/
inductive Activity where
  | quiet | active
deriving DecidableEq, Repr

/-- One front-end context (Table 1-4). -/
structure FrontEnd where
  offsets : Vector Int 32
  widths : Vector Nat 4
deriving DecidableEq, Repr

/-- An open run of a glitch filter (R3): the step it began at and the samples in it. -/
structure OpenRun where
  start : Nat
  length : Nat
deriving DecidableEq, Repr

/-- The glitch filter of one channel (R3). `history` is MODEL: bit i is the filtered value, as known so far, of the
step i steps before the newest raw sample of the run; steps before the run hold its first level (R7). -/
structure GlitchFilter where
  accepted : Bool
  openRun : Option OpenRun
  history : BitVec 33
deriving DecidableEq, Repr

/-- The monitor of one channel (R13 to R16). `quietFrom` is the tick of the change the running quiet timer counts
from, and `expiry` its expiry tick: absent while no timer runs, and from a MONITOR_SET that writes the quiet time to
the next conditioned sample, which fixes it anew (R16; assumption log 44). -/
structure Monitor where
  edges : Nat
  glitches : Nat
  armed : Bool
  activity : Activity
  remembered : Option Nat
  quietFrom : Option Nat
  expiry : Option Nat
deriving DecidableEq, Repr

/-- A sampling run in progress (R2): the stamp of its step 0, its sample step, the raw samples taken and the
conditioned samples formed. -/
structure Run where
  firstStamp : Nat
  step : Nat
  taken : Nat
  formed : Nat
deriving DecidableEq, Repr

/-- The probe front end (Table 1-2). -/
structure Pfe where
  thresholds : Vector Byte 4
  full : FrontEnd
  economy : FrontEnd
  /-- Which context is active (Table 1-5, R10). -/
  active : Option FrontEndId
  /-- The 32 values of the line state (R8). -/
  lines : Lines
  /-- The stamp of the line state (R8). -/
  stamp : Nat
  filters : Vector GlitchFilter 32
  /-- MODEL for R6: per channel, the newest filtered step already emitted in this run. -/
  emitted : Vector Int 32
  monitors : Vector Monitor 32
  glitchThreshold : Nat
  quietTime : Nat
  run : Option Run
  /-- MODEL (assumption log 4): activity changes made at the conditioned sample about to be formed, by
  QUIET_TIMER_EXPIRY steps taken ahead of it; they belong to that sample's event (R155). -/
  activityDue : List (Chan × Activity)
deriving DecidableEq, Repr

/-! ## Level controller (chapter 2) -/

/-- Transition state with its target level (Table 2-2: the target is present only while SWITCHING). -/
inductive Transition where
  | steady
  | switching (target : Level)
deriving DecidableEq, Repr

/-- The level controller (Table 2-2). -/
structure Lvl where
  level : Level
  transition : Transition
  request : Option Level
  count : Nat
  exhausted : Bool
deriving DecidableEq, Repr

/-! ## Calibration unit (chapter 3) -/

/-- Calibration states (Table 3-2). -/
inductive CalState where
  | idle | settling | measuring
deriving DecidableEq, Repr

/-- Last outcome of a run (Table 3-1). -/
inductive CalOutcome where
  | none | complete | aborted | samplingEnded
deriving DecidableEq, Repr

/-- One entry of the results table (R40). -/
inductive CalResult where
  | notSelected
  | pass (offset : Int) (count : Nat)
  | fail (count : Nat)
deriving DecidableEq, Repr

/-- The calibration unit (Table 3-1). -/
structure Cal where
  state : CalState
  channels : Lines
  seed : Nat
  tolerance : Nat
  runLevel : Option Level
  /-- Samples counted since the acceptance: the pattern step is one less (0 before the first). -/
  counted : Nat
  /-- MODEL: the run's raw step that is pattern step 0 (R33). -/
  base : Nat
  /-- The 15 stages; stage n is bit n - 1 (R32). -/
  pattern : BitVec 15
  /-- CAL output driven with the pattern, or resting low (Table 3-1). -/
  driven : Bool
  mismatches : Vector (Vector Nat 16) 32
  /-- MODEL for R34: per channel, the next pattern step whose filtered value is to be compared. -/
  compared : Vector Nat 32
  outcome : CalOutcome
  results : Vector CalResult 32
deriving DecidableEq, Repr

/-! ## Decode controller (chapters 6 to 9) -/

/-- Acknowledge detail of a MESSAGE (R145); `true` is ACK. -/
structure AckDetail where
  addressAck : Bool
  firstNak : Option Nat
  lastAck : Option Bool
deriving DecidableEq, Repr

/-- A transaction record (Tables 6-8 and 6-9). `head` holds the first min(length, 4) payload bytes. -/
structure Record where
  context : CtxId
  kind : RecordKind
  startTick : Nat
  endTick : Nat
  flags : BitVec 32
  length : Nat
  head : List Byte
  inWord : Option (BitVec 32) := none
  opcode : Option Byte := none
  address : Option Nat := none
  /-- 3 or 4 for a FLASH_OP with an address (Table 13-6). -/
  addressBytes : Nat := 0
  modeByte : Option Byte := none
  effect : Option EffectClass := none
  endAddress : Option Nat := none
  busyDuration : Option Nat := none
  /-- Direction of a MESSAGE: true is READ (R143). -/
  isRead : Option Bool := none
  ack : Option AckDetail := none
  lost : Option Nat := none
deriving DecidableEq, Repr

/-- A flash command descriptor (Table 8-5). -/
structure Descriptor where
  opcode : Byte
  addressBytes : Nat
  addressWidth : Nat
  hasMode : Bool
  continueCode : BitVec 4
  dummy : Nat
  direction : DataDirection
  dataWidth : Nat
  effect : EffectClass
deriving DecidableEq, Repr

/-- Asynchronous settings (Table 7-1). -/
structure AsyncSettings where
  dataBits : Nat := 8
  parity : Parity := .none
  stopBits : Nat := 1
  polarity : Polarity := .normal
  addressMark : Bool := false
  filterAddress : Option Nat := none
  idleLength : Nat := 10
  mode : TrackerMode := .track
  nominal : Nat := 444444
  lower : Nat := 1024
  upper : Nat := 268435455
deriving DecidableEq, Repr

/-- Tracker states (Table 7-2). -/
inductive Tracker where
  | acquire | wide | narrow
deriving DecidableEq, Repr

/-- Receiver phases (Table 7-3). -/
inductive ReceiverPhase where
  | huntSync | huntNext | frame | breakWait
deriving DecidableEq, Repr

/-- The frame in progress (Table 7-2): F0 is 256 times `start`. `changes` holds the lane's changes after the start
edge, oldest first, with the value taken (true is mark); `edgesGood` is the verdict on its tracking edges (R114). -/
structure AsyncFrame where
  start : Nat
  bits : List Bool := []
  noise : Bool := false
  edgesGood : Bool := true
  changes : List (Nat × Bool) := []
deriving DecidableEq, Repr

/-- Engine state of an ASYNC context (Table 7-2). The lock indication is LOCKED exactly while `tracker` is narrow. -/
structure AsyncEngine where
  tracker : Tracker := .wide
  period : Nat := 444444
  goodRun : Nat := 0
  badRun : Nat := 0
  intervals : List Nat := []
  lastChange : Option Nat := none
  phase : ReceiverPhase := .huntSync
  markSince : Option Nat := none
  frame : Option AsyncFrame := none
  idleArmed : Bool := false
  /-- Multidrop state: true is PASS (R112). -/
  pass : Bool := false
  /-- End tick of the last emitted CHARACTER, for the idle origin (R113). -/
  lastCharacter : Option Nat := none
deriving DecidableEq, Repr

/-- CLOCKED settings (Table 8-1). -/
structure ClockedSettings where
  edge : ClockEdge := .rising
  selectPolarity : SelectPolarity := .activeLow
  wordLength : Nat := 8
  bitOrder : BitOrder := .msbFirst
  idleLevel : Bool := false
  gapTimeout : Nat := 2000
deriving DecidableEq, Repr

/-- Word phases (Table 8-2). -/
inductive WordPhase where
  | ready | word | resync
deriving DecidableEq, Repr

/-- Engine state of a CLOCKED context (Table 8-2). Bits received is the length of `outBits` (first sampled first). -/
structure ClockedEngine where
  phase : WordPhase := .ready
  outBits : List Bool := []
  inBits : List Bool := []
  startTick : Nat := 0
  skew : Bool := false
  phasePending : Bool := false
  /-- Expiry tick of the gap timer. -/
  gapTimer : Option Nat := none
  /-- MODEL for R122: whether the select was asserted at the last sample read. -/
  selected : Bool := false
deriving DecidableEq, Repr

/-- FLASH settings (Table 8-4). -/
structure FlashSettings where
  set : SetName := .a
  pageExponent : Nat := 8
  busyBit : Nat := 0
  enableBit : Nat := 1
deriving DecidableEq, Repr

/-- The flash target model (Table 8-8). A wrap length of none is OFF. -/
structure FlashModel where
  enable : Bool := false
  busy : Bool := false
  busySince : Nat := 0
  continuation : Option Descriptor := none
  wrap : Option Nat := none
  poweredDown : Bool := false
  wide : Bool := false
  lastStatus : Option Byte := none
deriving DecidableEq, Repr

/-- Phases of a transfer (Table 8-7). `generic` is the generic bytes of R129; `undecoded` follows a wide command
byte that could not be decoded (R130). -/
inductive TransferPhase where
  | command | address | mode | dummy | data | surplus | generic | undecoded
deriving DecidableEq, Repr

/-- A transfer in progress (R128 to R131). `bits` are the bits of the present phase's unit so far, first read first;
`clocks` the transfer clocks of the present phase; `bytes` the decoded data or generic bytes with their byte ticks. -/
structure Transfer where
  startTick : Nat
  elided : Bool
  phase : TransferPhase
  clocks : Nat := 0
  total : Nat := 0
  bits : List Bool := []
  /-- R130: a phase that needed an unbound lane has begun; it and the later ones are not decoded. -/
  lanesMissing : Bool := false
  opcode : Option Byte := none
  descriptor : Option Descriptor := none
  unknown : Bool := false
  address : Option Nat := none
  modeByte : Option Byte := none
  bytes : List (Byte × Nat) := []
deriving DecidableEq, Repr

/-- What a FLASH engine does with its select (R138). -/
inductive FlashPhase where
  | waiting
  | resync
  | transfer (t : Transfer)
deriving DecidableEq, Repr

/-- Engine state of a FLASH context. -/
structure FlashEngine where
  model : FlashModel := {}
  phase : FlashPhase := .waiting
  /-- MODEL for R128: whether the select stood at 0 at the last sample read. -/
  selected : Bool := false
deriving DecidableEq, Repr

/-- TWO_WIRE settings (Table 9-1). A filter entry is an address and a mask. -/
structure TwoWireSettings where
  filter : List (BitVec 7 × BitVec 7) := []
  clockLow : Nat := 1000
  stretchLimit : Nat := 2000000
  stuckLimit : Nat := 5000000
  busFree : Nat := 1000
deriving DecidableEq, Repr

/-- Engine states of a TWO_WIRE context (Table 9-3). -/
inductive BusState where
  | busFree | address | data | waitFree
deriving DecidableEq, Repr

/-- Hold classes (R148). -/
inductive HoldClass where
  | none | clockLow | dataLowClockHigh
deriving DecidableEq, Repr

/-- Engine state of a TWO_WIRE context (Table 9-2). `assembly` holds the confirmed bits of the present byte, first
first; `bytes` the complete data bytes with their acknowledges (true is ACK). -/
structure TwoWireEngine where
  state : BusState := .busFree
  startTick : Nat := 0
  assembly : List Bool := []
  provisional : Option Bool := none
  /-- Address, READ and acknowledge, once the address byte is complete. -/
  address : Option (BitVec 7) := none
  isRead : Bool := false
  addressAck : Bool := false
  bytes : List (Byte × Bool) := []
  stretch : Nat := 0
  lastFall : Option Nat := none
  hold : HoldClass := .none
  holdOrigin : Nat := 0
  freeOrigin : Option Nat := none
  lastStretch : Nat := 0
  /-- MODEL for R141: clock and data at the last sample read. -/
  clock : Bool := true
  data : Bool := true
deriving DecidableEq, Repr

/-- Protocols (Table 6-4). -/
inductive Protocol where
  | async | clocked | flash | twoWire
deriving DecidableEq, Repr

/-- Suspend reasons (Table 6-2). -/
inductive SuspendReason where
  | calibration | standby | rateUnsupported
deriving DecidableEq, Repr

/-- Context states (Table 6-3); the reason is present only in SUSPENDED. -/
inductive CtxState where
  | free | idle | running
  | suspended (reason : SuspendReason)
deriving DecidableEq, Repr

/-- Lane bindings, one place for each role of Table 6-4 (CLOCKED and TWO_WIRE share `clock`, ASYNC and TWO_WIRE
`data`, CLOCKED and FLASH `select`). -/
structure Lanes where
  data : Option Chan := none
  clock : Option Chan := none
  out : Option Chan := none
  select : Option Chan := none
  inn : Option Chan := none
  d0 : Option Chan := none
  d1 : Option Chan := none
  d2 : Option Chan := none
  d3 : Option Chan := none
deriving DecidableEq, Repr

/-- A context record (Table 6-2). -/
structure Context where
  state : CtxState := .free
  protocol : Option Protocol := none
  lanes : Lanes := {}
  report : Bool := false
  annotate : Bool := false
  asyncSettings : AsyncSettings := {}
  clockedSettings : ClockedSettings := {}
  flashSettings : FlashSettings := {}
  twoWireSettings : TwoWireSettings := {}
  good : Nat := 0
  errors : Nat := 0
  suppressed : Nat := 0
  errorThreshold : Nat := 100
  armed : Bool := true
  afterGap : Bool := false
  asyncEngine : AsyncEngine := {}
  clockedEngine : ClockedEngine := {}
  flashEngine : FlashEngine := {}
  twoWireEngine : TwoWireEngine := {}
  /-- MODEL: the next sample read is the first after a start, a gap or a resumption (R107, R125, R138, R150). -/
  fresh : Bool := true
  /-- MODEL for R119: the context has been started since it was opened. -/
  started : Bool := false
deriving DecidableEq, Repr

/-- The lost span of the queue (R96). -/
structure LostSpan where
  context : CtxId
  startTick : Nat
  endTick : Nat
deriving DecidableEq, Repr

/-- A record on the record path with the consumers whose conditions held when it entered (R95); the annotation
writer is offered it for the segment then capturing. -/
structure PathItem where
  record : Record
  toQueue : Bool
  toTrigger : Bool
  toSegment : Option SegId
deriving DecidableEq, Repr

/-- The decode controller (Table 6-1). -/
structure Dec where
  contexts : Vector Context 16
  level : Level
  gap : Bool
  setA : List Descriptor
  setB : List Descriptor
  queue : List Record
  isOpen : Bool
  lost : Nat
  span : Option LostSpan
  threshold : Nat
  armed : Bool
  /-- Records emitted and not yet delivered, oldest moment first; the records of one moment stand together (R95). -/
  path : List (List PathItem)
deriving DecidableEq, Repr

/-! ## Capture controller (chapters 4 and 5) -/

/-- DRAM as a list of address and byte pairs with strictly rising addresses and no byte equal to
`Config.dramFill`. -/
abbrev Memory := List Host.Cell

/-- Owner of a page (Table 4-2). -/
inductive PageOwner where
  | free
  | records (segment : SegId)
  | annotations (segment : SegId)
deriving DecidableEq, Repr

/-- A page map entry (R43). -/
structure PageEntry where
  owner : PageOwner
  next : Option Nat
deriving DecidableEq, Repr

/-- The page map: the entries that differ from their power-on value (R43), pages strictly rising. -/
abbrev PageMap := List (Nat × PageEntry)

/-- A list of pages (R43): head, tail and page count. -/
structure Chain where
  head : Option Nat := none
  tail : Option Nat := none
  count : Nat := 0
deriving DecidableEq, Repr

/-- Transition entry kinds (Table 4-3). -/
inductive EntryKind where
  | start | change | extend | dropout
deriving DecidableEq, Repr

/-- A transition entry (R48). -/
structure Entry where
  kind : EntryKind
  delta : Nat
  state : Lines
deriving DecidableEq, Repr

/-- A record page header (R47). -/
structure PageHeader where
  baseTick : Nat
  baseState : Lines
deriving DecidableEq, Repr

/-- A staged transition entry with its page and slot; the header of the page travels with the entry that opened it
(R52). -/
structure StagedEntry where
  page : Nat
  slot : Nat
  entry : Entry
  header : Option PageHeader
deriving DecidableEq, Repr

/-- An annotation entry (Table 4-7). -/
structure Annotation where
  startTick : Nat
  duration : Nat
  context : CtxId
  kind : RecordKind
  flags : BitVec 16
  clipped : Bool
  firstByte : Byte
  length : Nat
deriving DecidableEq, Repr

/-- A staged annotation with its page and slot (R56). -/
structure StagedAnnotation where
  page : Nat
  slot : Nat
  annotation : Annotation
deriving DecidableEq, Repr

/-- Encoder states (Table 4-4); a served segment is named outside IDLE. -/
inductive EncoderState where
  | idle
  | encoding (segment : SegId)
  | dropping (segment : SegId)
deriving DecidableEq, Repr

/-- The transition encoder (Table 4-1). -/
structure Encoder where
  state : EncoderState
  lastState : Lines
  lastTick : Nat
deriving DecidableEq, Repr

/-- Segment states (Table 5-2). -/
inductive SegState where
  | vacant | primed | preTrigger | postTrigger | sealed | retiring
deriving DecidableEq, Repr

/-- Seal reasons (Table 5-3). -/
inductive SealReason where
  | complete | stopped | limitReached | poolExhausted
deriving DecidableEq, Repr

/-- A segment record (Table 5-1); the field defaults are its VACANT values. -/
structure Segment where
  state : SegState := .vacant
  level : Option Level := none
  mask : Lines := 0#32
  budget : Nat := 0
  target : Nat := 0
  limit : Nat := 0
  annotationBudget : Nat := 0
  startTick : Option Nat := none
  records : Chain := {}
  written : Nat := 0
  firstRetained : Nat := 0
  firstRetainedTick : Nat := 0
  lastTick : Nat := 0
  triggerTick : Option Nat := none
  clipped : Bool := false
  forced : Bool := false
  postCount : Nat := 0
  sealReason : Option SealReason := none
  dropouts : Nat := 0
  annotations : Chain := {}
  firstAnnotation : Nat := 0
  annotationsStored : Nat := 0
  annotationsDropped : Nat := 0
  drainPending : Bool := false
  pins : Nat := 0
  retirePending : Bool := false
  /-- MODEL for R74: after an abort that left pins, the first sequence number and the first annotation index that
  were discarded from the staging FIFOs; they and later ones are not served. -/
  discarded : Option (Nat × Nat) := none
deriving DecidableEq, Repr

/-- A fire on its way to CAP (R161, R163). `live` is MODEL: clear once a later capture has started, so that a fire
of an ended capture is discarded on arrival (R66). -/
structure Fire where
  tick : Nat
  forced : Bool
  live : Bool
deriving DecidableEq, Repr

/-- One entry returned by SEGMENT_READ (R78). -/
structure ReadEntry where
  sequence : Nat
  kind : EntryKind
  state : Lines
  tick : Nat
deriving DecidableEq, Repr

/-- SEGMENT_READ or ANNOTATION_READ. -/
inductive ReadKind where
  | entries | annotations
deriving DecidableEq, Repr

/-- The read in flight (R78 to R80): the next position, how many more may be taken, what was taken. -/
structure ReadInFlight where
  kind : ReadKind
  segment : SegId
  next : Nat
  remaining : Nat
  rotatedAway : Bool
  entries : List ReadEntry
  annotations : List (Nat × Annotation)
  /-- The frame that asked is still open, so the response is formed into it (R180). -/
  frameOpen : Bool
deriving DecidableEq, Repr

/-- Which staging FIFO the memory port writes from next when both hold entries (R52: in turn). -/
inductive DrainTurn where
  | transition | annotation
deriving DecidableEq, Repr

/-- Condition of the DRAM at the memory port (Table 2-1, R27): `entering` waits for reads and writes in flight. -/
inductive PortState where
  | normal | entering | selfRefresh
deriving DecidableEq, Repr

/-- The capture controller (Tables 4-1 and 5-1). -/
structure Cap where
  dram : Memory
  pages : PageMap
  pool : Chain
  poolThreshold : Nat
  poolArmed : Bool
  encoder : Encoder
  staged : List StagedEntry
  stagedAnnotations : List StagedAnnotation
  segments : Vector Segment 8
  /-- Fires sent and not yet taken, in sending order. -/
  fires : List Fire
  read : Option ReadInFlight
  turn : DrainTurn
  port : PortState
deriving DecidableEq, Repr

/-! ## Trigger sequencer (chapter 10) -/

/-- Sequencer states (R152). -/
inductive SeqState where
  | idle | running | done
deriving DecidableEq, Repr

/-- A match unit (Table 10-2); a RECORD context of none is ANY. -/
inductive MatchUnit where
  | disabled
  | edge (channel : Chan) (direction : EdgeDirection)
  | pattern (mask value : Lines) (hold : Nat)
  | activity (channel : Chan) (direction : ActivityDirection)
  | record (context : Option CtxId) (compare : RecordCompare)
  | elapsed (time : Nat)
deriving DecidableEq, Repr

/-- Pattern state of a unit (R157); `since` is present while in match. DESIGN CHOICE (assumption log 51): out of match
TRIGGER_STATUS reports it absent. -/
structure PatternState where
  since : Option Nat := none
  raised : Bool := false
deriving DecidableEq, Repr

/-- A branch (Table 10-3). -/
structure Branch where
  enabled : Bool := false
  unit : UnitId := 0
  target : Nat := 1
  next : StageId := 0
  fire : Bool := false
  notice : Bool := false
deriving DecidableEq, Repr

/-- The trigger sequencer (Table 10-1). -/
structure Trg where
  state : SeqState
  outstanding : Bool
  /-- Last fire sent: its tick and its FORCED mark. -/
  lastFire : Option (Nat × Bool)
  stage : StageId
  entryTick : Nat
  time : Nat
  units : Vector MatchUnit 16
  patterns : Vector PatternState 16
  branches : Vector (Vector Branch 4) 8
  counters : Vector (Vector Nat 4) 8
  /-- MODEL (assumption log 4): PATTERN units raised by PATTERN_HOLD_EXPIRY steps taken ahead of the sample they
  belong to. -/
  raiseDue : List UnitId
deriving DecidableEq, Repr

/-! ## Display engine (chapter 11) -/

/-- A row of a view (Table 11-2). -/
inductive Row where
  | channel (ch : Chan)
  | annotation (ctx : CtxId)
deriving DecidableEq, Repr

/-- A view (Table 11-2); the defaults are the empty view. -/
structure View where
  segment : Option SegId := none
  start : Nat := 0
  ticksPerColumn : Nat := 1
  follow : Bool := false
  rows : List Row := []
deriving DecidableEq, Repr

/-- Refresh states (Table 11-1). -/
inductive RefreshState where
  | idle | reading | sending
deriving DecidableEq, Repr

/-- Outcomes of a refresh (Table 11-1). -/
inductive RefreshOutcome where
  | none | drawn | notDrawn
deriving DecidableEq, Repr

/-- Cells (R172, R173). -/
inductive Cell where
  | noData | edge | low | high
  | empty | boxOne | boxStart | boxEnd | boxBody | dense
deriving DecidableEq, Repr

/-- A label of an annotation row (R174). -/
structure Label where
  column : Nat
  kind : RecordKind
  firstByte : Byte
deriving DecidableEq, Repr

/-- One row of the cell map (R175): the cells formed so far, column 0 first, its labels and LABELS_DROPPED. -/
structure CellRow where
  cells : List Cell := []
  labels : List Label := []
  labelsDropped : Bool := false
deriving DecidableEq, Repr

/-- The display engine (Table 11-1). -/
structure Dsp where
  staged : View
  active : View
  state : RefreshState
  pending : Bool
  horizon : Option Nat
  annotationHorizon : Option Nat
  nextColumn : Nat
  cellMap : List CellRow
  outcome : RefreshOutcome
deriving DecidableEq, Repr

/-! ## Responses and the command port -/

/-- One channel of a MONITOR_READ response (R17). -/
structure MonitorReading where
  channel : Chan
  edges : Nat
  glitches : Nat
  activity : Activity
deriving DecidableEq, Repr

/-- Engine state as CONTEXT_STATUS returns it (R118, R125, R138, R151). -/
inductive EngineReport where
  | none
  | async (mode : TrackerMode) (tracker : Tracker) (period : Nat) (locked : Bool) (goodRun badRun kept : Nat)
      (phase : ReceiverPhase) (idleArmed pass : Bool)
  | clocked (phase : WordPhase) (bits : Nat)
  | flash (model : FlashModel) (armedOpcode : Option Byte) (resync : Bool) (phase : Option TransferPhase)
  | twoWire (state : BusState) (bits dataCount stretch : Nat) (hold : HoldClass) (holdOrigin : Option Nat)
      (freeOrigin : Option Nat) (lastStretch : Nat)
deriving DecidableEq, Repr

/-- A CONTEXT_STATUS response (R86); the settings of all four protocols are reported (R101, R140). -/
structure ContextReport where
  state : CtxState
  protocol : Option Protocol
  lanes : Lanes
  report : Bool
  annotate : Bool
  errorThreshold : Nat
  afterGap : Bool
  good : Nat
  errors : Nat
  suppressed : Nat
  asyncSettings : AsyncSettings
  clockedSettings : ClockedSettings
  flashSettings : FlashSettings
  twoWireSettings : TwoWireSettings
  engine : EngineReport
deriving DecidableEq, Repr

/-- Response data, one constructor per shape of Table 12-2; `none` is a status alone. -/
inductive ResponseData where
  | none
  | frontEnd (thresholds : Vector Byte 4) (offsets : Vector Int 32) (widths : Vector Nat 4) (isActive : Bool)
  | lines (lines : Lines) (stamp : Nat) (activity : Vector Activity 32)
  | monitors (readings : List MonitorReading)
  | level (level : Level) (transition : Transition) (request : Option Level) (count : Nat) (exhausted : Bool)
  | calibration (state : CalState) (step : Option Nat) (outcome : CalOutcome) (runLevel : Option Level)
      (channels : Lines) (seed tolerance : Nat) (results : Vector CalResult 32)
  | pool (count : Nat) (head tail : Option Nat) (threshold : Nat) (armed : Bool)
  | segment (record : Segment) (recordFill annotationFill : Nat)
  | entries (state : SegState) (written firstRetained : Nat) (rotatedAway : Bool) (entries : List ReadEntry)
  | annotations (firstAnnotation stored dropped : Nat) (rotatedAway : Bool) (annotations : List (Nat × Annotation))
  | context (report : ContextReport)
  | records (isOpen : Bool) (occupancy lost : Nat) (records : List Record)
  | queue (occupancy : Nat) (isOpen : Bool) (lost : Nat) (span : Option LostSpan) (threshold : Nat) (armed : Bool)
  | trigger (state : SeqState) (outstanding : Bool) (stage : StageId) (entryTick time : Nat)
      (lastFire : Option (Nat × Bool)) (counters : Vector (Vector Nat 4) 8) (patterns : List (UnitId × PatternState))
  | program (units : Vector MatchUnit 16) (branches : Vector (Vector Branch 4) 8)
  | display (staged active : View) (state : RefreshState) (pending : Bool) (outcome : RefreshOutcome)
      (horizon annotationHorizon : Option Nat) (nextColumn : Option Nat)
  | notices (pending : BitVec 14) (lockChange errorThreshold : BitVec 16) (glitch activity : Lines)
  | mask (mask pending : BitVec 14)
  | identity (vendor : Byte) (part : BitVec 16) (revision pages segments contexts queueDepth : Nat)
deriving DecidableEq, Repr

/-- A response: one status (Table 0-3) and the data its rule names (R178). -/
structure Response where
  status : Status
  data : ResponseData
deriving DecidableEq, Repr

/-- A read request that waits for the earlier read's response (R180), with whether its header covers its parameters. -/
structure HeldRead where
  kind : ReadKind
  fit : Fit
  segment : Byte
  start : Nat
  count : Nat
deriving DecidableEq, Repr

/-- The command port and notice unit (Table 12-1). Sets of kinds have bit n set for notice kind n (R185). -/
structure Cmd where
  frame : FrameState
  /-- The response formed in the present frame, until the frame ends (R178, R179). -/
  response : Option Response
  held : Option HeldRead
  pending : BitVec 14
  mask : BitVec 14
  /-- Context detail sets (Table 0-4). -/
  lockChange : BitVec 16
  errorThreshold : BitVec 16
  /-- Channel detail sets (Table 0-4). -/
  glitch : Lines
  activity : Lines
deriving DecidableEq, Repr

/-! ## The whole device -/

/-- The CQ32: its eight blocks, and the commands waiting for it, first in, first out. -/
structure State where
  pfe : Pfe
  lvl : Lvl
  cal : Cal
  cap : Cap
  dec : Dec
  trg : Trg
  dsp : Dsp
  cmd : Cmd
  pending : List Instr
deriving DecidableEq, Repr

/-- Reasons to stop with a fault. The manual describes none: every command has an effect in every state, so no
meaning raises one (assumption log 3). -/
inductive Fault where
deriving DecidableEq, Repr

/-- Reasons to refuse. -/
inductive Refusal where
  /-- Raised by `exec` for a command that has no meaning yet. Safe: the machine stops. -/
  | notModelled (mnemonic : String)
deriving DecidableEq, Repr

/-- Front-end context after power-on: all 0 (Table 1-2). -/
def FrontEnd.zero : FrontEnd := ⟨Vector.replicate 32 0, Vector.replicate 4 0⟩

/-- Glitch filter before the first sample of a run; R7 sets it at that sample. -/
def GlitchFilter.unset : GlitchFilter := ⟨false, none, 0#33⟩

/-- A monitor after either reset (Table 1-2). -/
def Monitor.fresh : Monitor := ⟨0, 0, true, .quiet, none, none, none⟩

/-- PFE after power-on (Table 1-2); the first sampling run has begun (R18). -/
def Pfe.reset : Pfe where
  thresholds := Vector.replicate 4 70#8
  full := .zero
  economy := .zero
  active := some .full
  lines := 0#32
  stamp := 0
  filters := Vector.replicate 32 .unset
  emitted := Vector.replicate 32 0
  monitors := Vector.replicate 32 .fresh
  glitchThreshold := 1000
  quietTime := 2000000
  run := some ⟨0, 1, 0, 0⟩
  activityDue := []

/-- LVL after power-on (Table 2-2). -/
def Lvl.reset : Lvl := ⟨.full, .steady, none, 0, false⟩

/-- CAL after either reset (Table 3-1): seed 1 is in the pattern register. -/
def Cal.reset : Cal where
  state := .idle
  channels := 0#32
  seed := 1
  tolerance := 0
  runLevel := none
  counted := 0
  base := 0
  pattern := 1#15
  driven := false
  mismatches := Vector.replicate 32 (Vector.replicate 16 0)
  compared := Vector.replicate 32 0
  outcome := .none
  results := Vector.replicate 32 .notSelected

/-- The free pool after either reset (R44). -/
def Chain.fullPool : Chain := ⟨some 0, some (Config.pageCount - 1), Config.pageCount⟩

/-- CAP after power-on (Tables 4-1 and 5-1). -/
def Cap.reset : Cap where
  dram := []
  pages := []
  pool := .fullPool
  poolThreshold := 1024
  poolArmed := true
  encoder := ⟨.idle, 0#32, 0⟩
  staged := []
  stagedAnnotations := []
  segments := Vector.replicate 8 {}
  fires := []
  read := none
  turn := .transition
  port := .normal

/-- DEC after power-on (Table 6-1). -/
def Dec.reset : Dec where
  contexts := Vector.replicate 16 {}
  level := .full
  gap := false
  setA := []
  setB := []
  queue := []
  isOpen := true
  lost := 0
  span := none
  threshold := 256
  armed := true
  path := []

/-- TRG after power-on (Table 10-1). -/
def Trg.reset : Trg where
  state := .idle
  outstanding := false
  lastFire := none
  stage := 0
  entryTick := 0
  time := 0
  units := Vector.replicate 16 .disabled
  patterns := Vector.replicate 16 {}
  branches := Vector.replicate 8 (Vector.replicate 4 {})
  counters := Vector.replicate 8 (Vector.replicate 4 0)
  raiseDue := []

/-- DSP after either reset (Table 11-1). -/
def Dsp.reset : Dsp := ⟨{}, {}, .idle, false, none, none, 0, [], .none⟩

/-- CMD after power-on (Table 12-1): all 14 kinds masked. -/
def Cmd.reset : Cmd := ⟨.idle, none, none, 0#14, BitVec.allOnes 14, 0#16, 0#16, 0#32, 0#32⟩

/-- The machine right after power-on. -/
def State.reset : State := ⟨.reset, .reset, .reset, .reset, .reset, .reset, .reset, .reset, []⟩

end Sys2Proof.Machine
end

