-- ==== Sys2Proof/Machine/Ops.lean ====
section
/-! DEFINITION. Machine/Ops.lean: the named operations the meanings share: banks of like things, sets as bit fields,
sparse lists in canonical form (DRAM and the page map), little-endian fields, the blocks of the state, raising a
notice (R181), the frame of the command port (R178, R179, R19). -/

namespace Sys2Proof.Machine

/-- The outcome of a command that takes effect. -/
abbrev done (s : State) : Host.Outcome State Fault Refusal := .next s

/-! ## Banks and sets -/

/-- Every member of a bank through a function of its number. -/
def mapIds {α β : Type} {n : Nat} (v : Vector α n) (f : Fin n → α → β) : Vector β n :=
  Vector.ofFn fun i => f i v[i]

/-- One member of a bank replaced by a function of itself. -/
def modifyId {α : Type} {n : Nat} (v : Vector α n) (i : Fin n) (f : α → α) : Vector α n :=
  v.set i (f v[i])

/-- Member n of a set carried as a bit field (R185). -/
def inSet {w : Nat} (m : BitVec w) (n : Nat) : Bool := m.getLsbD n

/-- The bit field of the members that satisfy `p`. -/
def setOf {w : Nat} (p : Fin w → Bool) : BitVec w :=
  (everyId w).foldl (fun m i => if p i then m ||| BitVec.twoPow w i.val else m) (0#w)

/-- A number read from a byte, when it is below `n`. -/
def idOf (n : Nat) (b : Byte) : Option (Fin n) :=
  if h : b.toNat < n then some ⟨b.toNat, h⟩ else none

/-- Counters saturate and do not wrap (2.3). -/
def bump (cap n : Nat) : Nat := min (n + 1) cap

/-- A value brought into `lo..hi` (2.4). -/
def clamp (lo hi n : Nat) : Nat := min (max n lo) hi

/-- The smallest n with n * d at least `a`. -/
def ceilDiv (a d : Nat) : Nat := (a + d - 1) / d

/-! ## Little-endian fields (chapter 13) -/

/-- `n` bytes of a number, least significant first. -/
def leBytes : Nat → Nat → List Byte
  | 0, _ => []
  | n + 1, v => BitVec.ofNat 8 v :: leBytes n (v / 256)

/-- The number held by bytes, least significant first. -/
def ofLe : List Byte → Nat
  | [] => 0
  | b :: bs => b.toNat + 256 * ofLe bs

/-! ## Sparse lists in canonical form -/

/-- The value at a key; an unlisted key reads as `dflt` gives. -/
def Sparse.get {α : Type} (dflt : Nat → α) : List (Nat × α) → Nat → α
  | [], k => dflt k
  | (a, v) :: m, k => if a = k then v else Sparse.get dflt m k

/-- A write that keeps the keys rising and lists no entry equal to its default. -/
def Sparse.set {α : Type} [DecidableEq α] (dflt : Nat → α) : List (Nat × α) → Nat → α → List (Nat × α)
  | [], k, v => if v = dflt k then [] else [(k, v)]
  | (a, w) :: m, k, v =>
    if k < a then (if v = dflt k then (a, w) :: m else (k, v) :: (a, w) :: m)
    else if k = a then (if v = dflt k then m else (k, v) :: m)
    else (a, w) :: Sparse.set dflt m k v

/-- The canonical form: keys strictly rising, no entry equal to its default. -/
abbrev Sparse.wf {α : Type} [DecidableEq α] (dflt : Nat → α) (m : List (Nat × α)) : Prop :=
  m.Pairwise (fun x y => x.1 < y.1) ∧ ∀ c ∈ m, c.2 ≠ dflt c.1

/-- What a DRAM byte nothing has written reads as (assumption log 2). -/
def dramDefault (_ : Nat) : Byte := Config.dramFill

/-- One byte of DRAM. -/
def Memory.read (m : Memory) (a : Nat) : Byte := Sparse.get dramDefault m a

/-- One byte of DRAM written. -/
def Memory.write (m : Memory) (a : Nat) (b : Byte) : Memory := Sparse.set dramDefault m a b

/-- Consecutive bytes written from an address on. -/
def Memory.writeBytes (m : Memory) (a : Nat) : List Byte → Memory
  | [] => m
  | b :: bs => Memory.writeBytes (Memory.write m a b) (a + 1) bs

/-- Consecutive bytes read from an address on. -/
def Memory.readBytes (m : Memory) (a n : Nat) : List Byte :=
  (List.range n).map fun i => Memory.read m (a + i)

/-- DRAM is in its canonical form. -/
abbrev Memory.wf (m : Memory) : Prop := Sparse.wf dramDefault m

/-- The power-on page map entry of a page (R43). -/
def pageDefault (p : Nat) : PageEntry := ⟨.free, if p + 1 < Config.pageCount then some (p + 1) else none⟩

/-- A page map entry. -/
def PageMap.get (m : PageMap) (p : Nat) : PageEntry := Sparse.get pageDefault m p

/-- A page map entry written. -/
def PageMap.set (m : PageMap) (p : Nat) (e : PageEntry) : PageMap := Sparse.set pageDefault m p e

/-- The next page of a page set, its owner kept. -/
def PageMap.setNext (m : PageMap) (p : Nat) (next : Option Nat) : PageMap :=
  PageMap.set m p ⟨(PageMap.get m p).owner, next⟩

/-- The owner of a page set, its next page kept. -/
def PageMap.setOwner (m : PageMap) (p : Nat) (owner : PageOwner) : PageMap :=
  PageMap.set m p ⟨owner, (PageMap.get m p).next⟩

/-- The page map is in its canonical form. -/
abbrev PageMap.wf (m : PageMap) : Prop := Sparse.wf pageDefault m

/-! ## The blocks of the state -/

/-- PFE replaced. -/
def State.setPfe (s : State) (x : Pfe) : State := { s with pfe := x }
/-- LVL replaced. -/
def State.setLvl (s : State) (x : Lvl) : State := { s with lvl := x }
/-- CAL replaced. -/
def State.setCal (s : State) (x : Cal) : State := { s with cal := x }
/-- CAP replaced. -/
def State.setCap (s : State) (x : Cap) : State := { s with cap := x }
/-- DEC replaced. -/
def State.setDec (s : State) (x : Dec) : State := { s with dec := x }
/-- TRG replaced. -/
def State.setTrg (s : State) (x : Trg) : State := { s with trg := x }
/-- DSP replaced. -/
def State.setDsp (s : State) (x : Dsp) : State := { s with dsp := x }
/-- CMD replaced. -/
def State.setCmd (s : State) (x : Cmd) : State := { s with cmd := x }
/-- The waiting commands replaced. -/
def State.setPending (s : State) (x : List Instr) : State := { s with pending := x }

/-- A segment record. -/
def State.segment (s : State) (id : SegId) : Segment := s.cap.segments[id]

/-- A segment record replaced. -/
def State.setSegment (s : State) (id : SegId) (g : Segment) : State :=
  s.setCap { s.cap with segments := s.cap.segments.set id g }

/-- A decoder context. -/
def State.context (s : State) (id : CtxId) : Context := s.dec.contexts[id]

/-- A decoder context replaced. -/
def State.setContext (s : State) (id : CtxId) (c : Context) : State :=
  s.setDec { s.dec with contexts := s.dec.contexts.set id c }

/-! ## Conditions several rules test -/

/-- Capturing: in PRE_TRIGGER or POST_TRIGGER (Table 0-5). -/
def SegState.isCapturing : SegState → Bool
  | .preTrigger | .postTrigger => true
  | .vacant | .primed | .sealed | .retiring => false

/-- The segment that is capturing; at most one is (R60). -/
def State.capturing? (s : State) : Option SegId :=
  (everyId 8).find? fun id => (s.segment id).state.isCapturing

/-- CAL is active: SETTLING or MEASURING (R29). -/
def Cal.isActive (c : Cal) : Bool :=
  match c.state with
  | .idle => false
  | .settling | .measuring => true

/-- The level controller is SWITCHING (R18). -/
def Lvl.isSwitching (l : Lvl) : Bool :=
  match l.transition with
  | .steady => false
  | .switching _ => true

/-- The destination of a level request (R24). -/
def Lvl.destination (l : Lvl) : Level :=
  match l.transition with
  | .steady => l.level
  | .switching target => target

/-- Resting in STANDBY (R19). -/
def State.resting (s : State) : Bool := s.lvl.level == .standby && s.lvl.transition == .steady

/-- The present level or the target level is STANDBY (R169). -/
def Lvl.touchesStandby (l : Lvl) : Bool := l.level == .standby || l.destination == .standby

/-- The sample step of a level in ticks (2.2); STANDBY takes no sample. -/
def stepOf : Level → Nat
  | .full => 1
  | .economy => 4
  | .standby => 1

/-! ## Notices (R181, R182) -/

/-- The number of a notice kind (R185: 0 to 13 in the order of Table 0-4). -/
def Notice.index : Notice → Nat
  | .segmentSealed => 0
  | .triggerFired => 1
  | .triggerStage => 2
  | .segmentRetired => 3
  | .poolLow => 4
  | .queueLevel => 5
  | .queueClosed => 6
  | .lockChange => 7
  | .errorThreshold => 8
  | .glitchThreshold => 9
  | .activityChange => 10
  | .calibrationDone => 11
  | .levelChanged => 12
  | .refreshDone => 13

/-- A kind added to the pending set. -/
def Cmd.raise (c : Cmd) (n : Notice) : Cmd := { c with pending := c.pending ||| BitVec.twoPow 14 n.index }

/-- R181: a block raises a notice that has no detail set. -/
def State.raise (s : State) (n : Notice) : State := s.setCmd (s.cmd.raise n)

/-- R181 for GLITCH_THRESHOLD: raised by every channel of the set; none for the empty set. -/
def State.raiseGlitch (s : State) (channels : Lines) : State :=
  if channels = 0#32 then s
  else s.setCmd { s.cmd.raise .glitchThreshold with glitch := s.cmd.glitch ||| channels }

/-- R181 for ACTIVITY_CHANGE. -/
def State.raiseActivity (s : State) (channels : Lines) : State :=
  if channels = 0#32 then s
  else s.setCmd { s.cmd.raise .activityChange with activity := s.cmd.activity ||| channels }

/-- R181 for LOCK_CHANGE. -/
def State.raiseLock (s : State) (contexts : BitVec 16) : State :=
  if contexts = 0#16 then s
  else s.setCmd { s.cmd.raise .lockChange with lockChange := s.cmd.lockChange ||| contexts }

/-- R181 for ERROR_THRESHOLD. -/
def State.raiseError (s : State) (contexts : BitVec 16) : State :=
  if contexts = 0#16 then s
  else s.setCmd { s.cmd.raise .errorThreshold with errorThreshold := s.cmd.errorThreshold ||| contexts }

/-- R182: the attention line is high while a pending kind is not masked. -/
def State.attention (s : State) : Bool := s.cmd.pending &&& ~~~s.cmd.mask != 0#14

/-! ## The frame of a request (R178, R179, R19) -/

/-- A response formed in the present frame. -/
def State.respond (s : State) (r : Response) : State :=
  s.setCmd { s.cmd with frame := .response, response := some r }

/-- A status alone. -/
def Response.only (st : Status) : Response := ⟨st, .none⟩

/-- A request may be taken: a frame is open, its request not yet complete (R178), and none is held (R180). -/
def State.portOpen (s : State) : Bool := s.cmd.frame == .request && s.cmd.held.isNone

/-- What the command port does before the owning block sees a request: outside the REQUEST state its bytes are not a
request (R178); resting in STANDBY only some are admitted (R19); too few parameter bytes are BAD_PARAM (R179). The
block then applies it as one event and the response is formed. -/
def request (admitted : Bool) (fit : Fit) (body : State → State × Response) (s : State) : State :=
  if s.portOpen then
    if s.resting && !admitted then s.respond (.only .level)
    else
      match fit with
      | .short => s.respond (.only .badParam)
      | .enough => (body s).1.respond (body s).2
  else s

/-- A body that only answers a status. -/
abbrev answer (st : Status) (s : State) : State × Response := (s, .only st)

/-- A body that changes nothing and answers OK with data. -/
abbrev tell (d : ResponseData) (s : State) : State × Response := (s, ⟨.ok, d⟩)

end Sys2Proof.Machine
end

