-- ==== Sys2Proof/Machine/Flags.lean ====
section
/-! DEFINITION. Machine/Flags.lean: the flags of a transaction record (Table 6-10) and what is computed from them. -/

namespace Sys2Proof.Machine

/-- The 25 named flags of Table 6-10. -/
inductive RecordFlag where
  | noise | framing | parity | afterGap | truncated | skew | phase | unknownOpcode | elided | withoutEnable | whileBusy
  | ignoredPoweredDown | pageWrap | wrappedRead | lanesMissing | busyEnded | nakAddress | nakData | stretchExcess
  | busStuck | aborted | clippedStart | addressMark | partialWord | trimmed
deriving DecidableEq, Repr

/-- The position of a flag (Table 6-10). -/
def RecordFlag.position : RecordFlag → Nat
  | .noise => 0
  | .framing => 1
  | .parity => 2
  | .afterGap => 3
  | .truncated => 4
  | .skew => 5
  | .phase => 6
  | .unknownOpcode => 7
  | .elided => 8
  | .withoutEnable => 9
  | .whileBusy => 10
  | .ignoredPoweredDown => 11
  | .pageWrap => 12
  | .wrappedRead => 13
  | .lanesMissing => 14
  | .busyEnded => 15
  | .nakAddress => 16
  | .nakData => 17
  | .stretchExcess => 18
  | .busStuck => 19
  | .aborted => 20
  | .clippedStart => 21
  | .addressMark => 22
  | .partialWord => 23
  | .trimmed => 24

/-- The word with one flag set. -/
def RecordFlag.bit (f : RecordFlag) : BitVec 32 := BitVec.twoPow 32 f.position

/-- The word with the flags set whose condition holds. -/
def flagWord : List (RecordFlag × Bool) → BitVec 32
  | [] => 0#32
  | (f, set) :: rest => if set then f.bit ||| flagWord rest else flagWord rest

/-- The flags marked as errors in Table 6-10. -/
def errorFlags : BitVec 32 :=
  flagWord [(.noise, true), (.framing, true), (.parity, true), (.truncated, true), (.skew, true), (.phase, true),
    (.nakAddress, true), (.stretchExcess, true), (.busStuck, true), (.aborted, true)]

/-- R94: a record with any error flag is an error unit, any other a good unit. -/
def Record.isError (r : Record) : Bool := r.flags &&& errorFlags != 0#32

/-- A record has a flag. -/
def Record.has (r : Record) (f : RecordFlag) : Bool := r.flags.getLsbD f.position

/-- A record with a flag set. -/
def Record.withFlag (r : Record) (f : RecordFlag) : Record := { r with flags := r.flags ||| f.bit }

/-- R91: the payload length saturates at 65,535 and TRIMMED marks it; the head keeps at most four bytes. -/
def Record.withPayload (r : Record) (bytes : List Byte) : Record :=
  if bytes.length > 65535 then
    { r with length := 65535, head := bytes.take 4, flags := r.flags ||| RecordFlag.trimmed.bit }
  else { r with length := bytes.length, head := bytes.take 4 }

/-- R55, R92: the first sixteen flags, NOISE to BUSY_ENDED, are those an annotation entry keeps. -/
def Record.annotationFlags (r : Record) : BitVec 16 := r.flags.setWidth 16

end Sys2Proof.Machine
end

