-- ==== Sys2Proof/Machine/Layouts.lean ====
section
/-! DEFINITION. Machine/Layouts.lean: the byte layouts of chapter 13: transition entries, page headers and annotation
entries in DRAM (13.2), the transaction record (13.3), the response and the filler around it (Table 13-2), the request
codes (R185; their reading from a frame is in Decode.lean). -/

namespace Sys2Proof.Machine

/-- Transition entry kind byte (Table 13-3). -/
def EntryKind.code : EntryKind → Byte
  | .start => 0#8
  | .change => 1#8
  | .extend => 2#8
  | .dropout => 3#8

/-- The kind a stored kind byte stands for. -/
def EntryKind.ofCode (b : Byte) : EntryKind :=
  match b.toNat with
  | 0 => .start
  | 1 => .change
  | 2 => .extend
  | _ => .dropout

/-- Record kind code (13.2). -/
def recordKindCode : RecordKind → Nat
  | .character => 0
  | .brk => 1
  | .idle => 2
  | .word => 3
  | .flashOp => 4
  | .message => 5
  | .gap => 6

/-- The record kind of a code. -/
def recordKindOfCode : Nat → RecordKind
  | 0 => .character
  | 1 => .brk
  | 2 => .idle
  | 3 => .word
  | 4 => .flashOp
  | 5 => .message
  | _ => .gap

/-- Effect class code (Table 13-7). -/
def effectCode : EffectClass → Nat
  | .read => 0
  | .programPage => 1
  | .modify => 2
  | .enable => 3
  | .disable => 4
  | .statusRead => 5
  | .wrapSet => 6
  | .powerDown => 7
  | .powerUp => 8
  | .wideOn => 9
  | .wideOff => 10
  | .other => 11

/-- The effect class of a descriptor byte; none outside Table 13-7. -/
def effectOfCode : Nat → Option EffectClass
  | 0 => some .read
  | 1 => some .programPage
  | 2 => some .modify
  | 3 => some .enable
  | 4 => some .disable
  | 5 => some .statusRead
  | 6 => some .wrapSet
  | 7 => some .powerDown
  | 8 => some .powerUp
  | 9 => some .wideOn
  | 10 => some .wideOff
  | 11 => some .other
  | _ => none

/-! ## Capture memory (13.2) -/

/-- Table 13-3: a transition entry, 8 bytes. -/
def Entry.encode (e : Entry) : List Byte := leBytes 4 e.state.toNat ++ leBytes 3 e.delta ++ [e.kind.code]

/-- The entry that 8 stored bytes hold. -/
def Entry.decode (bs : List Byte) : Entry where
  kind := EntryKind.ofCode (bs.getD 7 0#8)
  delta := ofLe ((bs.drop 4).take 3)
  state := BitVec.ofNat 32 (ofLe (bs.take 4))

/-- Table 13-3: a record page header, 16 bytes. -/
def PageHeader.encode (h : PageHeader) : List Byte :=
  leBytes 6 h.baseTick ++ [0#8, 0#8] ++ leBytes 4 h.baseState.toNat ++ [0#8, 0#8, 0#8, 0#8]

/-- The header that 16 stored bytes hold. -/
def PageHeader.decode (bs : List Byte) : PageHeader where
  baseTick := ofLe (bs.take 6)
  baseState := BitVec.ofNat 32 (ofLe ((bs.drop 8).take 4))

/-- Table 13-4: an annotation entry, 16 bytes. -/
def Annotation.encode (a : Annotation) : List Byte :=
  leBytes 6 a.startTick ++ leBytes 4 a.duration ++ [BitVec.ofNat 8 (a.context.val + 16 * recordKindCode a.kind)]
    ++ leBytes 2 a.flags.toNat ++ [a.firstByte, BitVec.ofNat 8 a.length, if a.clipped then 1#8 else 0#8]

/-- The annotation that 16 stored bytes hold. -/
def Annotation.decode (bs : List Byte) : Annotation where
  startTick := ofLe (bs.take 6)
  duration := ofLe ((bs.drop 6).take 4)
  context := ⟨(bs.getD 10 0#8).toNat % 16, Nat.mod_lt _ (by decide)⟩
  kind := recordKindOfCode ((bs.getD 10 0#8).toNat / 16)
  flags := BitVec.ofNat 16 (ofLe ((bs.drop 11).take 2))
  clipped := (bs.getD 15 0#8).getLsbD 0
  firstByte := bs.getD 13 0#8
  length := (bs.getD 14 0#8).toNat

/-- The byte address of an entry slot of a record page (13.2). -/
def entryAddress (page slot : Nat) : Nat := page * Config.pageBytes + 16 + 8 * slot

/-- The byte address of a record page's header (13.2). -/
def headerAddress (page : Nat) : Nat := page * Config.pageBytes

/-- The byte address of an annotation slot (13.2). -/
def annotationAddress (page slot : Nat) : Nat := page * Config.pageBytes + 16 * slot

/-! ## The transaction record (13.3) -/

/-- A bit as a number. -/
def bitN (b : Bool) : Nat := if b then 1 else 0

/-- Table 13-6: the kind byte. -/
def Record.kindByte (r : Record) : Nat :=
  match r.kind with
  | .word => bitN r.inWord.isSome
  | .flashOp =>
    (match r.effect with
      | some e => effectCode e
      | none => 15)
      + 16 * bitN r.opcode.isSome + 32 * bitN r.modeByte.isSome
      + 64 * (match r.address with
        | some _ => if r.addressBytes = 4 then 2 else 1
        | none => 0)
  | .message =>
    match r.ack with
    | some a =>
      bitN r.address.isSome + 2 * bitN (!a.addressAck) + 4 * bitN a.firstNak.isSome
        + 8 * (match a.lastAck with
          | none => 0
          | some true => 1
          | some false => 2)
    | none => bitN r.address.isSome
  | .character | .brk | .idle | .gap => 0

/-- Table 13-6: the nine bytes of the kind area. R186: with BUSY_ENDED offsets 28 to 31 carry the busy duration,
saturating, and otherwise the end address. -/
def Record.kindArea (r : Record) : List Byte :=
  match r.kind with
  | .word => leBytes 4 ((r.inWord.map BitVec.toNat).getD 0) ++ leBytes 5 0
  | .flashOp =>
    [r.opcode.getD 0#8] ++ leBytes 4 (r.address.getD 0)
      ++ leBytes 4 (if r.has .busyEnded then min (r.busyDuration.getD 0) (2 ^ 32 - 1) else r.endAddress.getD 0)
  | .message =>
    [BitVec.ofNat 8 (r.address.getD 0 % 128 + 128 * bitN (r.isRead.getD false))]
      ++ leBytes 2 (min (((r.ack.bind (·.firstNak))).getD 0) 65535) ++ leBytes 6 0
  | .gap => leBytes 4 (r.lost.getD 0) ++ leBytes 5 0
  | .character | .brk | .idle => leBytes 9 0

/-- Table 13-5: a record as returned, 32 bytes. For a FLASH_OP the byte at offset 3 holds the mode byte. -/
def Record.encode (r : Record) : List Byte :=
  [BitVec.ofNat 8 (r.context.val + 16 * recordKindCode r.kind + 128 * bitN (r.has .trimmed))]
    ++ leBytes 2 (r.flags.toNat % 65536)
    ++ [if r.kind = .flashOp then r.modeByte.getD 0#8 else (r.flags.extractLsb' 16 8)]
    ++ [BitVec.ofNat 8 r.kindByte] ++ leBytes 6 r.startTick ++ leBytes 6 r.endTick ++ leBytes 2 r.length
    ++ (r.head ++ [0#8, 0#8, 0#8, 0#8]).take 4 ++ r.kindArea

/-! ## The command port (13.1) -/

/-- Status byte (Table 13-2). -/
def Status.code : Status → Byte
  | .ok => 0#8
  | .accepted => 1#8
  | .busy => 2#8
  | .wrongState => 3#8
  | .badParam => 4#8
  | .notFound => 5#8
  | .full => 6#8
  | .level => 7#8
  | .unknown => 8#8

/-- R185: the codes the device recognises are 0x01 to 0x2E. -/
def recognisedCode (code : Byte) : Bool := decide (1 ≤ code.toNat ∧ code.toNat ≤ 0x2E)

/-- R185: the request code of a request, numbered by the rows of Table 12-2; none for a command that is no request. -/
def requestCode : Instr → Option Nat
  | .thresholdSet .. => some 0x01
  | .deskewSet .. => some 0x02
  | .glitchWidthSet .. => some 0x03
  | .frontEndRead .. => some 0x04
  | .linesRead => some 0x05
  | .monitorSet .. => some 0x06
  | .monitorRead .. => some 0x07
  | .setLevel .. => some 0x08
  | .levelStatus => some 0x09
  | .calibrate .. => some 0x0A
  | .calibrationAbort => some 0x0B
  | .readCalibration => some 0x0C
  | .poolThresholdSet .. => some 0x0D
  | .poolStatus => some 0x0E
  | .segmentPrepare .. => some 0x0F
  | .segmentStatus .. => some 0x10
  | .segmentStart .. => some 0x11
  | .segmentStop => some 0x12
  | .segmentAbort => some 0x13
  | .segmentRetire .. => some 0x14
  | .segmentRead .. => some 0x15
  | .annotationRead .. => some 0x16
  | .contextOpen .. => some 0x17
  | .contextClose .. => some 0x18
  | .contextConfigure .. => some 0x19
  | .contextStart .. => some 0x1A
  | .contextStop .. => some 0x1B
  | .contextStatus .. => some 0x1C
  | .flashSetLoad .. => some 0x1D
  | .flashModelClear .. => some 0x1E
  | .recordsTake .. => some 0x1F
  | .queueThresholdSet .. => some 0x20
  | .queueStatus => some 0x21
  | .queueAckGap => some 0x22
  | .matchUnitSet .. => some 0x23
  | .branchSet .. => some 0x24
  | .triggerForce => some 0x25
  | .triggerStatus => some 0x26
  | .triggerProgramRead => some 0x27
  | .viewSet .. => some 0x28
  | .refresh => some 0x29
  | .displayStatus => some 0x2A
  | .noticesRead => some 0x2B
  | .noticesMask .. => some 0x2C
  | .identify => some 0x2D
  | .reset => some 0x2E
  | _ => none

/-- Level byte (R185). -/
def levelCode : Level → Byte
  | .full => 0#8
  | .economy => 1#8
  | .standby => 2#8

/-- A segment, context, stage or unit number, one byte (R185). -/
def numberByte {n : Nat} (i : Fin n) : List Byte := [BitVec.ofNat 8 i.val]

/-- Field `k` of a response that may be absent: its form where it is present, and where it is absent a free value
(assumption log 14). -/
def optionalField {α : Type} (code k : Nat) (form : α → List Byte) : Option α → List Byte
  | some a => form a
  | none => Config.freeBytes code k ()

/-- Fields behind each other, in an order that is a free value: chapter 13 gives none, and R185's RECORDS_TAKE does not
keep the order of Table 12-2 (assumption log 14). `part` names the response, or the part of one, they make up. -/
def inPlace (part : List Nat) (fields : List (List Byte)) : List Byte :=
  (fields.zipIdx.insertionSort fun a b =>
    Config.fieldKey part fields.length a.2 ≤ Config.fieldKey part fields.length b.2).flatMap (·.1)

/-- The fields of a view's rows, field `k` of a response: the context number of an ANNOTATION row is one byte (R185). -/
def rowFields (code k : Nat) (rows : List Row) : List (List Byte) :=
  Config.freeBytes code k rows.length :: rows.zipIdx.flatMap fun (row, i) =>
    match row with
    | .channel ch => [Config.freeBytes code k (i, some ch)]
    | .annotation ctx => [Config.freeBytes code k (i, (none : Option Chan)), numberByte ctx]

/-- The fields of a match unit: the context number of a RECORD unit is one byte (R185). -/
def unitBytes (code k : Nat) (i : UnitId) (u : MatchUnit) : List (List Byte) :=
  match u with
  | .record context compare =>
    [Config.freeBytes code k (i, compare), optionalField code (k + 1) numberByte context]
  | .disabled | .edge .. | .pattern .. | .activity .. | .elapsed _ => [Config.freeBytes code k (i, u)]

/-- The fields of a branch: its unit and its next stage are one byte each (R185). -/
def branchBytes (code k : Nat) (i : StageId) (j : BranchId) (b : Branch) : List (List Byte) :=
  [numberByte b.unit, numberByte b.next, Config.freeBytes code k (i, j, b.enabled, b.target, b.fire, b.notice)]

/-- R187: the opcode of the armed descriptor that a FLASH context reports. -/
def EngineReport.armedOpcode : EngineReport → Option Byte
  | .flash _ opcode _ _ => opcode
  | .none | .async .. | .clocked .. | .twoWire .. => Option.none

/-- R151: the hold origin and the free origin that a TWO_WIRE context reports. -/
def EngineReport.origins : EngineReport → Option Nat × Option Nat
  | .twoWire _ _ _ _ _ hold free _ => (hold, free)
  | .none | .async .. | .clocked .. | .flash .. => (Option.none, Option.none)

/-- The fields of response data with the code of their request, in the order of Table 12-2, but for RECORDS_TAKE, which
R185 lays out whole. Sets, numbers and levels have the form of R185, ticks that of chapter 13's opening; the bytes of
every other field are free values (assumption log 14). -/
def ResponseData.fields : ResponseData → Nat × List (List Byte)
  | .none => (0, [])
  | .records .. => (0x1F, [])
  | .frontEnd thresholds offsets widths isActive =>
    (0x04, [Config.freeBytes 0x04 0 (thresholds, offsets, widths, isActive)])
  | .lines values stamp activity =>
    (0x05, [Config.freeBytes 0x05 0 values, leBytes 6 stamp, Config.freeBytes 0x05 2 activity])
  | .monitors readings => (0x07, [Config.freeBytes 0x07 0 readings])
  | .level present transition request count exhausted =>
    (0x09, [[levelCode present], Config.freeBytes 0x09 1 (decide (transition = .steady)),
      optionalField 0x09 2 (fun l => [levelCode l])
        (match transition with
          | .steady => Option.none
          | .switching target => some target),
      optionalField 0x09 3 (fun l => [levelCode l]) request, leBytes 6 count,
      Config.freeBytes 0x09 5 exhausted])
  | .calibration state step outcome runLevel channels seed tolerance results =>
    (0x0C, [Config.freeBytes 0x0C 0 state, Config.freeBytes 0x0C 1 step, Config.freeBytes 0x0C 2 outcome,
      optionalField 0x0C 3 (fun l => [levelCode l]) runLevel, leBytes 4 channels.toNat,
      Config.freeBytes 0x0C 5 (seed, tolerance, results)])
  | .pool count head tail threshold armed => (0x0E, [Config.freeBytes 0x0E 0 (count, head, tail, threshold, armed)])
  | .segment record recordFill annotationFill =>
    (0x10, [optionalField 0x10 0 (fun l => [levelCode l]) record.level, leBytes 4 record.mask.toNat,
      Config.freeBytes 0x10 2 (record, recordFill, annotationFill), optionalField 0x10 3 (leBytes 6) record.startTick,
      leBytes 6 record.firstRetainedTick, leBytes 6 record.lastTick, optionalField 0x10 6 (leBytes 6) record.triggerTick])
  | .entries state written firstRetained rotatedAway taken =>
    (0x15, Config.freeBytes 0x15 0 (state, written, firstRetained, rotatedAway, taken.length)
      :: taken.flatMap fun e => [leBytes 6 e.tick, Config.freeBytes 0x15 1 (e.sequence, e.kind, e.state)])
  | .annotations firstAnnotation stored dropped rotatedAway taken =>
    (0x16, Config.freeBytes 0x16 0 (firstAnnotation, stored, dropped, rotatedAway, taken.length)
      :: taken.flatMap fun a => [numberByte a.2.context, leBytes 6 a.2.startTick, Config.freeBytes 0x16 1 a])
  | .context report =>
    (0x1C, [Config.freeBytes 0x1C 0 report, optionalField 0x1C 1 (fun b => [b]) report.engine.armedOpcode,
      optionalField 0x1C 2 (leBytes 6) report.engine.origins.1, optionalField 0x1C 3 (leBytes 6) report.engine.origins.2])
  | .queue occupancy isOpen lost span threshold armed =>
    (0x21, [Config.freeBytes 0x21 0 (occupancy, isOpen, lost, threshold, armed),
      optionalField 0x21 1 (fun p => numberByte p.context) span, optionalField 0x21 2 (fun p => leBytes 6 p.startTick) span,
      optionalField 0x21 3 (fun p => leBytes 6 p.endTick) span])
  | .trigger state outstanding stage entryTick time lastFire counters patterns =>
    (0x26, [Config.freeBytes 0x26 0 (state, outstanding, lastFire.map (·.2), counters, patterns), numberByte stage,
      leBytes 6 entryTick, leBytes 6 time, optionalField 0x26 4 (leBytes 6) (lastFire.map (·.1))]
      ++ patterns.map fun p => optionalField 0x26 5 (leBytes 6) p.2.since)
  | .program units branches =>
    (0x27, ((everyId 16).flatMap fun i => unitBytes 0x27 0 i units[i])
      ++ (everyId 8).flatMap fun i => (everyId 4).flatMap fun j => branchBytes 0x27 2 i j branches[i][j])
  | .display staged active state pending outcome horizon annotationHorizon nextColumn =>
    (0x2A, [optionalField 0x2A 0 numberByte staged.segment, leBytes 6 staged.start,
      optionalField 0x2A 2 numberByte active.segment, leBytes 6 active.start,
      Config.freeBytes 0x2A 4 (staged.ticksPerColumn, staged.follow, active.ticksPerColumn, active.follow, state, pending,
        outcome, annotationHorizon, nextColumn),
      optionalField 0x2A 7 (leBytes 6) horizon,
      inPlace [0x2A, 5] (rowFields 0x2A 5 staged.rows), inPlace [0x2A, 6] (rowFields 0x2A 6 active.rows)])
  | .notices pending lockChange errorThreshold glitch activity =>
    (0x2B, [leBytes 2 pending.toNat, leBytes 2 lockChange.toNat, leBytes 2 errorThreshold.toNat,
      leBytes 4 glitch.toNat, leBytes 4 activity.toNat])
  | .mask masked pending => (0x2C, [leBytes 2 masked.toNat, leBytes 2 pending.toNat])
  | .identity vendor part revision pages segments contexts queueDepth =>
    (0x2D, [Config.freeBytes 0x2D 0 (vendor, part, revision, pages, segments, contexts, queueDepth)])

/-- The response data: none for a bare status, RECORDS_TAKE as R185 lays it out, and for every other request its
fields, no longer than the data length can say. -/
def ResponseData.bytes : ResponseData → List Byte
  | .none => []
  | .records isOpen occupancy lost taken =>
    [if isOpen then 0#8 else 1#8] ++ leBytes 2 occupancy ++ leBytes 4 lost ++ [BitVec.ofNat 8 taken.length]
      ++ taken.flatMap Record.encode
  | data => (inPlace [data.fields.1] data.fields.2).take 65535

/-- Table 13-2: the response from the ready marker on: status, data length, data. -/
def Response.bytes (r : Response) : List Byte :=
  [0xA5#8, r.status.code] ++ leBytes 2 r.data.bytes.length ++ r.data.bytes

/-- Table 13-2, R178, R185: byte `k` that the CQ32 returns to a host that clocks on, when the response comes after
`fillers` filler bytes: 0xFF until the response is formed and before the ready marker, then the response, then 0xFF
again. -/
def Cmd.returnedByte (c : Cmd) (fillers k : Nat) : Byte :=
  match c.response with
  | none => 0xFF#8
  | some r => (List.replicate fillers 0xFF#8 ++ r.bytes).getD k 0xFF#8

end Sys2Proof.Machine
end

