-- ==== Sys2Proof/Machine/Operands.lean ====
section
/-! DEFINITION. Machine/Operands.lean: how each request's parameters are accepted, clamped or refused (2.4): levels
(R185), front-end values (Table 1-4), segment parameters (R58), lanes and protocol settings (R82, R101, R120, R126,
R140), flash descriptors (R187), match units and branches (R153, R154), views (R167). `none` is BAD_PARAM. -/

namespace Sys2Proof.Machine

/-- R185: levels are one byte, 0 FULL, 1 ECONOMY, 2 STANDBY. -/
def levelOf (b : Byte) : Option Level :=
  match b.toNat with
  | 0 => some .full
  | 1 => some .economy
  | 2 => some .standby
  | _ => none

/-- R11, R12: a front-end context is named by FULL or ECONOMY. -/
def frontEndOf (b : Byte) : Option FrontEndId :=
  match levelOf b with
  | some .full => some .full
  | some .economy => some .economy
  | some .standby => none
  | none => none

/-- Table 1-4: deskew offsets are clamped to -8..+7. -/
def clampOffset (o : Int) : Int := max (-8) (min o 7)

/-- Table 1-4: glitch widths above 15 become 15. -/
def clampWidth (w : Nat) : Nat := min w 15

/-- R30: the seed is held in 15 bits, clamped above and 1 in place of 0. -/
def clampSeed (n : Nat) : Nat := if n = 0 then 1 else min n 32767

/-- R58: the parameters of SEGMENT_PREPARE, clamped in the rule's order. -/
def preparedSegment (mask : Lines) (budget : Nat) (target : BitVec 32) (limit annotationBudget : Nat) : Segment :=
  let b := clamp 1 32767 budget
  { state := .primed, mask, budget := b, target := target.toNat, limit := min (max limit (b + 1)) 32768,
    annotationBudget := clamp 1 64 annotationBudget }

/-! ## CONTEXT_CONFIGURE -/

/-- A lane: none, or a channel below 32 (R82). -/
def laneOf : LaneParam → Option (Option Chan)
  | none => some none
  | some b => (idOf 32 b).map some

/-- R82: a role that Table 6-4 requires must name a channel. -/
def requiredLane (p : LaneParam) : Option Chan := (laneOf p).bind id

/-- R82: no two roles of a context name the same channel. -/
def distinctLanes (l : Lanes) : Bool :=
  ([l.data, l.clock, l.out, l.select, l.inn, l.d0, l.d1, l.d2, l.d3].filterMap id).Nodup

/-- R101: ASYNC settings, clamped or refused as Table 7-1 gives. -/
def acceptAsync (p : AsyncParams) : Option AsyncSettings := do
  let parity ← p.parity
  let polarity ← p.polarity
  let mode ← p.mode
  let dataBits := clamp 5 9 p.dataBits
  let lower := clamp Config.periodMin Config.periodMax p.lower
  let upper := clamp Config.periodMin Config.periodMax p.upper
  if upper < lower then none
  else
    let filterOk :=
      match p.filterAddress with
      | none => true
      | some a => p.addressMark && decide (a < 2 ^ dataBits)
    if filterOk then
      some { dataBits, parity, stopBits := clamp 1 2 p.stopBits, polarity, addressMark := p.addressMark,
             filterAddress := p.filterAddress, idleLength := clamp 1 255 p.idleLength, mode,
             nominal := clamp Config.periodMin Config.periodMax p.nominal, lower, upper }
    else none

/-- R120: CLOCKED settings, clamped or refused as Table 8-1 gives. -/
def acceptClocked (p : ClockedParams) : Option ClockedSettings := do
  let edge ← p.edge
  let selectPolarity ← p.selectPolarity
  let bitOrder ← p.bitOrder
  let idleLevel ← p.idleLevel
  some { edge, selectPolarity, wordLength := clamp 4 32 p.wordLength, bitOrder, idleLevel,
         gapTimeout := clamp 1 16777215 p.gapTimeout }

/-- R126: FLASH settings, clamped or refused as Table 8-4 gives. -/
def acceptFlash (p : FlashParams) : Option FlashSettings := do
  let set ← p.set
  if p.busyBit ≤ 7 ∧ p.enableBit ≤ 7 then
    some { set, pageExponent := clamp 4 12 p.pageExponent, busyBit := p.busyBit, enableBit := p.enableBit }
  else none

/-- Table 9-1: a filter entry, address and mask 0..127. -/
def filterEntry (e : Nat × Nat) : Option (BitVec 7 × BitVec 7) :=
  if e.1 ≤ 127 ∧ e.2 ≤ 127 then some (BitVec.ofNat 7 e.1, BitVec.ofNat 7 e.2) else none

/-- Table 9-1: the filter entries in the order given; none when one is refused. -/
def filterEntries : List (Nat × Nat) → Option (List (BitVec 7 × BitVec 7))
  | [] => some []
  | e :: es =>
    match filterEntry e, filterEntries es with
    | some x, some xs => some (x :: xs)
    | _, _ => none

/-- R140: TWO_WIRE settings, clamped or refused as Table 9-1 gives. -/
def acceptTwoWire (p : TwoWireParams) : Option TwoWireSettings :=
  if p.filter.length > 4 then none
  else
    (filterEntries p.filter).map fun filter =>
      { filter, clockLow := clamp 1 16777215 p.clockLow, stretchLimit := min p.stretchLimit (2 ^ 32 - 1),
        stuckLimit := clamp 1 (2 ^ 32 - 1) p.stuckLimit, busFree := clamp 1 16777215 p.busFree }

/-- What a CONTEXT_CONFIGURE that is taken puts into the context: protocol and lanes, and one protocol's settings. -/
structure Configured where
  protocol : Protocol
  lanes : Lanes
  async : Option AsyncSettings := none
  clocked : Option ClockedSettings := none
  flash : Option FlashSettings := none
  twoWire : Option TwoWireSettings := none
deriving DecidableEq, Repr

/-- R82, Table 6-4: protocol, roles and settings accepted together, or refused. -/
def acceptProtocol : ProtocolParams → Option Configured
  | .async data settings => do
    let data ← requiredLane data
    let s ← acceptAsync settings
    some { protocol := .async, lanes := { data := some data }, async := some s }
  | .clocked clock out select inn settings => do
    let clock ← requiredLane clock
    let out ← requiredLane out
    let select ← laneOf select
    let inn ← laneOf inn
    let s ← acceptClocked settings
    let lanes : Lanes := { clock := some clock, out := some out, select, inn }
    if distinctLanes lanes then some { protocol := .clocked, lanes, clocked := some s } else none
  | .flash clock select d0 d1 d2 d3 settings => do
    let clock ← requiredLane clock
    let select ← requiredLane select
    let d0 ← requiredLane d0
    let d1 ← requiredLane d1
    let d2 ← laneOf d2
    let d3 ← laneOf d3
    let s ← acceptFlash settings
    let lanes : Lanes := { clock := some clock, select := some select, d0 := some d0, d1 := some d1, d2, d3 }
    if distinctLanes lanes then some { protocol := .flash, lanes, flash := some s } else none
  | .twoWire clock data settings => do
    let clock ← requiredLane clock
    let data ← requiredLane data
    let s ← acceptTwoWire settings
    let lanes : Lanes := { clock := some clock, data := some data }
    if distinctLanes lanes then some { protocol := .twoWire, lanes, twoWire := some s } else none
  | .unknown => none

/-! ## FLASH_SET_LOAD (R127, R187) -/

/-- Lane widths 1, 2 and 4 (Table 13-7). -/
def laneWidth (b : Byte) : Option Nat :=
  if b.toNat = 1 ∨ b.toNat = 2 ∨ b.toNat = 4 then some b.toNat else none

/-- Address bytes 0, 3 and 4 (Table 13-7). -/
def addressSize (b : Byte) : Option Nat :=
  if b.toNat = 0 ∨ b.toNat = 3 ∨ b.toNat = 4 then some b.toNat else none

/-- Data direction byte (Table 13-7). -/
def directionOf (b : Byte) : Option DataDirection :=
  match b.toNat with
  | 0 => some .none
  | 1 => some .fromTarget
  | 2 => some .toTarget
  | _ => none

/-- Table 13-7: one descriptor from its 8 bytes. -/
def descriptorOf : List Byte → Option Descriptor
  | [opcode, ab, aw, mode, dummy, dir, dw, effect] => do
    let addressBytes ← addressSize ab
    let addressWidth ← laneWidth aw
    let direction ← directionOf dir
    let dataWidth ← laneWidth dw
    let effect ← effectOfCode effect.toNat
    if dummy.toNat ≤ 15 then
      some { opcode, addressBytes, addressWidth, hasMode := mode.getLsbD 0, continueCode := mode.extractLsb' 4 4,
             dummy := dummy.toNat, direction, dataWidth, effect }
    else none
  | _ => none

/-- `n` descriptors from the parameter bytes, in the order given. -/
def descriptorsOf : Nat → List Byte → Option (List Descriptor)
  | 0, _ => some []
  | n + 1, bs =>
    match descriptorOf (bs.take 8), descriptorsOf n (bs.drop 8) with
    | some d, some ds => some (d :: ds)
    | _, _ => none

/-- R187: the set and the descriptors of FLASH_SET_LOAD, refused as R127 states its first two cases. -/
def flashLoadOf (params : List Byte) : Option (SetName × List Descriptor) :=
  match params with
  | set :: count :: rest =>
    let name : Option SetName := if set = 0#8 then some .a else if set = 1#8 then some .b else none
    match name with
    | none => none
    | some name =>
      if count.toNat > 32 ∨ rest.length < 8 * count.toNat then none
      else
        match descriptorsOf count.toNat rest with
        | none => none
        | some ds => if (ds.map (·.opcode)).Nodup then some (name, ds) else none
  | _ => none

/-! ## Trigger programming (R153, R154) -/

/-- R153: a match unit's kind and settings, or a refusal; an ELAPSED time of 0 is raised to 1. -/
def acceptUnit : UnitParams → Option MatchUnit
  | .disabled => some .disabled
  | .edge channel direction => do
    let c ← idOf 32 channel
    let d ← direction
    some (.edge c d)
  | .pattern mask value hold => some (.pattern mask value hold.toNat)
  | .activity channel direction => do
    let c ← idOf 32 channel
    let d ← direction
    some (.activity c d)
  | .record .any compare => some (.record none compare)
  | .record (.id n) compare => (idOf 16 n).map fun c => .record (some c) compare
  | .elapsed time => some (.elapsed (max time.toNat 1))
  | .unknown => none

/-- R154: a branch's fields, or a refusal; a count target of 0 is raised to 1. -/
def acceptBranch (p : BranchParams) : Option Branch := do
  let unit ← idOf 16 p.unit
  let next ← idOf 8 p.next
  some { enabled := p.enabled, unit, target := max p.target.toNat 1, next, fire := p.fire, notice := p.notice }

/-! ## VIEW_SET (R167) -/

/-- One row of a view. -/
def acceptRow : RowParam → Option Row
  | .channel n => (idOf 32 n).map .channel
  | .annotation n => (idOf 16 n).map .annotation

/-- The rows of a view; none when one is refused. -/
def rowsOf : List RowParam → Option (List Row)
  | [] => some []
  | r :: rs =>
    match acceptRow r, rowsOf rs with
    | some x, some xs => some (x :: xs)
    | _, _ => none

/-- A view's segment: none, or a segment below 8. -/
def viewSegment : Option Byte → Option (Option SegId)
  | none => some none
  | some b => (idOf 8 b).map some

/-- R167: the fields of VIEW_SET, clamped or refused as Table 11-2 gives. -/
def acceptView (p : ViewParams) : Option View := do
  let segment ← viewSegment p.segment
  let rows ← rowsOf p.rows
  if rows.length ≤ 12 then
    some { segment, start := min p.start Config.tickMax, ticksPerColumn := clamp 1 (2 ^ 32 - 1) p.ticksPerColumn,
           follow := p.follow, rows }
  else none

end Sys2Proof.Machine
end

