-- ==== Sys2Proof/Machine/Trigger.lean ====
section
/-! DEFINITION. Machine/Trigger.lean: the trigger sequencer (chapter 10): matching, the evaluation of an event against
the current stage, the sample event, and the requests of Table 12-2 that TRG owns. -/

namespace Sys2Proof.Machine

/-! ## Events CAP causes (R152) -/

/-- All branch counters 0. -/
def zeroCounters : Vector (Vector Nat 4) 8 := Vector.replicate 8 (Vector.replicate 4 0)

/-- R152: SEGMENT_START sets the sequencer RUNNING at stage 0; time and entry tick are the segment's start tick. -/
def Trg.start (t : Trg) (tick : Nat) : Trg :=
  { t with state := .running, outstanding := false, stage := 0, entryTick := tick, time := tick,
           patterns := Vector.replicate 16 {}, counters := zeroCounters, raiseDue := [] }

/-- R152: a seal decision or an abort sets it IDLE; stage, counters and last fire are kept. -/
def Trg.halt (t : Trg) : Trg := { t with state := .idle, outstanding := false, raiseDue := [] }

/-- R152: the acceptance of a fire sets it DONE. -/
def Trg.finish (t : Trg) : Trg := { t with state := .done, outstanding := false, raiseDue := [] }

/-- R152: RESET keeps the programming and nothing else. -/
def Trg.softReset (t : Trg) : Trg := { Trg.reset with units := t.units, branches := t.branches }

/-- The sequencer evaluates events: RUNNING with no fire outstanding (R155). -/
def Trg.evaluates (t : Trg) : Bool := t.state == .running && !t.outstanding

/-! ## Matching (R156 to R159) -/

/-- What a sample event carries (R155). -/
structure SampleEvent where
  lines : Lines
  changed : Lines
  activity : List (Chan × Activity)
  raised : List UnitId

/-- R156, R157: a unit matches a sample event. -/
def MatchUnit.matchesSample (u : MatchUnit) (i : UnitId) (ev : SampleEvent) : Bool :=
  match u with
  | .edge ch direction =>
    inSet ev.changed ch.val &&
      match direction with
      | .rising => inSet ev.lines ch.val
      | .falling => !inSet ev.lines ch.val
      | .any => true
  | .activity ch direction =>
    ev.activity.any fun a => decide (a.1 = ch ∧ a.2 = (match direction with
      | .toActive => Activity.active
      | .toQuiet => Activity.quiet))
  | .pattern .. => ev.raised.contains i
  | .disabled | .record .. | .elapsed _ => false

/-- R158: one payload byte position compares: a mask byte of 0 passes, and a position at or beyond the payload length
fails any other mask. -/
def payloadByteMatches (r : Record) (value mask : Byte) (position : Nat) : Bool :=
  mask == 0#8 || (decide (position < r.length) && (r.head.getD position 0#8 &&& mask) == (value &&& mask))

/-- R158: a two-wire address is compared in the mask's low seven bits. -/
def addressCompareMask (mask : BitVec 32) (kind : RecordKind) : BitVec 32 :=
  if kind = .message then mask &&& 127#32 else mask

/-- R158: the compares of a RECORD unit. -/
def recordPasses (c : RecordCompare) (r : Record) : Bool :=
  inSet c.kinds (recordKindCode r.kind)
    && (c.flagsAny == 0#32 || (r.flags &&& c.flagsAny) != 0#32)
    && (r.flags &&& c.flagsAll) == c.flagsAll
    && (everyId 4).all (fun p => payloadByteMatches r c.payloadValue[p] c.payloadMask[p] p.val)
    && (c.addressMask == 0#32 ||
        match r.address with
        | some a =>
          let mask := addressCompareMask c.addressMask r.kind
          (BitVec.ofNat 32 a &&& mask) == (c.addressValue &&& mask)
        | none => false)

/-- R158: a unit matches a record event. -/
def MatchUnit.matchesRecord (u : MatchUnit) (r : Record) : Bool :=
  match u with
  | .record context compare =>
    (match context with
      | none => true
      | some c => decide (c = r.context)) && recordPasses compare r
  | .disabled | .edge .. | .pattern .. | .activity .. | .elapsed _ => false

/-- R159: an ELAPSED unit is reached at a sample stamped `stamp` when the sample before it, at `previous`, was
earlier than entry tick + N. -/
def MatchUnit.reachedAt (u : MatchUnit) (entry previous stamp : Nat) : Bool :=
  match u with
  | .elapsed n => decide (previous < entry + n ∧ entry + n ≤ stamp)
  | .disabled | .edge .. | .pattern .. | .activity .. | .record .. => false

/-! ## Branches (R160, R161) -/

/-- R160: the visit of branches in order: the counters after it and the branch taken, if one is. -/
def visitBranches (branches : Vector Branch 4) (matched : UnitId → Bool) :
    List BranchId → Vector Nat 4 → Vector Nat 4 × Option Branch
  | [], counters => (counters, none)
  | b :: rest, counters =>
    if branches[b].enabled && matched branches[b].unit then
      if counters[b] + 1 = branches[b].target then (counters, some branches[b])
      else visitBranches branches matched rest (counters.set b (counters[b] + 1))
    else visitBranches branches matched rest counters

/-- R161, R163: a fire is sent to CAP: outstanding is set and the tick is the last fire sent. -/
def State.sendFire (s : State) (tick : Nat) (forced : Bool) : State :=
  (s.setTrg { s.trg with outstanding := true, lastFire := some (tick, forced) }).setCap
    { s.cap with fires := s.cap.fires ++ [⟨tick, forced, true⟩] }

/-- R161: the actions of a taken branch, in an event with the given event tick. -/
def State.branchActions (s : State) (b : Branch) (tick : Nat) : State :=
  let s := if b.notice then s.raise .triggerStage else s
  if b.fire then s.sendFire tick false else s

/-- R160: every counter 0, the next stage entered, its entry tick the sequencer time. -/
def Trg.enterStage (t : Trg) (next : StageId) : Trg :=
  { t with counters := zeroCounters, stage := next, entryTick := t.time }

/-- R160: one event evaluated against the current stage. -/
def State.evaluate (s : State) (matched : UnitId → Bool) (tick : Nat) : State :=
  match visitBranches s.trg.branches[s.trg.stage] matched (everyId 4) s.trg.counters[s.trg.stage] with
  | (counters, none) => s.setTrg { s.trg with counters := s.trg.counters.set s.trg.stage counters }
  | (_, some b) => (s.setTrg (s.trg.enterStage b.next)).branchActions b tick

/-! ## The sample event (R155, R157, R159) -/

/-- R157: a PATTERN unit's state after a sample. DESIGN CHOICE (assumption log 51): no match-since out of match. -/
def MatchUnit.patternAt (u : MatchUnit) (p : PatternState) (lines : Lines) (stamp : Nat) : PatternState :=
  match u with
  | .pattern mask value hold =>
    if (lines &&& mask) = (value &&& mask) then
      { since := some (p.since.getD stamp), raised := p.raised || decide (p.since.getD stamp + hold ≤ stamp) }
    else {}
  | .disabled | .edge .. | .activity .. | .record .. | .elapsed _ => p

/-- R155, R159: the sequencer time set to the sample's stamp, then the stage timer examined; an expiry is an event. -/
def State.stageTimerAt (s : State) (stamp : Nat) : State :=
  let previous := s.trg.time
  let entry := s.trg.entryTick
  let s := s.setTrg { s.trg with time := stamp }
  if (everyId 16).any fun i => s.trg.units[i].reachedAt entry previous stamp then
    s.evaluate (fun i => s.trg.units[i].reachedAt entry previous stamp) stamp
  else s

/-- R157: the PATTERN units brought to a sample, and those that raise at it (with those a PATTERN_HOLD_EXPIRY step
raised ahead of it). -/
def Trg.patternsAt (t : Trg) (lines : Lines) (stamp : Nat) : Trg × List UnitId :=
  let next := mapIds t.patterns fun i p => t.units[i].patternAt p lines stamp
  ({ t with patterns := next, raiseDue := [] },
    (everyId 16).filter fun i => t.raiseDue.contains i || (next[i].raised && !t.patterns[i].raised))

/-- R155: a conditioned sample taken by the sequencer. -/
def State.triggerSample (s : State) (stamp : Nat) (lines changed : Lines) (activity : List (Chan × Activity)) : State :=
  if s.trg.state = .running then
    if s.trg.outstanding then s.setTrg { s.trg with time := stamp, raiseDue := [] }
    else
      let s := s.stageTimerAt stamp
      if s.trg.outstanding then s.setTrg { s.trg with raiseDue := [] }
      else
        let (t, raised) := s.trg.patternsAt lines stamp
        let s := s.setTrg t
        s.evaluate (fun i => s.trg.units[i].matchesSample i ⟨lines, changed, activity, raised⟩) stamp
  else s

/-- R155, R158: a record delivered to the sequencer; its event tick is the record's end tick. -/
def State.triggerRecord (s : State) (r : Record) : State :=
  if s.trg.evaluates then s.evaluate (fun i => s.trg.units[i].matchesRecord r) r.endTick else s

/-! ## Requests -/

/-- R153. DESIGN CHOICE (assumption log 50): BUSY is tested before the parameters. -/
def bodyMatchUnitSet (unit : Byte) (params : UnitParams) (s : State) : State × Response :=
  if s.trg.state = .running then answer .busy s
  else
    match idOf 16 unit, acceptUnit params with
    | some i, some u =>
      (s.setTrg { s.trg with units := s.trg.units.set i u, patterns := s.trg.patterns.set i {} }, .only .ok)
    | _, _ => answer .badParam s

/-- R154. DESIGN CHOICE (assumption log 50): BUSY is tested before the parameters. -/
def bodyBranchSet (stage branch : Byte) (params : BranchParams) (s : State) : State × Response :=
  if s.trg.state = .running then answer .busy s
  else
    match idOf 8 stage, idOf 4 branch, acceptBranch params with
    | some i, some j, some b =>
      (s.setTrg { s.trg with branches := modifyId s.trg.branches i (·.set j b),
                             counters := modifyId s.trg.counters i (·.set j 0) }, .only .ok)
    | _, _, _ => answer .badParam s

/-- R163. -/
def bodyTriggerForce (s : State) : State × Response :=
  if s.trg.state = .running then (s.sendFire s.lvl.count true, .only .accepted) else answer .wrongState s

/-- R164: the pattern states of the PATTERN units. -/
def Trg.patternReport (t : Trg) : List (UnitId × PatternState) :=
  (everyId 16).filterMap fun i =>
    match t.units[i] with
    | .pattern .. => some (i, t.patterns[i])
    | .disabled | .edge .. | .activity .. | .record .. | .elapsed _ => none

/-- R164. -/
def bodyTriggerStatus (s : State) : State × Response :=
  tell (.trigger s.trg.state s.trg.outstanding s.trg.stage s.trg.entryTick s.trg.time s.trg.lastFire s.trg.counters
    s.trg.patternReport) s

/-- MATCH_UNIT_SET (R153). -/
def execMatchUnitSet (fit : Fit) (unit : Byte) (params : UnitParams) (s : State) : Host.Outcome State Fault Refusal :=
  done (request false fit (bodyMatchUnitSet unit params) s)

/-- BRANCH_SET (R154). -/
def execBranchSet (fit : Fit) (stage branch : Byte) (params : BranchParams) (s : State) :
    Host.Outcome State Fault Refusal :=
  done (request false fit (bodyBranchSet stage branch params) s)

/-- TRIGGER_FORCE (R163). -/
def execTriggerForce (s : State) : Host.Outcome State Fault Refusal :=
  done (request false .enough bodyTriggerForce s)

/-- TRIGGER_STATUS (R164). -/
def execTriggerStatus (s : State) : Host.Outcome State Fault Refusal :=
  done (request false .enough bodyTriggerStatus s)

/-- TRIGGER_PROGRAM_READ (R164). -/
def execTriggerProgramRead (s : State) : Host.Outcome State Fault Refusal :=
  done (request false .enough (fun s => tell (.program s.trg.units s.trg.branches) s) s)

end Sys2Proof.Machine
end

