-- ==== Sys2Proof/Machine/CaptureMemory.lean ====
section
/-! DEFINITION. Machine/CaptureMemory.lean: capture memory (chapter 4): the page map and the free pool, what CAP serves
from the staging FIFOs and DRAM, the retained entries and annotations of a segment, the pool's requests. -/

namespace Sys2Proof.Machine

/-! ## The free pool and the chains (R43 to R46) -/

/-- R46: the pool count compared with its threshold: a falling crossing while armed raises POOL_LOW and disarms; at or
above the threshold the flag is set. -/
def State.checkPool (s : State) : State :=
  if s.cap.pool.count < s.cap.poolThreshold then
    if s.cap.poolArmed then (s.setCap { s.cap with poolArmed := false }).raise .poolLow else s
  else s.setCap { s.cap with poolArmed := true }

/-- R44: a page linked after a chain's tail, with its owner; its next becomes none. -/
def linkPage (m : PageMap) (c : Chain) (p : Nat) (owner : PageOwner) : PageMap × Chain :=
  let m := PageMap.set m p ⟨owner, none⟩
  match c.tail with
  | some t => (PageMap.setNext m t (some p), ⟨c.head, some p, c.count + 1⟩)
  | none => (m, ⟨some p, some p, c.count + 1⟩)

/-- R44: the pool's head page taken; none with an empty pool. -/
def takePage (m : PageMap) (pool : Chain) : Option (Nat × Chain) :=
  if pool.count = 0 then none
  else
    match pool.head with
    | none => none
    | some p =>
      some (p, if pool.count = 1 then {} else ⟨(PageMap.get m p).next, pool.tail, pool.count - 1⟩)

/-- R44: an allocation of one page to a chain; none when the pool is empty. POOL_LOW is tested (R46). -/
def State.allocate (s : State) (owner : PageOwner) (c : Chain) : Option (State × Chain) :=
  match takePage s.cap.pages s.cap.pool with
  | none => none
  | some (p, pool) =>
    let (pages, chain) := linkPage s.cap.pages c p owner
    some ((s.setCap { s.cap with pages := pages, pool := pool }).checkPool, chain)

/-- The pages of a chain in chain order (R43). -/
def chainPages (m : PageMap) : Nat → Option Nat → List Nat
  | 0, _ => []
  | _, none => []
  | n + 1, some p => p :: chainPages m n (PageMap.get m p).next

/-- Every page of a list given an owner. -/
def ownPages (m : PageMap) (owner : PageOwner) : List Nat → PageMap
  | [] => m
  | p :: ps => ownPages (PageMap.setOwner m p owner) owner ps

/-- R45: a whole chain returned to the pool's tail in chain order; an empty chain changes nothing. -/
def State.release (s : State) (c : Chain) : State :=
  match c.head, c.tail with
  | some h, some t =>
    let freed := ownPages s.cap.pages .free (chainPages s.cap.pages c.count c.head)
    let ended := PageMap.setNext freed t none
    let linked :=
      match s.cap.pool.tail with
      | some pt => PageMap.setNext ended pt (some h)
      | none => ended
    let head :=
      match s.cap.pool.tail with
      | some _ => s.cap.pool.head
      | none => some h
    (s.setCap { s.cap with pages := linked, pool := ⟨head, some t, s.cap.pool.count + c.count⟩ }).checkPool
  | _, _ => s

/-- R45, R63: the head page of a chain reused as its tail; a single page stays where it is. -/
def rotateChain (m : PageMap) (c : Chain) : PageMap × Chain :=
  if c.count < 2 then (m, c)
  else
    match c.head, c.tail with
    | some h, some t =>
      let next := (PageMap.get m h).next
      (PageMap.setNext (PageMap.setNext m h none) t (some h), ⟨next, some h, c.count⟩)
    | _, _ => (m, c)

/-! ## What CAP serves (R52) -/

/-- A staged transition entry written to its page, its header before it. -/
def StagedEntry.writeTo (e : StagedEntry) (m : Memory) : Memory :=
  let m :=
    match e.header with
    | some h => Memory.writeBytes m (headerAddress e.page) h.encode
    | none => m
  Memory.writeBytes m (entryAddress e.page e.slot) e.entry.encode

/-- A staged annotation written to its page. -/
def StagedAnnotation.writeTo (a : StagedAnnotation) (m : Memory) : Memory :=
  Memory.writeBytes m (annotationAddress a.page a.slot) a.annotation.encode

/-- R52: what CAP serves: DRAM under the staged writes, in staging order. -/
def Cap.served (c : Cap) : Memory :=
  c.stagedAnnotations.foldl (fun m a => a.writeTo m) (c.staged.foldl (fun m e => e.writeTo m) c.dram)

/-- The header CAP serves for a record page. -/
def servedHeader (m : Memory) (page : Nat) : PageHeader :=
  PageHeader.decode (Memory.readBytes m (headerAddress page) 16)

/-- The entry CAP serves for a slot. -/
def servedEntry (m : Memory) (page slot : Nat) : Entry :=
  Entry.decode (Memory.readBytes m (entryAddress page slot) 8)

/-- The annotation CAP serves for a slot. -/
def servedAnnotation (m : Memory) (page slot : Nat) : Annotation :=
  Annotation.decode (Memory.readBytes m (annotationAddress page slot) 16)

/-! ## Retained data (R47, R48, R63, R64) -/

/-- R48: the entry tick that follows from the tick before it. -/
def entryTick (previous : Nat) (e : Entry) : Nat :=
  match e.kind with
  | .start => 0
  | .change => previous + e.delta
  | .extend => previous + e.delta * Config.extendBlock
  | .dropout => previous + e.delta

/-- R47: the fill of the tail record page: entry n lies in slot n mod 510. -/
def Segment.recordFill (g : Segment) : Nat :=
  if g.records.count = 0 ∨ g.written = 0 then 0 else (g.written - 1) % Config.entriesPerPage + 1

/-- R55: the fill of the tail annotation page. -/
def Segment.annotationFill (g : Segment) : Nat :=
  if g.annotations.count = 0 ∨ g.annotationsStored = 0 then 0
  else (g.annotationsStored - 1) % Config.annotationsPerPage + 1

/-- The entries of consecutive slots of a page, from a tick and a sequence number on (R48). -/
def slotEntries (m : Memory) (page : Nat) : Nat → Nat → Nat → Nat → List ReadEntry
  | 0, _, _, _ => []
  | n + 1, slot, sequence, tick =>
    let e := servedEntry m page slot
    let t := entryTick tick e
    ⟨sequence, e.kind, e.state, t⟩ :: slotEntries m page n (slot + 1) (sequence + 1) t

/-- The entries of the pages of a record chain, the tail page with its fill (R63). -/
def pageEntries (m : Memory) (fill : Nat) : List Nat → Nat → List ReadEntry
  | [], _ => []
  | [p], sequence => slotEntries m p fill 0 sequence (servedHeader m p).baseTick
  | p :: q :: ps, sequence =>
    slotEntries m p Config.entriesPerPage 0 sequence (servedHeader m p).baseTick
      ++ pageEntries m fill (q :: ps) (sequence + Config.entriesPerPage)

/-- The retained entries of a segment in sequence order, as CAP serves them. -/
def Cap.retainedEntries (c : Cap) (g : Segment) : List ReadEntry :=
  pageEntries c.served g.recordFill (chainPages c.pages g.records.count g.records.head) g.firstRetained

/-- The annotation with an absolute index, as CAP serves it (R55: slot i mod 256 of its page). -/
def Cap.annotationAt (c : Cap) (g : Segment) (index : Nat) : Option Annotation :=
  ((chainPages c.pages g.annotations.count g.annotations.head)[
      (index - g.firstAnnotation) / Config.annotationsPerPage]?).map fun p =>
    servedAnnotation c.served p (index % Config.annotationsPerPage)

/-- The retained annotations with indices in `first..last - 1`, in index order. -/
def Cap.retainedAnnotations (c : Cap) (g : Segment) (last : Nat) : List (Nat × Annotation) :=
  (List.range (last - g.firstAnnotation)).filterMap fun i =>
    (c.annotationAt g (g.firstAnnotation + i)).map fun a => (g.firstAnnotation + i, a)

/-! ## The DRAM's condition (R27, R28) -/

/-- R27, R71: once no staged write and no read is in flight, an entry into self-refresh is made. -/
def State.settlePort (s : State) : State :=
  if s.cap.port = .entering ∧ s.cap.staged = [] ∧ s.cap.stagedAnnotations = [] ∧ s.cap.read = none
      ∧ s.dsp.state ≠ .reading then
    s.setCap { s.cap with port := .selfRefresh }
  else s

/-! ## Requests of the pool (R46) -/

/-- R46. -/
def bodyPoolThresholdSet (threshold : Nat) (s : State) : State × Response :=
  ((s.setCap { s.cap with poolThreshold := min threshold Config.pageCount }).checkPool, .only .ok)

/-- R46. -/
def bodyPoolStatus (s : State) : State × Response :=
  tell (.pool s.cap.pool.count s.cap.pool.head s.cap.pool.tail s.cap.poolThreshold s.cap.poolArmed) s

/-- POOL_THRESHOLD_SET (R46). -/
def execPoolThresholdSet (fit : Fit) (threshold : Nat) (s : State) : Host.Outcome State Fault Refusal :=
  done (request false fit (bodyPoolThresholdSet threshold) s)

/-- POOL_STATUS (R46). -/
def execPoolStatus (s : State) : Host.Outcome State Fault Refusal := done (request false .enough bodyPoolStatus s)

end Sys2Proof.Machine
end

