-- ==== Sys2Proof/Machine/Segments.lean ====
section
/-! DEFINITION. Machine/Segments.lean: the segment lifecycle (chapter 5): page requests, the transition encoder (4.4),
the annotation writer (4.6), fire acceptance, seals, pins and retirement, drain completions, reads. The level
controller's part in the end of a capture (R25) is in Machine/Sampling.lean. -/

namespace Sys2Proof.Machine

/-- 32-bit saturating count. -/
abbrev bump32 (n : Nat) : Nat := bump (2 ^ 32 - 1) n

/-! ## Page requests (R62 to R64, R68, R69) -/

/-- The answer to a page request. -/
inductive PageAnswer where
  | allocate
  | rotate
  | refuse (reason : SealReason)
deriving DecidableEq, Repr

/-- R62: a request of a chain that may rotate, against its budget. -/
def rotatingAnswer (chain : Chain) (budget poolCount : Nat) : PageAnswer :=
  if chain.count < budget ∧ poolCount ≠ 0 then .allocate
  else if budget ≤ chain.count then .rotate
  else if 2 ≤ chain.count then .rotate
  else .refuse .poolExhausted

/-- R68, R69: a request of a chain that grows and does not rotate, against its limit. -/
def growingAnswer (chain : Chain) (limit poolCount : Nat) : PageAnswer :=
  if limit ≤ chain.count then .refuse .limitReached
  else if poolCount = 0 then .refuse .poolExhausted
  else .allocate

/-- The answer to a page request for the record chain of a capturing segment (R62, R68). -/
def Segment.recordAnswer (g : Segment) (poolCount : Nat) : PageAnswer :=
  match g.state with
  | .preTrigger => rotatingAnswer g.records g.budget poolCount
  | .vacant | .primed | .postTrigger | .sealed | .retiring => growingAnswer g.records g.limit poolCount

/-- The answer to a page request for the annotation chain of a capturing segment (R64, R69). -/
def Segment.annotationAnswer (g : Segment) (poolCount : Nat) : PageAnswer :=
  match g.state with
  | .preTrigger => rotatingAnswer g.annotations g.annotationBudget poolCount
  | .vacant | .primed | .postTrigger | .sealed | .retiring => growingAnswer g.annotations g.annotationBudget poolCount

/-! ## Storing entries (R47, R51, R62, R63, R67) -/

/-- R44, R62, R63: a granted page request for the record chain: the tail page is new. After a rotation the first
retained tick is the base tick of the page then at the head, which for a single page is the new header's. -/
def State.openRecordPage (s : State) (id : SegId) : State :=
  let g := s.segment id
  match g.recordAnswer s.cap.pool.count with
  | .allocate =>
    match s.allocate (.records id) g.records with
    | some (s, chain) => s.setSegment id { s.segment id with records := chain }
    | none => s
  | .rotate =>
    let (pages, chain) := rotateChain s.cap.pages g.records
    let firstTick :=
      match chain.head with
      | some h => if chain.count < 2 then s.cap.encoder.lastTick else (servedHeader s.cap.served h).baseTick
      | none => s.cap.encoder.lastTick
    (s.setCap { s.cap with pages := pages }).setSegment id
      { g with records := chain, firstRetained := g.firstRetained + Config.entriesPerPage,
               firstRetainedTick := firstTick }
  | .refuse _ => s

/-- R67: the post-trigger count after an entry with this kind and tick is stored. -/
def Segment.countedAfter (g : Segment) (kind : EntryKind) (tick : Nat) : Nat :=
  match g.state, g.triggerTick, kind with
  | .postTrigger, some t, .change => if t ≤ tick then bump32 g.postCount else g.postCount
  | .postTrigger, some t, .dropout => if t ≤ tick then bump32 g.postCount else g.postCount
  | _, _, _ => g.postCount

/-- R51: one entry stored in the segment's tail page, staged with the header of a page it opens (R47). -/
def State.placeEntry (s : State) (id : SegId) (e : Entry) : State :=
  let opens := (s.segment id).recordFill = Config.entriesPerPage
  let header := if opens then some ⟨s.cap.encoder.lastTick, s.cap.encoder.lastState⟩ else none
  let s := if opens then s.openRecordPage id else s
  let g := s.segment id
  let tick := entryTick s.cap.encoder.lastTick e
  let staged : StagedEntry := ⟨g.records.tail.getD 0, g.written % Config.entriesPerPage, e, header⟩
  (s.setCap { s.cap with staged := s.cap.staged ++ [staged],
                         encoder := { s.cap.encoder with lastTick := tick, lastState := e.state } }).setSegment id
    { g with written := g.written + 1, lastTick := tick, postCount := g.countedAfter e.kind tick }

/-! ## Seals (R70, R71, R77) -/

/-- R45, R57: both chains released, the record chain first, and the record VACANT. -/
def State.vacate (s : State) (id : SegId) : State :=
  let g := s.segment id
  ((s.release g.records).release g.annotations).setSegment id {}

/-- R77: a deferred retire completes. -/
def State.retireNow (s : State) (id : SegId) : State := (s.vacate id).raise .segmentRetired

/-- R71, R77: the seal completion. -/
def State.completeSeal (s : State) (id : SegId) : State :=
  let s := (s.setSegment id { s.segment id with drainPending := false }).raise .segmentSealed
  if (s.segment id).retirePending then
    if (s.segment id).pins = 0 then s.retireNow id
    else s.setSegment id { s.segment id with state := .retiring }
  else s

/-- R54: the encoder stopped; a dropout in progress counts one episode more. -/
def State.stopEncoder (s : State) (id : SegId) : State :=
  let dropping :=
    match s.cap.encoder.state with
    | .dropping _ => true
    | .idle | .encoding _ => false
  let g := s.segment id
  (s.setCap { s.cap with encoder := { s.cap.encoder with state := .idle } }).setSegment id
    { g with dropouts := if dropping then bump32 g.dropouts else g.dropouts }

/-- R70: a seal decision for the capturing segment. The end-of-capture signal to LVL (its fourth effect) is sent by
the command in whose event the decision falls (Machine/Sampling.lean). -/
def State.sealSegment (s : State) (id : SegId) (reason : SealReason) : State :=
  let s := s.stopEncoder id
  let s := s.setSegment id { s.segment id with state := .sealed, sealReason := some reason }
  let s := s.setTrg s.trg.halt
  if s.cap.staged = [] ∧ s.cap.stagedAnnotations = [] then s.completeSeal id
  else s.setSegment id { s.segment id with drainPending := true }

/-! ## The transition encoder (R50, R51, R53) -/

/-- R50, R53: the entries formed for an interval of `d` ticks: an EXTEND before the last when d is 2^24 or more. -/
def formedEntries (kind : EntryKind) (d : Nat) (lastState state : Lines) : List Entry :=
  if d < Config.extendBlock then [⟨kind, d, state⟩]
  else [⟨.extend, d / Config.extendBlock, lastState⟩, ⟨kind, d % Config.extendBlock, state⟩]

/-- R51: the entries of one sample stored together; a refused page request seals the segment with nothing stored;
reaching the target seals it after the store (R67). The flag says that the entries were stored. DESIGN CHOICE
(assumption log 38): an encoder whose DROPOUT is refused its page is still DROPPING at that seal. -/
def State.storeEntries (s : State) (id : SegId) (entries : List Entry) : State × Bool :=
  let g := s.segment id
  let needsPage := Config.entriesPerPage < g.recordFill + entries.length
  let refusal :=
    match g.recordAnswer s.cap.pool.count with
    | .refuse reason => if needsPage then some reason else none
    | .allocate | .rotate => none
  match refusal with
  | some reason => (s.sealSegment id reason, false)
  | none => (entries.foldl (fun s e => s.placeEntry id e) s, true)

/-- R67: the seal that reaching the target makes. -/
def State.sealIfComplete (s : State) (id : SegId) : State :=
  let g := s.segment id
  if g.state = .postTrigger ∧ g.target ≤ g.postCount then s.sealSegment id .complete else s

/-- R49 to R53: a conditioned sample taken by the encoder. -/
def State.encodeSample (s : State) (stamp : Nat) (lines : Lines) : State :=
  match s.cap.encoder.state with
  | .idle => s
  | .encoding id =>
    let g := s.segment id
    let state := lines &&& g.mask
    if state = s.cap.encoder.lastState then s
    else
      let d := stamp - g.startTick.getD 0 - s.cap.encoder.lastTick
      let entries := formedEntries .change d s.cap.encoder.lastState state
      if Config.transitionFifoDepth < s.cap.staged.length + entries.length then
        s.setCap { s.cap with encoder := { s.cap.encoder with state := .dropping id } }
      else (s.storeEntries id entries).1.sealIfComplete id
  | .dropping id =>
    if Config.dropoutResume < s.cap.staged.length then s
    else
      let g := s.segment id
      let d := stamp - g.startTick.getD 0 - s.cap.encoder.lastTick
      let entries := formedEntries .dropout d s.cap.encoder.lastState (lines &&& g.mask)
      match s.storeEntries id entries with
      | (s, false) => s
      | (s, true) =>
        let s := s.setCap { s.cap with encoder := { s.cap.encoder with state := .encoding id } }
        let s := s.setSegment id { s.segment id with dropouts := bump32 (s.segment id).dropouts }
        s.sealIfComplete id

/-! ## The annotation writer (R55, R56, R64, R69) -/

/-- R55: the annotation entry of a record, in a segment that started at `start`. -/
def Record.annotation (r : Record) (start : Nat) : Annotation where
  startTick := r.startTick - start
  duration := min ((r.endTick - start) - (r.startTick - start)) (2 ^ 32 - 1)
  context := r.context
  kind := r.kind
  flags := r.annotationFlags
  clipped := decide (r.startTick < start)
  firstByte := if r.length = 0 then 0#8 else r.head.headD 0#8
  length := min r.length 255

/-- R56: a record dropped by the writer. -/
def State.dropAnnotation (s : State) (id : SegId) : State :=
  s.setSegment id { s.segment id with annotationsDropped := bump32 (s.segment id).annotationsDropped }

/-- R56: an annotation staged in the tail annotation page with the next index. -/
def State.placeAnnotation (s : State) (id : SegId) (a : Annotation) : State :=
  let g := s.segment id
  let staged : StagedAnnotation :=
    ⟨g.annotations.tail.getD 0, g.annotationsStored % Config.annotationsPerPage, a⟩
  (s.setCap { s.cap with stagedAnnotations := s.cap.stagedAnnotations ++ [staged] }).setSegment id
    { g with annotationsStored := bump32 g.annotationsStored }

/-- R56, R64, R69: a record taken by the annotation writer for a capturing segment. -/
def State.writeAnnotation (s : State) (id : SegId) (r : Record) : State :=
  let g := s.segment id
  let a := r.annotation (g.startTick.getD 0)
  if Config.annotationFifoDepth ≤ s.cap.stagedAnnotations.length ∨ g.annotationsStored = 2 ^ 32 - 1 then
    s.dropAnnotation id
  else if g.annotationFill = Config.annotationsPerPage then
    match g.annotationAnswer s.cap.pool.count with
    | .refuse _ => s.dropAnnotation id
    | .allocate =>
      match s.allocate (.annotations id) g.annotations with
      | some (s, chain) => (s.setSegment id { s.segment id with annotations := chain }).placeAnnotation id a
      | none => s.dropAnnotation id
    | .rotate =>
      let (pages, chain) := rotateChain s.cap.pages g.annotations
      ((s.setCap { s.cap with pages := pages }).setSegment id
        { g with annotations := chain,
                 firstAnnotation := g.firstAnnotation + Config.annotationsPerPage }).placeAnnotation id a
  else s.placeAnnotation id a

/-! ## Fire (R65, R66) -/

/-- R65: the retained entries of kind CHANGE or DROPOUT at or after a tick. -/
def Cap.countedFrom (c : Cap) (g : Segment) (tick : Nat) : Nat :=
  ((c.retainedEntries g).filter fun e =>
    decide ((e.kind = .change ∨ e.kind = .dropout) ∧ tick ≤ e.tick)).length

/-- R65: a fire accepted by a segment in PRE_TRIGGER. -/
def State.acceptFire (s : State) (id : SegId) (f : Fire) : State :=
  let g := s.segment id
  let start := g.startTick.getD 0
  let early := decide (f.tick < start + g.firstRetainedTick)
  let tick := if early then g.firstRetainedTick else f.tick - start
  let s := s.setSegment id
    { g with state := .postTrigger, triggerTick := some tick, clipped := early, forced := f.forced,
             postCount := min (s.cap.countedFrom g tick) (2 ^ 32 - 1) }
  let s := (s.setTrg s.trg.finish).raise .triggerFired
  s.sealIfComplete id

/-- R65, R66: the fire at a place of the list reaches CAP: accepted in PRE_TRIGGER, discarded otherwise. -/
def State.takeFire (s : State) (index : Nat) : State :=
  match s.cap.fires[index]? with
  | none => s
  | some f =>
    let s := s.setCap { s.cap with fires := s.cap.fires.eraseIdx index }
    match s.capturing? with
    | some id => if f.live ∧ (s.segment id).state = .preTrigger then s.acceptFire id f else s
    | none => s

/-! ## Drain completions (R52, R71) -/

/-- R52: the memory port writes from the two FIFOs in turn when both hold entries. -/
def Cap.nextDrain (c : Cap) : DrainTurn :=
  match c.staged, c.stagedAnnotations with
  | [], _ => .annotation
  | _, [] => .transition
  | _, _ => c.turn

/-- R52: the oldest staged entry is written and leaves its FIFO. -/
def Cap.drainOne (c : Cap) : Cap :=
  match c.nextDrain with
  | .transition =>
    match c.staged with
    | e :: rest => { c with dram := e.writeTo c.dram, staged := rest, turn := .annotation }
    | [] => c
  | .annotation =>
    match c.stagedAnnotations with
    | a :: rest => { c with dram := a.writeTo c.dram, stagedAnnotations := rest, turn := .transition }
    | [] => c

/-- R71: the sealed segment that drains. -/
def State.draining? (s : State) : Option SegId := (everyId 8).find? fun id => (s.segment id).drainPending

/-- R52, R71: one drain completion, with the seal completion it may be. -/
def State.drain (s : State) : State :=
  let s := s.setCap s.cap.drainOne
  let s :=
    if s.cap.staged = [] ∧ s.cap.stagedAnnotations = [] then
      match s.draining? with
      | some id => s.completeSeal id
      | none => s
    else s
  s.settlePort

/-! ## Pins (R75, R77) -/

/-- R75: a pin is granted. -/
def Segment.pinnable (g : Segment) : Bool :=
  (g.state.isCapturing || g.state == .sealed) && !g.retirePending

/-- R75: a pin taken. -/
def State.pin (s : State) (id : SegId) : State :=
  s.setSegment id { s.segment id with pins := (s.segment id).pins + 1 }

/-- R75, R77: a pin released; the last one completes a deferred retire. -/
def State.unpin (s : State) (id : SegId) : State :=
  let s := s.setSegment id { s.segment id with pins := (s.segment id).pins - 1 }
  if (s.segment id).state = .retiring ∧ (s.segment id).pins = 0 then s.retireNow id else s

/-! ## Starting a capture (R60, R61) -/

/-- R60: the first refusal that applies. -/
def State.startRefusal (s : State) (id : SegId) : Option Status :=
  if (s.segment id).state = .vacant then some .notFound
  else if (s.segment id).state ≠ .primed then some .wrongState
  else if s.capturing?.isSome then some .busy
  else if s.draining?.isSome then some .busy
  else if s.lvl.isSwitching then some .level
  else if s.lvl.exhausted then some .level
  else if (match s.pfe.run with
      | some r => decide (r.formed = 0)
      | none => true) then some .level
  else if s.cal.isActive then some .busy
  else if s.cap.pool.count < 2 then some .full
  else none

/-- R49, R61: the START entry and the segment's fields at START. Fires and records still on their way belong to an
earlier capture (R66, R70). -/
def State.beginCapture (s : State) (id : SegId) (records annotations : Chain) : State :=
  let g := s.segment id
  let state := s.pfe.lines &&& g.mask
  let staged : StagedEntry := ⟨records.tail.getD 0, 0, ⟨.start, 0, state⟩, some ⟨0, state⟩⟩
  let s := s.setSegment id
    { g with state := .preTrigger, level := some s.lvl.level, startTick := some s.pfe.stamp, records := records,
             annotations := annotations, written := 1 }
  let s := s.setCap
    { s.cap with encoder := ⟨.encoding id, state, 0⟩, staged := s.cap.staged ++ [staged],
                 fires := s.cap.fires.map fun f => { f with live := false } }
  let s := s.setDec { s.dec with path := s.dec.path.map fun b => b.map fun i => { i with toSegment := none } }
  s.setTrg (s.trg.start s.pfe.stamp)

/-- R61: an accepted SEGMENT_START: a record page, then an annotation page, then the rest. -/
def State.startCapture (s : State) (id : SegId) : State :=
  match s.allocate (.records id) {} with
  | none => s
  | some (s1, records) =>
    match s1.allocate (.annotations id) {} with
    | none => s
    | some (s2, annotations) => s2.beginCapture id records annotations

/-! ## Requests -/

/-- R57: a segment id of 8 or more is BAD_PARAM. -/
def onSegment (b : Byte) (body : SegId → State → State × Response) (s : State) : State × Response :=
  match idOf 8 b with
  | some id => body id s
  | none => answer .badParam s

/-- R58. -/
def bodySegmentPrepare (mask : Lines) (budget : Nat) (target : BitVec 32) (limit annotationBudget : Nat) (id : SegId)
    (s : State) : State × Response :=
  if (s.segment id).state = .vacant ∨ (s.segment id).state = .primed then
    (s.setSegment id (preparedSegment mask budget target limit annotationBudget), .only .ok)
  else answer .wrongState s

/-- R59. -/
def bodySegmentStatus (id : SegId) (s : State) : State × Response :=
  tell (.segment (s.segment id) (s.segment id).recordFill (s.segment id).annotationFill) s

/-- R60, R61. -/
def bodySegmentStart (id : SegId) (s : State) : State × Response :=
  match s.startRefusal id with
  | some st => answer st s
  | none => (s.startCapture id, .only .accepted)

/-- R76. -/
def bodySegmentRetire (id : SegId) (s : State) : State × Response :=
  let g := s.segment id
  match g.state with
  | .vacant => answer .notFound s
  | .preTrigger | .postTrigger | .retiring => answer .wrongState s
  | .primed => (s.retireNow id, .only .ok)
  | .sealed =>
    if g.retirePending then answer .wrongState s
    else if g.drainPending then (s.setSegment id { g with retirePending := true }, .only .accepted)
    else if g.pins ≠ 0 then
      (s.setSegment id { g with retirePending := true, state := .retiring }, .only .accepted)
    else (s.retireNow id, .only .ok)

/-- SEGMENT_PREPARE (R58). -/
def execSegmentPrepare (fit : Fit) (segment : Byte) (mask : Lines) (budget : Nat) (target : BitVec 32)
    (limit annotationBudget : Nat) (s : State) : Host.Outcome State Fault Refusal :=
  done (request false fit (onSegment segment (bodySegmentPrepare mask budget target limit annotationBudget)) s)

/-- SEGMENT_STATUS (R59). -/
def execSegmentStatus (fit : Fit) (segment : Byte) (s : State) : Host.Outcome State Fault Refusal :=
  done (request false fit (onSegment segment bodySegmentStatus) s)

/-- SEGMENT_START (R60, R61). -/
def execSegmentStart (fit : Fit) (segment : Byte) (s : State) : Host.Outcome State Fault Refusal :=
  done (request false fit (onSegment segment bodySegmentStart) s)

/-- SEGMENT_RETIRE (R76). -/
def execSegmentRetire (fit : Fit) (segment : Byte) (s : State) : Host.Outcome State Fault Refusal :=
  done (request false fit (onSegment segment bodySegmentRetire) s)

/-- DRAIN_COMPLETION (R52, R71): with both staging FIFOs empty there is no write to complete. -/
def execDrainCompletion (s : State) : Host.Outcome State Fault Refusal :=
  done (if s.cap.staged = [] ∧ s.cap.stagedAnnotations = [] then s else s.drain)

end Sys2Proof.Machine
end

