-- ==== Sys2Proof/Machine/FrontEnd.lean ====
section
/-! DEFINITION. Machine/FrontEnd.lean: the probe front end (chapter 1): comparators, glitch filters, deskew, the
conditioned sample, the channel monitors, and the requests of Table 12-2 that PFE owns. The sampling runs themselves
are in Machine/Sampling.lean. -/

namespace Sys2Proof.Machine

/-! ## Contexts and settings (R10, Table 1-4) -/

/-- The pod of a channel (R1). -/
def podOf (c : Chan) : Pod := ⟨c.val / 8, by omega⟩

/-- A front-end context by name. -/
def Pfe.frontEnd (p : Pfe) : FrontEndId → FrontEnd
  | .full => p.full
  | .economy => p.economy

/-- A front-end context replaced. -/
def Pfe.setFrontEnd (p : Pfe) (id : FrontEndId) (f : FrontEnd) : Pfe :=
  match id with
  | .full => { p with full := f }
  | .economy => { p with economy := f }

/-- The context in use; in STANDBY none is, and nothing is sampled (Table 1-5). -/
def Pfe.inUse (p : Pfe) : FrontEnd :=
  match p.active with
  | some id => p.frontEnd id
  | none => .zero

/-- R10: the context a level makes active. -/
def contextOf : Level → Option FrontEndId
  | .full => some .full
  | .economy => some .economy
  | .standby => none

/-! ## Comparator and glitch filter (R1, R3, R4, R7) -/

/-- R1: the line values of the probe voltages in microvolts; one code is 20 mV. -/
def Pfe.rawLines (p : Pfe) (probes : Vector Int 32) : Lines :=
  setOf fun c => decide (probes[c] > (20000 : Int) * (p.thresholds[podOf c].toNat : Int))

/-- A filter history one step older, with the newest step's value. -/
def pushHistory (h : BitVec 33) (b : Bool) : BitVec 33 := (h <<< 1) ||| (if b then 1#33 else 0#33)

/-- The newest `n` steps of a history at one level. -/
def setNewest (h : BitVec 33) (n : Nat) (b : Bool) : BitVec 33 :=
  if b then h ||| (BitVec.ofNat 33 (2 ^ n - 1)) else h &&& ~~~(BitVec.ofNat 33 (2 ^ n - 1))

/-- R7: the filter at a run's first raw sample. -/
def GlitchFilter.begin (raw : Bool) : GlitchFilter := ⟨raw, none, if raw then BitVec.allOnes 33 else 0#33⟩

/-- R3: a sample that differs from the accepted level begins or lengthens the open run. -/
def GlitchFilter.extended (f : GlitchFilter) (n : Nat) : OpenRun :=
  match f.openRun with
  | none => ⟨n, 1⟩
  | some r => { r with length := r.length + 1 }

/-- R3, R4: raw step `n` through the filter with glitch width `w`; the flag says that a pulse was suppressed. -/
def GlitchFilter.sample (f : GlitchFilter) (w n : Nat) (raw : Bool) : GlitchFilter × Bool :=
  let h := pushHistory f.history f.accepted
  if raw = f.accepted then (⟨f.accepted, none, h⟩, f.openRun.isSome)
  else if w + 1 ≤ (f.extended n).length then (⟨raw, none, setNewest h (f.extended n).length raw⟩, false)
  else (⟨f.accepted, some (f.extended n), h⟩, false)

/-- R7: a step after the run's end: the filtered value is the accepted level, and the open run is discarded. -/
def GlitchFilter.afterRun (f : GlitchFilter) : GlitchFilter := ⟨f.accepted, none, pushHistory f.history f.accepted⟩

/-- R3: all 32 filters through raw step `n`, with the set of channels that suppressed a pulse. -/
def Pfe.filterStep (p : Pfe) (n : Nat) (raw : Lines) : Pfe × Lines :=
  if n = 0 then ({ p with filters := Vector.ofFn fun c => .begin (inSet raw c.val) }, 0#32)
  else
    let out := mapIds p.filters fun c f => f.sample p.inUse.widths[podOf c] n (inSet raw c.val)
    ({ p with filters := out.map (·.1) }, setOf fun c => out[c].2)

/-! ## Glitch counters (R13, R14) -/

/-- R14: a glitch counter against the threshold; the flag says that GLITCH_THRESHOLD is raised. -/
def Monitor.checkGlitch (m : Monitor) (threshold : Nat) : Monitor × Bool :=
  if m.glitches < threshold then ({ m with armed := true }, false) else ({ m with armed := false }, m.armed)

/-- R13: the counter of each channel that suppressed a pulse is incremented. -/
def State.countGlitches (s : State) (suppressed : Lines) : State :=
  let out := mapIds s.pfe.monitors fun c m =>
    if inSet suppressed c.val then
      { m with glitches := bump 65535 m.glitches }.checkGlitch s.pfe.glitchThreshold
    else (m, false)
  (s.setPfe { s.pfe with monitors := out.map (·.1) }).raiseGlitch (setOf fun c => out[c].2)

/-! ## The conditioned sample (R5 to R8) -/

/-- A conditioned sample (R8). -/
structure Conditioned where
  stamp : Nat
  lines : Lines
  changed : Lines
deriving DecidableEq, Repr

/-- R5, R6: one channel's conditioned value for step `k`, with `newest` the newest step of the filter history: the
filtered value for k + s, or, where that step has been emitted already, the last value again. -/
def conditionedValue (f : GlitchFilter) (offset emitted : Int) (last : Bool) (k newest : Nat) : Bool × Int :=
  let index : Int := k + offset
  if 0 < k ∧ index ≤ emitted then (last, emitted)
  else (f.history.getLsbD ((newest : Int) - index).toNat, index)

/-- R5 to R8: the conditioned sample for step `k` of a run, and the newest filtered steps emitted. The run's first
sample is not a change (R7). -/
def Pfe.conditioned (p : Pfe) (r : Run) (k newest : Nat) : Conditioned × Vector Int 32 :=
  let out : Vector (Bool × Int) 32 := Vector.ofFn fun c =>
    conditionedValue p.filters[c] p.inUse.offsets[c] p.emitted[c] (inSet p.lines c.val) k newest
  let lines : Lines := setOf fun c => out[c].1
  (⟨r.firstStamp + k * r.step, lines, if k = 0 then 0#32 else p.lines ^^^ lines⟩, out.map (·.2))

/-- R8: the line state takes a conditioned sample as it is formed. -/
def Pfe.formSample (p : Pfe) (r : Run) (newest : Nat) : Pfe × Conditioned :=
  let (x, emitted) := p.conditioned r r.formed newest
  ({ p with lines := x.lines, stamp := x.stamp, emitted := emitted,
            run := p.run.map fun r => { r with formed := r.formed + 1 } }, x)

/-- The conditioned sample the next raw sample of the run forms; its filtered values are all known already
(assumption log 1, 4). -/
def Pfe.nextSample (p : Pfe) : Option Conditioned :=
  match p.run with
  | some r =>
    if Config.conditionedLatency ≤ r.taken then some (p.conditioned r r.formed (r.taken - 1)).1 else none
  | none => none

/-! ## Monitors (R13, R15, R16) -/

/-- R15: the quiet time as it acts at the conditioned samples of the present run: no shorter than its sample step. -/
def Pfe.quietSpan (p : Pfe) : Nat :=
  match p.run with
  | some r => max p.quietTime r.step
  | none => p.quietTime

/-- R15, R16: the expiry tick of the running quiet timer at a sample at which the quiet time acts as `span`: the tick
it holds, kept through a level transition, or, after a write of the quiet time, its last change + `span`. DEDUCED
(assumption log 44): R15 and R16 do not say which sample's step a short quiet time is compared with. -/
def Monitor.expiryTick (m : Monitor) (span : Nat) : Option Nat := m.quietFrom.map fun t => m.expiry.getD (t + span)

/-- R7, R15: the quiet timer expires at a sample, which the first sample of a run (`first`) stops none. DEDUCED (assumption
log 20): a timer that is due at the first sample of a run expires at the second. -/
def Monitor.quietDue (m : Monitor) (first : Bool) (span stamp : Nat) : Bool :=
  !first && m.activity == .active &&
    match m.expiryTick span with
    | some t => decide (t ≤ stamp)
    | none => false

/-- R15: the expiry. -/
def Monitor.expire (m : Monitor) : Monitor := { m with activity := .quiet, quietFrom := none, expiry := none }

/-- R15: the quiet timer started by a change at `t`, the quiet time acting as `span`. -/
def Monitor.startQuiet (m : Monitor) (span t : Nat) : Monitor :=
  { m with activity := .active, quietFrom := some t, expiry := some (t + span) }

/-- R13, R15: an accepted change at `t`. -/
def Monitor.change (m : Monitor) (span t : Nat) : Monitor :=
  let m := { m with edges := bump 65535 m.edges }
  match m.activity with
  | .active => m.startQuiet span t
  | .quiet =>
    match m.remembered with
    | some t0 => if t - t0 < span then { m with remembered := none }.startQuiet span t else { m with remembered := some t }
    | none => { m with remembered := some t }

/-- R15, R16: a conditioned sample at a monitor, the quiet time acting as `span`: the expiry first, or else the expiry
tick fixed, then the change. At the first sample of a run no timer expires (R7). -/
def Monitor.sample (m : Monitor) (first : Bool) (span stamp : Nat) (changed : Bool) : Monitor :=
  let m := if m.quietDue first span stamp then m.expire else { m with expiry := m.expiryTick span }
  if changed then m.change span stamp else m

/-- R16: the activity changes between two states of the monitors, in channel order. -/
def activityChanges (before after : Vector Monitor 32) : List (Chan × Activity) :=
  (everyId 32).filterMap fun c =>
    if before[c].activity = after[c].activity then none else some (c, after[c].activity)

/-- The set of the channels of activity changes. -/
def activityChannels (changes : List (Chan × Activity)) : Lines :=
  setOf fun c => changes.any fun a => decide (a.1 = c)

/-- The conditioned samples formed in the present run (R8). -/
def Pfe.formedSamples (p : Pfe) : Nat :=
  match p.run with
  | some r => r.formed
  | none => 0

/-- R7, R13, R15, R16: a conditioned sample, as it has been formed, taken by the channel monitors; the activity events of the
sample. -/
def State.monitorSample (s : State) (x : Conditioned) : State × List (Chan × Activity) :=
  let after := mapIds s.pfe.monitors fun c m =>
    m.sample (decide (s.pfe.formedSamples = 1)) s.pfe.quietSpan x.stamp (inSet x.changed c.val)
  let changes := activityChanges s.pfe.monitors after
  ((s.setPfe { s.pfe with monitors := after, activityDue := [] }).raiseActivity (activityChannels changes),
    s.pfe.activityDue ++ changes)

/-- QUIET_TIMER_EXPIRY (R7, R15, R16): the expiry at the next conditioned sample (assumption log 4); without one, or with
no timer that expires at it, nothing happens. -/
def State.quietExpiry (s : State) (c : Chan) : State :=
  match s.pfe.nextSample with
  | some x =>
    if s.pfe.monitors[c].quietDue (decide (s.pfe.formedSamples = 0)) s.pfe.quietSpan x.stamp then
      (s.setPfe { s.pfe with monitors := modifyId s.pfe.monitors c Monitor.expire,
                             activityDue := s.pfe.activityDue ++ [(c, .quiet)] }).raiseActivity
        (BitVec.twoPow 32 c.val)
    else s
  | none => s

/-! ## Requests -/

/-- R1. -/
def bodyThresholdSet (pod code : Byte) (s : State) : State × Response :=
  match idOf 4 pod with
  | some i => (s.setPfe { s.pfe with thresholds := s.pfe.thresholds.set i code }, .only .ok)
  | none => answer .badParam s

/-- R11: the named context is in use by a capture or a calibration. -/
def State.contextInUse (s : State) (id : FrontEndId) : Bool :=
  decide (s.pfe.active = some id) && (s.capturing?.isSome || s.cal.isActive)

/-- R11: a write to the context a request names, with its refusals. DESIGN CHOICE (assumption log 37): with an empty set
BUSY is tested before the set. -/
def writeFrontEnd (level : Byte) (f : FrontEnd → FrontEnd) (s : State) : State × Response :=
  match frontEndOf level with
  | none => answer .badParam s
  | some id =>
    if s.contextInUse id then answer .busy s
    else (s.setPfe (s.pfe.setFrontEnd id (f (s.pfe.frontEnd id))), .only .ok)

/-- R11: an offset written to every channel of a set. -/
def FrontEnd.setOffsets (f : FrontEnd) (channels : Lines) (offset : Int) : FrontEnd :=
  { f with offsets := mapIds f.offsets fun c o => if inSet channels c.val then clampOffset offset else o }

/-- R11: a width written to every pod of a set. -/
def FrontEnd.setWidths (f : FrontEnd) (pods : Byte) (width : Nat) : FrontEnd :=
  { f with widths := mapIds f.widths fun p w => if inSet pods p.val then clampWidth width else w }

/-- R12. -/
def bodyFrontEndRead (level : Byte) (s : State) : State × Response :=
  match frontEndOf level with
  | none => answer .badParam s
  | some id =>
    tell (.frontEnd s.pfe.thresholds (s.pfe.frontEnd id).offsets (s.pfe.frontEnd id).widths
      (decide (s.pfe.active = some id))) s

/-- R9. -/
def bodyLinesRead (s : State) : State × Response :=
  tell (.lines s.pfe.lines s.pfe.stamp (s.pfe.monitors.map (·.activity))) s

/-- R14: a new glitch threshold compared with every counter. -/
def State.setGlitchThreshold (s : State) (threshold : Nat) : State :=
  let t := clamp 1 65535 threshold
  let out := s.pfe.monitors.map fun m => m.checkGlitch t
  (s.setPfe { s.pfe with glitchThreshold := t, monitors := out.map (·.1) }).raiseGlitch (setOf fun c => out[c].2)

/-- R15, R16: a new quiet time; a running timer's expiry is fixed anew at the next conditioned sample. -/
def State.setQuietTime (s : State) (quiet : Nat) : State :=
  s.setPfe { s.pfe with quietTime := clamp 1 16777215 quiet,
                        monitors := s.pfe.monitors.map fun m => { m with expiry := none } }

/-- R17. -/
def bodyMonitorSet (writeThreshold : Bool) (threshold : Nat) (writeQuiet : Bool) (quiet : Nat) (s : State) :
    State × Response :=
  let s := if writeThreshold then s.setGlitchThreshold threshold else s
  (if writeQuiet then s.setQuietTime quiet else s, .only .ok)

/-- R13, R14, R17: both counters 0 and the notice armed. -/
def Monitor.cleared (m : Monitor) : Monitor := { m with edges := 0, glitches := 0, armed := true }

/-- R17: one channel of a MONITOR_READ response. -/
def Monitor.reading (m : Monitor) (c : Chan) : MonitorReading := ⟨c, m.edges, m.glitches, m.activity⟩

/-- R17. -/
def bodyMonitorRead (channels : Lines) (s : State) : State × Response :=
  let readings := ((everyId 32).filter fun c => inSet channels c.val).map fun c => s.pfe.monitors[c].reading c
  (s.setPfe { s.pfe with
      monitors := mapIds s.pfe.monitors fun c m => if inSet channels c.val then m.cleared else m },
    ⟨.ok, .monitors readings⟩)

/-- THRESHOLD_SET (R1). -/
def execThresholdSet (fit : Fit) (pod code : Byte) (s : State) : Host.Outcome State Fault Refusal :=
  done (request false fit (bodyThresholdSet pod code) s)

/-- DESKEW_SET (R11). -/
def execDeskewSet (fit : Fit) (level : Byte) (channels : Lines) (offset : Int) (s : State) :
    Host.Outcome State Fault Refusal :=
  done (request false fit (writeFrontEnd level (·.setOffsets channels offset)) s)

/-- GLITCH_WIDTH_SET (R11). -/
def execGlitchWidthSet (fit : Fit) (level pods : Byte) (width : Nat) (s : State) : Host.Outcome State Fault Refusal :=
  done (request false fit (writeFrontEnd level (·.setWidths pods width)) s)

/-- FRONT_END_READ (R12). -/
def execFrontEndRead (fit : Fit) (level : Byte) (s : State) : Host.Outcome State Fault Refusal :=
  done (request false fit (bodyFrontEndRead level) s)

/-- LINES_READ (R9). -/
def execLinesRead (s : State) : Host.Outcome State Fault Refusal := done (request false .enough bodyLinesRead s)

/-- MONITOR_SET (R17). -/
def execMonitorSet (fit : Fit) (writeThreshold : Bool) (threshold : Nat) (writeQuiet : Bool) (quiet : Nat)
    (s : State) : Host.Outcome State Fault Refusal :=
  done (request false fit (bodyMonitorSet writeThreshold threshold writeQuiet quiet) s)

/-- MONITOR_READ (R17). -/
def execMonitorRead (fit : Fit) (channels : Lines) (s : State) : Host.Outcome State Fault Refusal :=
  done (request false fit (bodyMonitorRead channels) s)

/-- QUIET_TIMER_EXPIRY (R15). -/
def execQuietTimerExpiry (channel : Chan) (s : State) : Host.Outcome State Fault Refusal :=
  done (s.quietExpiry channel)

end Sys2Proof.Machine
end

