-- ==== Sys2Proof/Machine/Async.lean ====
section
/-! DEFINITION. Machine/Async.lean: what the protocol engines share (the sample a context reads, what an engine
emits), and the asynchronous engine (chapter 7) as functions of its settings, its state and the samples of its lane. -/

namespace Sys2Proof.Machine

/-- What a RUNNING context reads from a conditioned sample (R83), with the sample step and whether it is the first
sample read after a start, a gap or a resumption. -/
structure Reading where
  stamp : Nat
  step : Nat
  lines : Lines
  changed : Lines
  fresh : Bool
deriving DecidableEq, Repr

/-- The value of a bound lane; an unbound lane reads 0 and is not used. -/
def Reading.value (x : Reading) (lane : Option Chan) : Bool :=
  match lane with
  | some c => inSet x.lines c.val
  | none => false

/-- An accepted change of a bound lane at this sample. -/
def Reading.changes (x : Reading) (lane : Option Chan) : Bool :=
  match lane with
  | some c => inSet x.changed c.val
  | none => false

/-- What an engine gives its context: a record, a suppressed unit (R91), a change of lock (R116). -/
inductive Emission where
  | record (r : Record)
  | suppressed
  | lockChange
deriving DecidableEq, Repr

/-- A record with its common fields; the payload is trimmed as R91 gives. -/
def recordOf (context : CtxId) (kind : RecordKind) (startTick endTick : Nat) (flags : BitVec 32)
    (payload : List Byte) : Record :=
  ({ context, kind, startTick, endTick, flags, length := 0, head := [] } : Record).withPayload payload

/-- Bits to a number, the first the least significant. -/
def bitsLsb : List Bool → Nat
  | [] => 0
  | b :: bs => bitN b + 2 * bitsLsb bs

/-- Bits to a number, the first the most significant. -/
def bitsMsb (bs : List Bool) : Nat := bitsLsb bs.reverse

/-! ## The frame and the window (R101 to R103) -/

/-- R101: the frame length L. -/
def AsyncSettings.frameLength (s : AsyncSettings) : Nat :=
  1 + s.dataBits + (if s.parity = .none then 0 else 1) + bitN s.addressMark + s.stopBits

/-- R103: the lower bound of the effective window at a decode level. -/
def AsyncSettings.windowLow (s : AsyncSettings) (level : Level) : Nat :=
  match level with
  | .economy => max s.lower Config.economyPeriodMin
  | .full | .standby => s.lower

/-- R103: a period clamped to the effective window. -/
def AsyncSettings.clampPeriod (s : AsyncSettings) (level : Level) (p : Nat) : Nat :=
  min (max p (s.windowLow level)) s.upper

/-- R89: the rate check of an ASYNC context. -/
def AsyncSettings.decodesAt (s : AsyncSettings) (level : Level) : Bool :=
  match level with
  | .economy => decide (Config.economyPeriodMin ≤ s.upper)
  | .full | .standby => true

/-- R103, R119: the engine at CONTEXT_START, and (with the period not clamped) as it reports before any. -/
def AsyncEngine.start (s : AsyncSettings) (period : Nat) : AsyncEngine :=
  { tracker := if s.mode = .auto then .acquire else .wide, period }

/-- R107: a gap begin or a suspension. -/
def AsyncEngine.gap (e : AsyncEngine) : AsyncEngine :=
  { e with frame := none, phase := .huntSync, markSince := none, intervals := [], lastChange := none, pass := false }

/-- R103: the period clamped at a gap end that leaves the context RUNNING. -/
def AsyncEngine.reclamp (e : AsyncEngine) (s : AsyncSettings) (level : Level) : AsyncEngine :=
  { e with period := s.clampPeriod level e.period }

/-! ## Idle (R113) -/

/-- The idle timer while it runs: its origin and its expiry tick. -/
def AsyncEngine.idleTimer (e : AsyncEngine) (s : AsyncSettings) : Option (Nat × Nat) :=
  match e.phase, e.markSince with
  | .huntSync, some m | .huntNext, some m =>
    if e.idleArmed ∧ e.tracker ≠ .acquire then
      let origin := max m (e.lastCharacter.getD 0)
      some (origin, origin + ceilDiv (s.idleLength * e.period) 256)
    else none
  | _, _ => none

/-- The expiry at a sample, where one is due. -/
def AsyncEngine.expireIdle (e : AsyncEngine) (s : AsyncSettings) (ctx : CtxId) (stamp : Nat) :
    AsyncEngine × List Emission :=
  match e.idleTimer s with
  | some (origin, expiry) =>
    if expiry ≤ stamp then ({ e with idleArmed := false }, [.record (recordOf ctx .idle origin stamp 0#32 [])])
    else (e, [])
  | none => (e, [])

/-! ## Acquisition (R105) -/

/-- R105: the period estimated from the kept intervals, before the clamp. -/
def estimatePeriod (intervals : List Nat) : Nat :=
  let m := intervals.foldl min (intervals.headD 0)
  let bits := (intervals.map fun i => (2 * i + m) / (2 * m)).sum
  (512 * intervals.sum + bits) / (2 * bits)

/-- R105: an accepted change in ACQUIRE. -/
def AsyncEngine.acquireChange (e : AsyncEngine) (s : AsyncSettings) (level : Level) (t : Nat) (mark : Bool) :
    AsyncEngine :=
  let intervals :=
    match e.lastChange with
    | some t0 =>
      if s.upper < 256 * (t - t0) ∨ 256 * (t - t0) < s.windowLow level then e.intervals
      else e.intervals ++ [t - t0]
    | none => e.intervals
  if 16 ≤ intervals.length then
    { e with tracker := .wide, period := s.clampPeriod level (estimatePeriod intervals), goodRun := 0, badRun := 0,
             intervals := [], lastChange := none, phase := .huntSync, markSince := if mark then some t else none }
  else { e with intervals, lastChange := some t }

/-! ## Tracking and verdicts (R114 to R117) -/

/-- R108: the centre of bit i, in fine units. -/
def centre (start period i : Nat) : Nat := 256 * start + period * (2 * i + 1) / 2

/-- R108: the sample spread in ticks. -/
def spread (period step : Nat) : Nat := max step (period / 4096)

/-- R114: the boundary index of an edge. -/
def boundaryIndex (start period edge : Nat) : Nat := (2 * (256 * edge - 256 * start) + period) / (2 * period)

/-- R114: the signed edge error. -/
def edgeError (start period edge : Nat) : Int :=
  (256 * edge : Int) - 256 * start - boundaryIndex start period edge * period

/-- R114: the correction, truncated toward zero. -/
def correction (tracker : Tracker) (j : Nat) (e : Int) : Int :=
  Int.tdiv e (j * 2 ^ (if tracker = .narrow then 6 else 3))

/-- R114: an accepted change inside a frame. -/
def AsyncEngine.trackEdge (e : AsyncEngine) (s : AsyncSettings) (level : Level) (f : AsyncFrame) (t : Nat) :
    AsyncEngine × AsyncFrame :=
  let j := boundaryIndex f.start e.period t
  if centre f.start e.period (s.frameLength - 1) ≤ 256 * t ∨ j = 0 ∨ s.frameLength ≤ j then (e, f)
  else
    let err := edgeError f.start e.period t
    let good := decide (4 * err.natAbs ≤ e.period)
    let period :=
      if s.mode = .fixed then e.period
      else s.clampPeriod level ((e.period : Int) + correction e.tracker j err).toNat
    ({ e with period }, { f with edgesGood := f.edgesGood && good })

/-- R115 to R117: a frame verdict, with the move of the tracker; the flag says that LOCK_CHANGE is raised. DESIGN CHOICE
(assumption log 45): a return to ACQUIRE leaves the receiver phase HUNT_SYNC with no mark-since. -/
def AsyncEngine.verdict (e : AsyncEngine) (s : AsyncSettings) (good : Bool) : AsyncEngine × List Emission :=
  let e :=
    if good then { e with goodRun := bump 8 e.goodRun, badRun := 0 }
    else { e with badRun := bump 16 e.badRun, goodRun := 0 }
  match e.tracker with
  | .wide =>
    if e.goodRun = 8 then ({ e with tracker := .narrow, goodRun := 0, badRun := 0 }, [.lockChange])
    else if e.badRun = 16 ∧ s.mode = .auto then
      ({ e with tracker := .acquire, goodRun := 0, badRun := 0, intervals := [], lastChange := none,
                phase := .huntSync, markSince := none, idleArmed := false }, [])
    else (e, [])
  | .narrow =>
    if 4 ≤ e.badRun then ({ e with tracker := .wide, goodRun := 0, badRun := 0 }, [.lockChange]) else (e, [])
  | .acquire => (e, [])

/-! ## Changes of the lane by phase (R105, R106, R110, R114) -/

/-- R106: a start edge. -/
def AsyncEngine.startEdge (e : AsyncEngine) (t : Nat) : AsyncEngine :=
  { e with phase := .frame, frame := some { start := t }, markSince := none }

/-- R106: a change to space in HUNT_SYNC is a start edge after a frame length of mark. -/
def AsyncEngine.syncReached (e : AsyncEngine) (s : AsyncSettings) (t : Nat) : Bool :=
  match e.markSince with
  | some m => decide (s.frameLength * e.period ≤ 256 * (t - m))
  | none => false

/-- One accepted change of the lane, at tick `t` to `mark`. -/
def AsyncEngine.takeChange (e : AsyncEngine) (s : AsyncSettings) (ctx : CtxId) (level : Level) (t : Nat)
    (mark : Bool) : AsyncEngine × List Emission :=
  if e.tracker = .acquire then (e.acquireChange s level t mark, [])
  else
    match e.phase with
    | .huntSync =>
      if mark then ({ e with markSince := some t }, [])
      else if e.syncReached s t then (e.startEdge t, [])
      else ({ e with markSince := none }, [])
    | .huntNext => if mark then ({ e with markSince := some t }, []) else (e.startEdge t, [])
    | .frame =>
      match e.frame with
      | some f =>
        let (e, f) := e.trackEdge s level f t
        ({ e with frame := some { f with changes := f.changes ++ [(t, mark)] } }, [])
      | none => (e, [])
    | .breakWait =>
      if mark then
        ({ e with phase := .huntSync, markSince := some t, frame := none },
          [.record (recordOf ctx .brk ((e.frame.map (·.start)).getD t) t 0#32 [])])
      else (e, [])

/-- Changes taken in tick order (R109). -/
def AsyncEngine.takeChanges (e : AsyncEngine) (s : AsyncSettings) (ctx : CtxId) (level : Level) :
    List (Nat × Bool) → AsyncEngine × List Emission
  | [] => (e, [])
  | (t, mark) :: rest =>
    let (e, out) := e.takeChange s ctx level t mark
    let (e, more) := e.takeChanges s ctx level rest
    (e, out ++ more)

/-! ## Bits and frame ends (R108 to R112) -/

/-- R108: the lane's line value at a tick of the frame, from its changes; space from the start edge on. -/
def AsyncFrame.valueAt (f : AsyncFrame) (u : Nat) : Bool :=
  f.changes.foldl (fun v c => if c.1 ≤ u then c.2 else v) false

/-- R108: the majority of three line values, and whether they disagree. -/
def majority (a b c : Bool) : Bool × Bool := ((a && b) || (a && c) || (b && c), !(a == b && b == c))

/-- R102: the parity mismatch of the covered bits and the parity bit. -/
def parityMismatch (p : Parity) (bits : List Bool) : Bool :=
  match p with
  | .none => false
  | .even => decide (bits.count true % 2 = 1)
  | .odd => decide (bits.count true % 2 = 0)

/-- The character a full frame holds (R102, R111). -/
structure Character where
  value : Nat
  markBit : Bool
  flags : BitVec 32
  errored : Bool
deriving DecidableEq, Repr

/-- R102, R108, R109, R111: the character of a frame with all its bits. -/
def AsyncFrame.character (f : AsyncFrame) (s : AsyncSettings) : Character :=
  let dataBits := (f.bits.drop 1).take s.dataBits
  let markBit := s.addressMark && f.bits.getD (1 + s.dataBits) false
  let stops := f.bits.drop (s.frameLength - s.stopBits)
  let framing := stops.any (!·)
  let parity := parityMismatch s.parity ((f.bits.drop 1).take (s.frameLength - 1 - s.stopBits))
  { value := bitsLsb dataBits, markBit, errored := f.noise || framing || parity,
    flags := flagWord [(.noise, f.noise), (.framing, framing), (.parity, parity), (.addressMark, markBit)] }

/-- R102: the payload of a character. -/
def characterPayload (dataBits value : Nat) : List Byte :=
  if dataBits = 9 then leBytes 2 value else leBytes 1 value

/-- R112: the multidrop filter: the state after the character, and whether it is emitted. -/
def multidrop (filter : Option Nat) (pass : Bool) (c : Character) : Bool × Bool :=
  match filter with
  | none => (pass, true)
  | some address =>
    if c.errored then (if c.markBit then false else pass, true)
    else if c.markBit then (decide (c.value = address), decide (c.value = address))
    else (pass, pass)

/-- R109: mark-since of the hunting phase that follows a frame: the last change before a tick bound, when it was to
mark. -/
def markBefore (changes : List (Nat × Bool)) : Option Nat :=
  match changes.getLast? with
  | some (t, true) => some t
  | some (_, false) => none
  | none => none

/-- R109: a false start. DESIGN CHOICE (assumption log 41): where its verdict returns to ACQUIRE, the changes that arrived
before it are dropped. -/
def AsyncEngine.falseStart (e : AsyncEngine) (s : AsyncSettings) (ctx : CtxId) (level : Level) (f : AsyncFrame) :
    AsyncEngine × List Emission :=
  let (e, out) := { e with phase := .huntSync, markSince := none, frame := none }.verdict s false
  if e.tracker = .acquire then (e, out)
  else
    let (e, more) := e.takeChanges s ctx level f.changes
    (e, out ++ more)

/-- R109 to R112, R115: the end of a frame whose last bit has been evaluated. DESIGN CHOICE (assumption log 41): where
its verdict returns to ACQUIRE, the changes that arrived before it are dropped. -/
def AsyncEngine.endFrame (e : AsyncEngine) (s : AsyncSettings) (ctx : CtxId) (level : Level) (f : AsyncFrame) :
    AsyncEngine × List Emission :=
  let last := centre f.start e.period (s.frameLength - 1)
  let later := f.changes.filter fun c => decide (last ≤ 256 * c.1)
  if f.bits.all (!·) then { e with phase := .breakWait, frame := some f }.takeChanges s ctx level later
  else
    let c := f.character s
    let (pass, emitted) := multidrop s.filterAddress e.pass c
    let endTick := last / 256
    let e := { e with phase := .huntNext, frame := none, pass,
                      markSince := markBefore (f.changes.filter fun c => decide (256 * c.1 < last)),
                      idleArmed := e.idleArmed || emitted,
                      lastCharacter := if emitted then some endTick else e.lastCharacter }
    let out : List Emission :=
      if emitted then
        [.record (recordOf ctx .character f.start endTick c.flags (characterPayload s.dataBits c.value))]
      else [.suppressed]
    let (e, moved) := e.verdict s (!c.errored && f.edgesGood)
    if e.tracker = .acquire then (e, out ++ moved)
    else
      let (e, more) := e.takeChanges s ctx level later
      (e, out ++ moved ++ more)

/-- R108, R109: the next bit of the frame, when it is due at a sample. -/
def AsyncEngine.nextBit (e : AsyncEngine) (s : AsyncSettings) (ctx : CtxId) (level : Level) (step stamp : Nat) :
    Option (AsyncEngine × List Emission) :=
  match e.phase, e.frame with
  | .frame, some f =>
    let tick := centre f.start e.period f.bits.length / 256
    let d := spread e.period step
    if tick + d ≤ stamp then
      let (value, noise) := majority (f.valueAt (tick - d)) (f.valueAt tick) (f.valueAt (tick + d))
      let f := { f with bits := f.bits ++ [value], noise := f.noise || noise }
      if f.bits.length = 1 ∧ value then some (e.falseStart s ctx level f)
      else if f.bits.length = s.frameLength then some (e.endFrame s ctx level f)
      else some ({ e with frame := some f }, [])
    else none
  | _, _ => none

/-- R108: every bit due at a sample, in order. The bound exceeds what can be due at one sample: a bit lasts at least
four sample steps. -/
def AsyncEngine.evaluateBits (s : AsyncSettings) (ctx : CtxId) (level : Level) (step stamp : Nat) :
    Nat → AsyncEngine → AsyncEngine × List Emission
  | 0, e => (e, [])
  | n + 1, e =>
    match e.nextBit s ctx level step stamp with
    | none => (e, [])
    | some (e, out) =>
      let (e, more) := AsyncEngine.evaluateBits s ctx level step stamp n e
      (e, out ++ more)

/-- A conditioned sample read by an ASYNC context (R106 to R117): a due idle expiry, the accepted change, the bits.
The first sample after a gap has no change and sets mark-since (R107). DESIGN CHOICE (assumption log 42): an idle expiry
already past when a frame ends is taken at the next sample. -/
def AsyncEngine.sample (e : AsyncEngine) (s : AsyncSettings) (lanes : Lanes) (ctx : CtxId) (level : Level)
    (x : Reading) : AsyncEngine × List Emission :=
  let mark := x.value lanes.data == (s.polarity == .normal)
  if x.fresh then ({ e with markSince := if mark then some x.stamp else none }, [])
  else
    let (e, idle) := e.expireIdle s ctx x.stamp
    let (e, out) := if x.changes lanes.data then e.takeChange s ctx level x.stamp mark else (e, [])
    let (e, more) := AsyncEngine.evaluateBits s ctx level x.step x.stamp 64 e
    (e, idle ++ out ++ more)

end Sys2Proof.Machine
end

