-- ==== Sys2Proof/Machine/Clocked.lean ====
section
/-! DEFINITION. Machine/Clocked.lean: the clocked word engine (8.1) as functions of its settings, its state and the
samples of its lanes. -/

namespace Sys2Proof.Machine

/-- A level of an ACTIVE_LOW or ACTIVE_HIGH select is asserted (R120). -/
def ClockedSettings.asserted (s : ClockedSettings) (value : Bool) : Bool := value == (s.selectPolarity == .activeHigh)

/-- R120: a sampling edge of the clock lane at a sample. -/
def ClockedSettings.samplingEdge (s : ClockedSettings) (lanes : Lanes) (x : Reading) : Bool :=
  x.changes lanes.clock && (x.value lanes.clock == (s.edge == .rising))

/-- R123: bits sampled in order as a number. -/
def ClockedSettings.number (s : ClockedSettings) (bits : List Bool) : Nat :=
  match s.bitOrder with
  | .msbFirst => bitsMsb bits
  | .lsbFirst => bitsLsb bits

/-- R125: what a gap, a suspension or a start leaves. DESIGN CHOICE (assumption log 30): the word phase is READY at once,
a RESYNC included. -/
def ClockedEngine.gap (_ : ClockedEngine) : ClockedEngine := {}

/-- R123: the WORD record of the bits so far. -/
def ClockedEngine.word (e : ClockedEngine) (s : ClockedSettings) (lanes : Lanes) (ctx : CtxId) (endTick : Nat)
    (partialWord : Bool) : Record :=
  { recordOf ctx .word e.startTick endTick
      (flagWord [(.skew, e.skew), (.phase, e.phasePending), (.partialWord, partialWord)])
      (leBytes (ceilDiv e.outBits.length 8) (s.number e.outBits)) with
    inWord := lanes.inn.map fun _ => BitVec.ofNat 32 (s.number e.inBits) }

/-- R123: after a record: READY, no bits, no word flags; PHASE went with the record. -/
def ClockedEngine.ended (e : ClockedEngine) : ClockedEngine :=
  { e with phase := .ready, outBits := [], inBits := [], skew := false, phasePending := false, gapTimer := none }

/-- R121, R123, R124: one admitted sampling edge. -/
def ClockedEngine.takeBit (e : ClockedEngine) (s : ClockedSettings) (lanes : Lanes) (ctx : CtxId) (x : Reading) :
    ClockedEngine × List Emission :=
  let e := { e with
    phase := .word,
    startTick := if e.outBits = [] then x.stamp else e.startTick,
    skew := e.skew || x.changes lanes.out || x.changes lanes.inn,
    outBits := e.outBits ++ [x.value lanes.out],
    inBits := e.inBits ++ [x.value lanes.inn],
    gapTimer := if lanes.select = none then some (x.stamp + s.gapTimeout) else none }
  if s.wordLength ≤ e.outBits.length then (e.ended, [.record (e.word s lanes ctx x.stamp false)]) else (e, [])

/-- R122, R124: a word in progress ended early. -/
def ClockedEngine.endEarly (e : ClockedEngine) (s : ClockedSettings) (lanes : Lanes) (ctx : CtxId) (stamp : Nat) :
    ClockedEngine × List Emission :=
  if e.outBits = [] then (e.ended, []) else (e.ended, [.record (e.word s lanes ctx stamp true)])

/-- R124: the expiry of the gap timer at a sample, where one is due. -/
def ClockedEngine.expireGap (e : ClockedEngine) (s : ClockedSettings) (lanes : Lanes) (ctx : CtxId) (stamp : Nat) :
    ClockedEngine × List Emission :=
  match e.gapTimer with
  | some expiry => if expiry ≤ stamp then e.endEarly s lanes ctx stamp else (e, [])
  | none => (e, [])

/-- R122: the select lane at a sample, before the clock. -/
def ClockedEngine.takeSelect (e : ClockedEngine) (s : ClockedSettings) (lanes : Lanes) (ctx : CtxId) (x : Reading)
    (asserted : Bool) : ClockedEngine × List Emission :=
  if asserted && !e.selected then
    ({ e.ended with phasePending := x.value lanes.clock != s.idleLevel }, [])
  else if !asserted && e.selected then e.endEarly s lanes ctx x.stamp
  else (e, [])

/-- A conditioned sample read by a CLOCKED context (R121 to R125). DEDUCED (assumption log 53): the first sample after a
start, a gap or a resumption carries no sampling edge, and a select that becomes asserted at it is RESYNC. -/
def ClockedEngine.sample (e : ClockedEngine) (s : ClockedSettings) (lanes : Lanes) (ctx : CtxId) (x : Reading) :
    ClockedEngine × List Emission :=
  match lanes.select with
  | some _ =>
    let asserted := s.asserted (x.value lanes.select)
    if x.fresh then ({ phase := if asserted then .resync else .ready, selected := asserted }, [])
    else
      let wasSelected := e.selected
      let (e, out) := e.takeSelect s lanes ctx x asserted
      let e := { e with selected := asserted }
      if asserted && wasSelected && e.phase != .resync && s.samplingEdge lanes x then
        let (e, more) := e.takeBit s lanes ctx x
        (e, out ++ more)
      else (e, out)
  | none =>
    if x.fresh then ({}, [])
    else
      let (e, out) := e.expireGap s lanes ctx x.stamp
      if s.samplingEdge lanes x then
        let (e, more) := e.takeBit s lanes ctx x
        (e, out ++ more)
      else (e, out)

end Sys2Proof.Machine
end

