-- ==== Sys2Proof/Machine/Flash.lean ====
section
/-! DEFINITION. Machine/Flash.lean: the flash transfer engine (8.2) and the flash target model (8.3). -/

namespace Sys2Proof.Machine

/-! ## Phases of a transfer (Tables 8-6, 8-7) -/

/-- Table 8-7: the phase after the dummy clocks. -/
def Descriptor.afterDummy (d : Descriptor) : TransferPhase := if d.direction = .none then .surplus else .data

/-- Table 8-7: the phase after the mode byte. -/
def Descriptor.afterMode (d : Descriptor) : TransferPhase := if d.dummy = 0 then d.afterDummy else .dummy

/-- Table 8-7: the phase after the address. -/
def Descriptor.afterAddress (d : Descriptor) : TransferPhase := if d.hasMode then .mode else d.afterMode

/-- Table 8-7: the phase after the command byte. -/
def Descriptor.afterCommand (d : Descriptor) : TransferPhase :=
  if d.addressBytes = 0 then d.afterAddress else .address

/-- Table 8-7: the lane width a phase reads with; 0 where no lane is read. -/
def laneWidthOf (wide : Bool) (d : Option Descriptor) : TransferPhase → Nat
  | .command => if wide then 4 else 1
  | .address | .mode => (d.map (·.addressWidth)).getD 1
  | .data => (d.map (·.dataWidth)).getD 1
  | .generic => 1
  | .dummy | .surplus | .undecoded => 0

/-- Table 8-6: transfer clocks of one byte. -/
def clocksPerByte (width : Nat) : Nat := if width = 4 then 2 else if width = 2 then 4 else 8

/-- Table 8-6: the lane values one transfer clock reads, most significant first. -/
def laneBits (lanes : Lanes) (x : Reading) (width : Nat) (fromTarget : Bool) : List Bool :=
  if width = 4 then [x.value lanes.d3, x.value lanes.d2, x.value lanes.d1, x.value lanes.d0]
  else if width = 2 then [x.value lanes.d1, x.value lanes.d0]
  else if fromTarget then [x.value lanes.d1]
  else [x.value lanes.d0]

/-- R130: a phase is begun; it is not decoded when it reads an unbound lane, nor is any after it. -/
def Transfer.enter (t : Transfer) (wide : Bool) (lanes : Lanes) (p : TransferPhase) : Transfer :=
  { t with phase := p, clocks := 0, bits := [],
           lanesMissing := t.lanesMissing ||
             (laneWidthOf wide t.descriptor p == 4 && (lanes.d2.isNone || lanes.d3.isNone)) }

/-- R128, R129: a transfer begun at an assertion; with continuation armed it has no command phase. -/
def FlashModel.newTransfer (m : FlashModel) (lanes : Lanes) (stamp : Nat) : Transfer :=
  match m.continuation with
  | some d =>
    ({ startTick := stamp, elided := true, phase := .address, opcode := some d.opcode, descriptor := some d }
      : Transfer).enter m.wide lanes d.afterCommand
  | none => ({ startTick := stamp, elided := false, phase := .command } : Transfer).enter m.wide lanes .command

/-! ## Transfer clocks (R128 to R130) -/

/-- A byte from its bits. -/
def byteOf (bits : List Bool) : Byte := BitVec.ofNat 8 (bitsMsb bits)

/-- R129, R130: the command byte is complete: its descriptor governs the rest, or generic bytes follow, or, where it
could not be decoded, nothing governs. -/
def Transfer.commandDone (t : Transfer) (wide : Bool) (lanes : Lanes) (set : List Descriptor) : Transfer :=
  if t.lanesMissing then t.enter wide lanes .undecoded
  else
    match set.find? fun d => decide (d.opcode = byteOf t.bits) with
    | some d => { t with opcode := some (byteOf t.bits), descriptor := some d }.enter wide lanes d.afterCommand
    | none => { t with opcode := some (byteOf t.bits), unknown := true }.enter wide lanes .generic

/-- R129: a data or generic byte is complete when its clocks are. -/
def Transfer.dataClock (t : Transfer) (width stamp : Nat) : Transfer :=
  if t.clocks % clocksPerByte width = 0 then
    { t with bits := [], bytes := if t.lanesMissing then t.bytes else t.bytes ++ [(byteOf t.bits, stamp)] }
  else t

/-- R128 to R130: one transfer clock. -/
def Transfer.clock (t : Transfer) (wide : Bool) (lanes : Lanes) (set : List Descriptor) (x : Reading) : Transfer :=
  let width := laneWidthOf wide t.descriptor t.phase
  let fromTarget := t.phase == .data && (t.descriptor.map (·.direction)) == some .fromTarget
  let bits := if width = 0 ∨ t.lanesMissing then t.bits else t.bits ++ laneBits lanes x width fromTarget
  let t := { t with clocks := t.clocks + 1, total := t.total + 1, bits }
  match t.phase, t.descriptor with
  | .command, _ => if t.clocks = clocksPerByte width then t.commandDone wide lanes set else t
  | .address, some d =>
    if t.clocks = d.addressBytes * clocksPerByte width then
      { t with address := if t.lanesMissing then none else some (bitsMsb t.bits) }.enter wide lanes d.afterAddress
    else t
  | .mode, some d =>
    if t.clocks = clocksPerByte width then
      { t with modeByte := if t.lanesMissing then none else some (byteOf t.bits) }.enter wide lanes d.afterMode
    else t
  | .dummy, some d => if t.clocks = d.dummy then t.enter wide lanes d.afterDummy else t
  | .data, _ | .generic, _ => t.dataClock width x.stamp
  | _, _ => t

/-- How a transfer ended (R130, R131). -/
inductive TransferEnd where
  | complete | truncated | undecided
deriving DecidableEq, Repr

/-- R131: the end of a transfer at its deassertion. -/
def Transfer.ending (t : Transfer) (wide : Bool) : TransferEnd :=
  match t.phase with
  | .undecoded => .undecided
  | .surplus => .complete
  | .data | .generic =>
    if t.clocks % clocksPerByte (laneWidthOf wide t.descriptor t.phase) = 0 then .complete else .truncated
  | .command => if t.lanesMissing then .undecided else .truncated
  | .address | .mode | .dummy => .truncated

/-! ## The flash target model (R133 to R136) -/

/-- What a transfer does to the model: the model after it, the flags it sets, the busy duration. -/
structure ModelEffect where
  model : FlashModel
  flags : List (RecordFlag × Bool) := []
  busyDuration : Option Nat := none
deriving DecidableEq, Repr

/-- R133: the mode verdict. -/
def FlashModel.modeVerdict (m : FlashModel) (d : Descriptor) (modeByte : Option Byte) : FlashModel :=
  match modeByte with
  | some b =>
    { m with continuation := if d.hasMode ∧ b.extractLsb' 4 4 = d.continueCode then some d else none }
  | none => { m with continuation := none }

/-- R135: one status byte: the shadows after it, and the busy duration fixed so far. -/
def FlashModel.statusByte (m : FlashModel) (s : FlashSettings) (duration : Option Nat) (b : Byte × Nat) :
    FlashModel × Option Nat :=
  let busy := b.1.getLsbD s.busyBit
  ({ m with busy, enable := b.1.getLsbD s.enableBit, lastStatus := some b.1,
            busySince := if busy && !m.busy then b.2 else m.busySince },
    if m.busy && !busy then some (duration.getD (b.2 - m.busySince)) else duration)

/-- R135: the decoded data bytes of a STATUS_READ in transfer order. -/
def FlashModel.statusRead (m : FlashModel) (s : FlashSettings) :
    List (Byte × Nat) → Option Nat → FlashModel × Option Nat
  | [], duration => (m, duration)
  | b :: bs, duration =>
    let (m, duration) := m.statusByte s duration b
    m.statusRead s bs duration

/-- R134: the wrap length a WRAP_SET byte selects; none is OFF. -/
def wrapOf (b : Byte) : Option Nat := if b.getLsbD 2 then some (8 * 2 ^ (b.toNat % 4)) else none

/-- R134: the class effect of a transfer that the model takes. -/
def FlashModel.classEffect (m : FlashModel) (s : FlashSettings) (effect : EffectClass) (bytes : List (Byte × Nat))
    (endTick : Nat) : ModelEffect :=
  match effect with
  | .enable => { model := { m with enable := true } }
  | .disable => { model := { m with enable := false } }
  | .programPage | .modify =>
    if m.enable then { model := { m with busy := true, busySince := endTick } }
    else { model := m, flags := [(.withoutEnable, true)] }
  | .statusRead =>
    let (m, duration) := m.statusRead s bytes none
    { model := m, flags := [(.busyEnded, duration.isSome)], busyDuration := duration }
  | .wrapSet =>
    match bytes with
    | b :: _ => { model := { m with wrap := wrapOf b.1 } }
    | [] => { model := m }
  | .powerDown => { model := { m with poweredDown := true, continuation := none } }
  | .powerUp => { model := { m with poweredDown := false } }
  | .wideOn => { model := { m with wide := true } }
  | .wideOff => { model := { m with wide := false } }
  | .read | .other => { model := m }

/-- R133: a complete transfer submitted to the model. -/
def FlashModel.submit (m : FlashModel) (s : FlashSettings) (t : Transfer) (endTick : Nat) : ModelEffect :=
  if m.poweredDown ∧ (t.descriptor.map (·.effect)) ≠ some .powerUp then
    { model := m, flags := [(.ignoredPoweredDown, true)] }
  else
    match t.descriptor with
    | none => { model := m }
    | some d =>
      if m.busy ∧ d.effect ≠ .statusRead then { model := m, flags := [(.whileBusy, true)] }
      else (m.modeVerdict d t.modeByte).classEffect s d.effect t.bytes endTick

/-- R131, R133: what a transfer does to the model by the way it ended. -/
def FlashModel.apply (m : FlashModel) (s : FlashSettings) (t : Transfer) (endTick : Nat) : ModelEffect :=
  match t.ending m.wide with
  | .complete => m.submit s t endTick
  | .truncated => { model := { m with continuation := none }, flags := [(.truncated, true)] }
  | .undecided => { model := m }

/-- R136: an address that runs `n` bytes from `a` within aligned blocks of `size`. -/
def wrappedEnd (a n size : Nat) : Nat := a - a % size + (a % size + n - 1) % size

/-- R136: the end address and the flag of a transfer with an address and data bytes. -/
def endAddressOf (s : FlashSettings) (wrap : Option Nat) (d : Descriptor) (a n : Nat) :
    Nat × List (RecordFlag × Bool) :=
  let plain := (a + n - 1) % 2 ^ (8 * d.addressBytes)
  match d.effect, wrap with
  | .read, some w => (wrappedEnd a n w, [(.wrappedRead, decide (w < a % w + n))])
  | .programPage, _ =>
    (wrappedEnd a n (2 ^ s.pageExponent), [(.pageWrap, decide (2 ^ s.pageExponent < a % 2 ^ s.pageExponent + n))])
  | _, _ => (plain, [])

/-- R136: the end address of a transfer, where it has one. -/
def Transfer.endAddress (t : Transfer) (s : FlashSettings) (wrap : Option Nat) :
    Option (Nat × List (RecordFlag × Bool)) :=
  match t.descriptor, t.address with
  | some d, some a => if t.bytes = [] then none else some (endAddressOf s wrap d a t.bytes.length)
  | _, _ => none

/-- R137: the FLASH_OP record of a transfer. -/
def Transfer.record (t : Transfer) (s : FlashSettings) (m : FlashModel) (effect : ModelEffect) (ctx : CtxId)
    (endTick : Nat) : Record :=
  let ending := t.endAddress s m.wrap
  let flags := [(.elided, t.elided), (.unknownOpcode, t.unknown), (.lanesMissing, t.lanesMissing)] ++ effect.flags
    ++ (ending.map (·.2)).getD []
  { recordOf ctx .flashOp t.startTick endTick (flagWord flags) (t.bytes.map (·.1)) with
    opcode := t.opcode
    address := t.address
    addressBytes := if t.address.isSome then (t.descriptor.map (·.addressBytes)).getD 0 else 0
    modeByte := t.modeByte
    effect := t.descriptor.map (·.effect)
    endAddress := ending.map (·.1)
    busyDuration := effect.busyDuration }

/-! ## The engine -/

/-- R138: what a gap, a suspension or a start leaves; the model is kept (R132). DESIGN CHOICE (assumption log 30): the
engine waits at once, a RESYNC included. -/
def FlashEngine.gap (e : FlashEngine) : FlashEngine := { e with phase := .waiting }

/-- R128, R131, R133, R137: the deassertion that ends a transfer. -/
def FlashEngine.deassert (e : FlashEngine) (s : FlashSettings) (ctx : CtxId) (stamp : Nat) :
    FlashEngine × List Emission :=
  match e.phase with
  | .transfer t =>
    if t.total = 0 then ({ e with phase := .waiting }, [])
    else
      let effect := e.model.apply s t stamp
      ({ e with phase := .waiting, model := effect.model }, [.record (t.record s e.model effect ctx stamp)])
  | .waiting | .resync => ({ e with phase := .waiting }, [])

/-- R128: a transfer clock, where the sample carries one. -/
def FlashEngine.takeClock (e : FlashEngine) (lanes : Lanes) (set : List Descriptor) (x : Reading) : FlashEngine :=
  match e.phase with
  | .transfer t =>
    if x.changes lanes.clock && x.value lanes.clock then
      { e with phase := .transfer (t.clock e.model.wide lanes set x) }
    else e
  | .waiting | .resync => e

/-- A conditioned sample read by a FLASH context (R128 to R138); `set` is the command set it names. DEDUCED (assumption log
57): at a CONTEXT_START in the midst of a run R138's sample is the first one read after it, so a select that falls at that
sample is RESYNC and no assertion. -/
def FlashEngine.sample (e : FlashEngine) (s : FlashSettings) (lanes : Lanes) (set : List Descriptor) (ctx : CtxId)
    (x : Reading) : FlashEngine × List Emission :=
  let asserted := !x.value lanes.select
  if x.fresh then ({ e with phase := if asserted then .resync else .waiting, selected := asserted }, [])
  else if asserted && !e.selected then
    ({ e with phase := .transfer (e.model.newTransfer lanes x.stamp), selected := true }, [])
  else if !asserted && e.selected then
    let (e, out) := e.deassert s ctx x.stamp
    ({ e with selected := false }, out)
  else if asserted then (e.takeClock lanes set x, [])
  else (e, [])

end Sys2Proof.Machine
end

