-- ==== Sys2Proof/Machine/TwoWire.lean ====
section
/-! DEFINITION. Machine/TwoWire.lean: the two-wire engine (chapter 9) as functions of its settings, its state and the
samples of its lanes. -/

namespace Sys2Proof.Machine

/-! ## Messages (R142 to R146) -/

/-- R142: a message opened at a sample. -/
def TwoWireEngine.openMessage (e : TwoWireEngine) (stamp : Nat) : TwoWireEngine :=
  { e with state := .address, startTick := stamp, assembly := [], provisional := none, address := none,
           isRead := false, addressAck := false, bytes := [], stretch := 0, lastFall := none }

/-- R144: no message open any more; the state is the one given. DESIGN CHOICE (assumption log 48): the stretch sum and the
data count are 0 from here on. -/
def TwoWireEngine.closeMessage (e : TwoWireEngine) (state : BusState) : TwoWireEngine :=
  { e.openMessage 0 with state }

/-- R145: the position of the first NAK among data acknowledges. -/
def firstNakOf (acks : List Bool) : Option Nat := acks.findIdx? (!·)

/-- R145: NAK_DATA. -/
def nakData (isRead : Bool) (acks : List Bool) : Bool :=
  if isRead then acks.dropLast.any (!·) else acks.any (!·)

/-- R144, R145, R147: the MESSAGE record of the open message. DESIGN CHOICE (assumption log 54): a message that ends clean
with no complete byte sets STRETCH_EXCESS above the limit, as R147 gives. -/
def TwoWireEngine.message (e : TwoWireEngine) (s : TwoWireSettings) (ctx : CtxId) (endTick : Nat)
    (aborted stuck : Bool) : Record :=
  let acks := e.bytes.map (·.2)
  let flags := flagWord [(.nakAddress, e.address.isSome && !e.addressAck), (.nakData, nakData e.isRead acks),
    (.stretchExcess, decide (s.stretchLimit < e.stretch)), (.aborted, aborted), (.busStuck, stuck)]
  { recordOf ctx .message e.startTick endTick flags (e.bytes.map (·.1)) with
    address := e.address.map BitVec.toNat
    isRead := e.address.map fun _ => e.isRead
    ack := e.address.map fun _ => ⟨e.addressAck, firstNakOf acks, acks.getLast?⟩ }

/-- R146: the address filter. -/
def passesFilter (filter : List (BitVec 7 × BitVec 7)) (address : Option (BitVec 7)) : Bool :=
  match filter, address with
  | [], _ => true
  | _, none => true
  | entries, some a => entries.any fun f => (a &&& f.2) == (f.1 &&& f.2)

/-- R144, R146: the open message ended, emitted or suppressed; its stretch is the last message stretch. -/
def TwoWireEngine.endMessage (e : TwoWireEngine) (s : TwoWireSettings) (ctx : CtxId) (stamp : Nat) (stuck : Bool)
    (next : BusState) : TwoWireEngine × List Emission :=
  let aborted := !stuck && !e.assembly.isEmpty
  ({ e.closeMessage next with lastStretch := e.stretch },
    if passesFilter s.filter e.address then [.record (e.message s ctx stamp aborted stuck)] else [.suppressed])

/-! ## Line events (R141 to R143, R147) -/

/-- Line events (R141). -/
inductive LineEvent where
  | start | stop | rise | fall | quiet
deriving DecidableEq, Repr

/-- R141: the line event of two successive samples. -/
def lineEvent (clockBefore dataBefore clock data : Bool) : LineEvent :=
  match clockBefore, clock with
  | true, true => if dataBefore == data then .quiet else if data then .stop else .start
  | false, true => .rise
  | true, false => .fall
  | false, false => .quiet

/-- R143: a complete byte. -/
def TwoWireEngine.byteComplete (e : TwoWireEngine) (nak : Bool) : TwoWireEngine :=
  let v := bitsMsb e.assembly
  match e.state with
  | .address =>
    { e with state := .data, assembly := [], address := some (BitVec.ofNat 7 (v / 2)), isRead := decide (v % 2 = 1),
             addressAck := !nak }
  | .data | .busFree | .waitFree =>
    { e with assembly := [], bytes := e.bytes ++ [(BitVec.ofNat 8 v, !nak)] }

/-- R141, R143: the provisional bit confirmed at a clock fall. -/
def TwoWireEngine.confirm (e : TwoWireEngine) : TwoWireEngine :=
  match e.provisional with
  | none => e
  | some b =>
    let e := { e with provisional := none }
    if e.assembly.length = 8 then e.byteComplete b else { e with assembly := e.assembly ++ [b] }

/-- R147: the clock-low extension added at a clock rise. A nominal time below the sample step counts as one (2.2). -/
def TwoWireEngine.addStretch (e : TwoWireEngine) (s : TwoWireSettings) (step stamp : Nat) : TwoWireEngine :=
  match e.lastFall with
  | some f => { e with stretch := min (e.stretch + (stamp - f - max s.clockLow step)) (2 ^ 32 - 1), lastFall := none }
  | none => e

/-- Table 9-4: a line event in BUS_FREE, ADDRESS and DATA; WAIT_FREE passes all over. -/
def TwoWireEngine.take (e : TwoWireEngine) (s : TwoWireSettings) (ctx : CtxId) (x : Reading) (data : Bool)
    (event : LineEvent) : TwoWireEngine × List Emission :=
  match e.state, event with
  | .busFree, .start => (e.openMessage x.stamp, [])
  | .busFree, _ => (e, [])
  | .waitFree, _ => (e, [])
  | .address, .start | .data, .start =>
    let (e, out) := e.endMessage s ctx x.stamp false .busFree
    (e.openMessage x.stamp, out)
  | .address, .stop | .data, .stop => e.endMessage s ctx x.stamp false .busFree
  | .address, .rise | .data, .rise => ({ e.addStretch s x.step x.stamp with provisional := some data }, [])
  | .address, .fall | .data, .fall => ({ e.confirm with lastFall := some x.stamp }, [])
  | .address, .quiet | .data, .quiet => (e, [])

/-! ## Stuck bus and recovery (R148, R149) -/

/-- R148: the hold class of the lanes' values. -/
def holdOf (clock data : Bool) : HoldClass :=
  if !clock then .clockLow else if !data then .dataLowClockHigh else .none

/-- R148: the hold class and origin after a sample. -/
def TwoWireEngine.updateHold (e : TwoWireEngine) (clock data : Bool) (stamp : Nat) : TwoWireEngine :=
  if e.hold = holdOf clock data then e else { e with hold := holdOf clock data, holdOrigin := stamp }

/-- R149: the free origin after a sample in WAIT_FREE. -/
def TwoWireEngine.updateFree (e : TwoWireEngine) (clock data : Bool) (stamp : Nat) : TwoWireEngine :=
  if clock && data then { e with freeOrigin := some (e.freeOrigin.getD stamp) } else { e with freeOrigin := none }

/-- R148: the stuck timer has expired at a sample. -/
def TwoWireEngine.stuckDue (e : TwoWireEngine) (s : TwoWireSettings) (stamp : Nat) : Bool :=
  e.state != .waitFree && e.hold != .none && decide (e.holdOrigin + s.stuckLimit ≤ stamp)

/-- R148: WAIT_FREE entered at a stuck expiry. DESIGN CHOICE (assumption log 55): no hold class is kept there, and
CONTEXT_STATUS reports NONE. -/
def TwoWireEngine.toWaitFree (e : TwoWireEngine) : TwoWireEngine :=
  { e with state := .waitFree, hold := .none, freeOrigin := none }

/-- R148: the stuck expiry at a sample, where one is due. -/
def TwoWireEngine.expireStuck (e : TwoWireEngine) (s : TwoWireSettings) (ctx : CtxId) (stamp : Nat) :
    TwoWireEngine × List Emission :=
  if e.stuckDue s stamp then
    match e.state with
    | .address | .data =>
      let (e, out) := e.endMessage s ctx stamp true .waitFree
      (e.toWaitFree, out)
    | .busFree | .waitFree =>
      (e.toWaitFree,
        [.record (recordOf ctx .message e.holdOrigin stamp (flagWord [(.busStuck, true)]) [])])
  else (e, [])

/-- R149: the free expiry at a sample, where one is due. -/
def TwoWireEngine.expireFree (e : TwoWireEngine) (s : TwoWireSettings) (stamp : Nat) : TwoWireEngine :=
  match e.state, e.freeOrigin with
  | .waitFree, some o => if o + s.busFree ≤ stamp then { e with state := .busFree, hold := .none, freeOrigin := none } else e
  | _, _ => e

/-! ## The engine -/

/-- R150: a gap or a suspension: the open message discarded, both timers stopped; the state is set again at the first
sample of the next run. -/
def TwoWireEngine.gap (e : TwoWireEngine) : TwoWireEngine :=
  { e.closeMessage (if e.state = .waitFree then .waitFree else .busFree) with hold := .none, freeOrigin := none }

/-- A conditioned sample read by a TWO_WIRE context (R141 to R150). DEDUCED (assumption log 52): the first sample after a
start, a gap or a resumption carries no line event. -/
def TwoWireEngine.sample (e : TwoWireEngine) (s : TwoWireSettings) (lanes : Lanes) (ctx : CtxId) (x : Reading) :
    TwoWireEngine × List Emission :=
  let clock := x.value lanes.clock
  let data := x.value lanes.data
  if x.fresh then
    ({ e with state := if clock && data then .busFree else .waitFree, hold := .none, freeOrigin := none, clock, data },
      [])
  else
    let (e, stuck) := e.expireStuck s ctx x.stamp
    let e := e.expireFree s x.stamp
    let (e, out) := e.take s ctx x data (lineEvent e.clock e.data clock data)
    let e := if e.state = .waitFree then e.updateFree clock data x.stamp else e.updateHold clock data x.stamp
    ({ e with clock, data }, stuck ++ out)

end Sys2Proof.Machine
end

