-- ==== Sys2Proof/Machine/Decoder.lean ====
section
/-! DEFINITION. Machine/Decoder.lean: the decode controller (chapter 6): a context's engine at a sample, the counting of
records, gaps and suspensions, the record path, the decoded-record queue, and the requests of Table 12-2 that DEC
owns. -/

namespace Sys2Proof.Machine

/-! ## Engines by protocol -/

/-- R89: the rate check of a context at a level. -/
def Context.decodesAt (c : Context) (level : Level) : Bool :=
  match c.protocol with
  | some .async => c.asyncSettings.decodesAt level
  | some .clocked | some .flash | some .twoWire | none => true

/-- R87, R90: the partial unit discarded and the engine left as its chapter states for a gap. -/
def Context.gap (c : Context) : Context :=
  match c.protocol with
  | some .async => { c with asyncEngine := c.asyncEngine.gap, fresh := true }
  | some .clocked => { c with clockedEngine := c.clockedEngine.gap, fresh := true }
  | some .flash => { c with flashEngine := c.flashEngine.gap, fresh := true }
  | some .twoWire => { c with twoWireEngine := c.twoWireEngine.gap, fresh := true }
  | none => c

/-- R85: the partial unit alone discarded. DESIGN CHOICE (assumption log 30): a frame or BREAK in progress leaves the
receiver phase HUNT_SYNC with no mark-since, as R107 gives for a gap. -/
def AsyncEngine.discard (e : AsyncEngine) : AsyncEngine :=
  match e.phase with
  | .frame | .breakWait => { e with phase := .huntSync, frame := none, markSince := none }
  | .huntSync | .huntNext => e

/-- R85: CONTEXT_STOP discards the partial unit. DESIGN CHOICE (assumption log 30): an ASYNC engine keeps the rest as it
stands, the other engines are left as at a gap. -/
def Context.discardUnit (c : Context) : Context :=
  match c.protocol with
  | some .async => { c with asyncEngine := c.asyncEngine.discard }
  | some .clocked | some .flash | some .twoWire => c.gap
  | none => c

/-- R84: the protocol state initialised for the configured settings; a flash target model is kept (R132). DESIGN CHOICE
(assumption log 49): until the first sample it reads sets its state (R125, R138, R150), a TWO_WIRE engine is BUS_FREE,
a FLASH engine waits and a CLOCKED engine is READY. -/
def Context.initEngine (c : Context) (level : Level) : Context :=
  let c := { c with fresh := true, started := true }
  match c.protocol with
  | some .async =>
    { c with asyncEngine := .start c.asyncSettings (c.asyncSettings.clampPeriod level c.asyncSettings.nominal) }
  | some .clocked => { c with clockedEngine := {} }
  | some .flash => { c with flashEngine := { model := c.flashEngine.model } }
  | some .twoWire => { c with twoWireEngine := {} }
  | none => c

/-- R103: the period of an ASYNC context clamped at a gap end that leaves it RUNNING. -/
def Context.reclamp (c : Context) (level : Level) : Context :=
  match c.protocol with
  | some .async => { c with asyncEngine := c.asyncEngine.reclamp c.asyncSettings level }
  | some .clocked | some .flash | some .twoWire | none => c

/-- The command set a FLASH context names (R126). -/
def Dec.namedSet (d : Dec) : SetName → List Descriptor
  | .a => d.setA
  | .b => d.setB

/-- R83: a conditioned sample read by the engine of a context. -/
def Context.engineSample (c : Context) (d : Dec) (id : CtxId) (x : Reading) : Context × List Emission :=
  match c.protocol with
  | some .async =>
    let (e, out) := c.asyncEngine.sample c.asyncSettings c.lanes id d.level x
    ({ c with asyncEngine := e, fresh := false }, out)
  | some .clocked =>
    let (e, out) := c.clockedEngine.sample c.clockedSettings c.lanes id x
    ({ c with clockedEngine := e, fresh := false }, out)
  | some .flash =>
    let (e, out) := c.flashEngine.sample c.flashSettings c.lanes (d.namedSet c.flashSettings.set) id x
    ({ c with flashEngine := e, fresh := false }, out)
  | some .twoWire =>
    let (e, out) := c.twoWireEngine.sample c.twoWireSettings c.lanes id x
    ({ c with twoWireEngine := e, fresh := false }, out)
  | none => (c, [])

/-! ## Emission and counting (R91, R93, R94) -/

/-- What a context gave at one event: its records in emission order, and whether it raises LOCK_CHANGE or
ERROR_THRESHOLD. -/
structure Emitted where
  context : Context
  records : List Record := []
  lock : Bool := false
  error : Bool := false
deriving DecidableEq, Repr

/-- R94: the error counter against its threshold; the flag says that ERROR_THRESHOLD is raised. -/
def Context.checkErrors (c : Context) : Context × Bool :=
  if c.errors < c.errorThreshold then ({ c with armed := true }, false) else ({ c with armed := false }, c.armed)

/-- R94: a record counted. -/
def Context.count (c : Context) (r : Record) : Context × Bool :=
  if r.isError then { c with errors := bump 65535 c.errors }.checkErrors
  else ({ c with good := bump (2 ^ 32 - 1) c.good }, false)

/-- R93: the record carries a pending AFTER_GAP away. -/
def Context.mark (c : Context) (r : Record) : Record := if c.afterGap then r.withFlag .afterGap else r

/-- R91, R93, R94, R116: one emission of the engine applied to its context. -/
def Emitted.add (o : Emitted) (e : Emission) : Emitted :=
  match e with
  | .record r =>
    let r := o.context.mark r
    let (c, raised) := { o.context with afterGap := false }.count r
    { o with context := c, records := o.records ++ [r], error := o.error || raised }
  | .suppressed => { o with context := { o.context with suppressed := bump 65535 o.context.suppressed } }
  | .lockChange => { o with lock := true }

/-- Every emission of one event, in order. -/
def Context.emit (c : Context) (out : List Emission) : Emitted := out.foldl Emitted.add { context := c }

/-- A context at a sample: only RUNNING ones read (Table 6-3). -/
def Context.read (c : Context) (d : Dec) (id : CtxId) (x : Conditioned) (step : Nat) : Emitted :=
  if c.state = .running then
    let (c, out) := c.engineSample d id ⟨x.stamp, step, x.lines, x.changed, c.fresh⟩
    c.emit out
  else { context := c }

/-! ## The record path (R95) -/

/-- R95: a record as it enters the path, with the consumers whose condition holds; none when none does. -/
def State.pathItem (s : State) (r : Record) : Option PathItem :=
  let c := s.context r.context
  let item : PathItem := ⟨r, c.report, s.trg.state == .running, if c.annotate then s.capturing? else none⟩
  if item.toQueue || item.toTrigger || item.toSegment.isSome then some item else none

/-- R95: the records of one moment enter the path together. -/
def State.enterPath (s : State) (records : List Record) : State :=
  match records.filterMap s.pathItem with
  | [] => s
  | batch => s.setDec { s.dec with path := s.dec.path ++ [batch] }

/-- What the contexts gave at one event: contexts replaced, notices raised (R94, R116), records on the path. -/
def State.applyEmitted (s : State) (out : Vector Emitted 16) : State :=
  let s := s.setDec { s.dec with contexts := out.map (·.context) }
  let s := (s.raiseLock (setOf fun i => out[i].lock)).raiseError (setOf fun i => out[i].error)
  s.enterPath (out.toList.flatMap (·.records))

/-- R83: a conditioned sample read by every RUNNING context. -/
def State.decodeSample (s : State) (x : Conditioned) (step : Nat) : State :=
  s.applyEmitted (mapIds s.dec.contexts fun id c => c.read s.dec id x step)

/-! ## The decoded-record queue (R96, R97) -/

/-- R97: QUEUE_LEVEL after the occupancy or the threshold has changed. -/
def State.checkQueue (s : State) : State :=
  if s.dec.queue.length < s.dec.threshold then s.setDec { s.dec with armed := true }
  else if s.dec.armed then (s.setDec { s.dec with armed := false }).raise .queueLevel
  else s

/-- R97: a record appended. -/
def State.queuePush (s : State) (r : Record) : State :=
  (s.setDec { s.dec with queue := s.dec.queue ++ [r] }).checkQueue

/-- R97: the lost span with one more record. -/
def LostSpan.widen (x : LostSpan) (r : Record) : LostSpan :=
  { x with startTick := min x.startTick r.startTick, endTick := max x.endTick r.endTick }

/-- R97: a record offered to the queue. -/
def State.offerQueue (s : State) (r : Record) : State :=
  if s.dec.isOpen then
    if s.dec.queue.length < Config.queueDepth then s.queuePush r
    else
      (s.setDec { s.dec with isOpen := false, lost := 1, span := some ⟨r.context, r.startTick, r.endTick⟩ }).raise
        .queueClosed
  else
    s.setDec { s.dec with lost := bump32 s.dec.lost,
                          span := some (match s.dec.span with
                            | some x => x.widen r
                            | none => ⟨r.context, r.startTick, r.endTick⟩) }

/-- R70, R95: the annotation writer takes a record only for the segment that was capturing at its entry and is still. -/
def State.offerWriter (s : State) (toSegment : Option SegId) (r : Record) : State :=
  match toSegment with
  | some id => if (s.segment id).state.isCapturing then s.writeAnnotation id r else s
  | none => s

/-- R95: one item delivered to its consumers. -/
def State.deliver (s : State) (i : PathItem) : State :=
  let s := if i.toQueue then s.offerQueue i.record else s
  let s := if i.toTrigger then s.triggerRecord i.record else s
  s.offerWriter i.toSegment i.record

/-- The first item of a context in a batch, and the batch without it. -/
def takeItem (ctx : CtxId) : List PathItem → Option (PathItem × List PathItem)
  | [] => none
  | i :: rest =>
    if i.record.context = ctx then some (i, rest)
    else
      match takeItem ctx rest with
      | some (j, others) => some (j, i :: others)
      | none => none

/-- R95: the path passes on the record of a context from the oldest moment; where that moment holds none of it,
nothing happens. -/
def State.deliverNext (s : State) (ctx : CtxId) : State :=
  match s.dec.path with
  | [] => s
  | batch :: rest =>
    match takeItem ctx batch with
    | none => s
    | some (i, []) => (s.setDec { s.dec with path := rest }).deliver i
    | some (i, others) => (s.setDec { s.dec with path := others :: rest }).deliver i

/-! ## Gaps and suspensions (R87, R88, R90) -/

/-- R87: a gap begin at one context. -/
def Context.gapBegin (c : Context) : Context := if c.state = .running then { c.gap with afterGap := true } else c

/-- R87. -/
def State.gapBegin (s : State) : State :=
  s.setDec { s.dec with gap := true, contexts := s.dec.contexts.map Context.gapBegin }

/-- R88: the gap ends apply to these states. -/
def CtxState.followsGapEnd : CtxState → Bool
  | .running | .suspended .standby | .suspended .rateUnsupported => true
  | .free | .idle | .suspended .calibration => false

/-- R88: a gap end at one context. -/
def Context.gapEnd (level : Level) (c : Context) : Context :=
  if c.state.followsGapEnd then
    if level = .standby then { c with state := .suspended .standby, afterGap := true }
    else if !c.decodesAt level then { c with state := .suspended .rateUnsupported, afterGap := true }
    else
      let c := { c with afterGap := if c.state = CtxState.running then c.afterGap else true, fresh := true }
      { c with state := .running }.reclamp level
  else c

/-- R88. -/
def State.gapEnd (s : State) (level : Level) : State :=
  s.setDec { s.dec with gap := false, level, contexts := s.dec.contexts.map (Context.gapEnd level) }

/-- R90: a suspension for calibration at one context. -/
def Context.suspendForCal (c : Context) : Context :=
  if c.state = .running then { c.gap with afterGap := true, state := .suspended .calibration } else c

/-- R90, R31. -/
def State.suspendContexts (s : State) : State :=
  s.setDec { s.dec with contexts := s.dec.contexts.map Context.suspendForCal }

/-- R90: a resumption after calibration at one context. -/
def Context.resumeFromCal (c : Context) : Context :=
  if c.state = .suspended .calibration then { c with state := .running, afterGap := true, fresh := true } else c

/-- R90, R36. -/
def State.resumeContexts (s : State) : State :=
  s.setDec { s.dec with contexts := s.dec.contexts.map Context.resumeFromCal }

/-! ## Protocol timers taken ahead of the next sample (assumption log 4) -/

/-- One context at an expiry: its engine's emissions applied as at a sample. -/
def State.expireContext (s : State) (id : CtxId) (protocol : Protocol)
    (expire : Context → Nat → Context × List Emission) : State :=
  match s.pfe.nextSample with
  | none => s
  | some x =>
    let c := s.context id
    if c.state = .running ∧ c.protocol = some protocol then
      let (c, out) := expire c x.stamp
      let o := c.emit out
      let s := s.setContext id o.context
      let s := if o.error then s.raiseError (BitVec.twoPow 16 id.val) else s
      s.enterPath o.records
    else s

/-! ## Requests on contexts -/

/-- R80: a context id of 16 or more is BAD_PARAM. -/
def onContext (b : Byte) (body : CtxId → State → State × Response) (s : State) : State × Response :=
  match idOf 16 b with
  | some id => body id s
  | none => answer .badParam s

/-- R80: a request that names a FREE context is NOT_FOUND. -/
def onOpenContext (b : Byte) (body : CtxId → State → State × Response) (s : State) : State × Response :=
  onContext b (fun id s => if (s.context id).state = .free then answer .notFound s else body id s) s

/-- R81. -/
def bodyContextOpen (id : CtxId) (s : State) : State × Response :=
  if (s.context id).state = .free then (s.setContext id { state := .idle }, .only .ok) else answer .wrongState s

/-- R81. -/
def bodyContextClose (id : CtxId) (s : State) : State × Response :=
  if (s.context id).state = .idle then (s.setContext id {}, .only .ok) else answer .wrongState s

/-- R82, R119, R132: a taken CONTEXT_CONFIGURE at its context, before the threshold is compared. DESIGN CHOICE
(assumption log 31): a context that has been started and is configured as CLOCKED or TWO_WIRE keeps that engine as it was
left last. -/
def Context.configured (c : Context) (k : Configured) (p : ConfigureParams) : Context :=
  let settings := k.async.getD c.asyncSettings
  { c with
    protocol := some k.protocol
    lanes := k.lanes
    report := p.report
    annotate := p.annotate
    errorThreshold := clamp 1 65535 p.errorThreshold
    asyncSettings := settings
    clockedSettings := k.clocked.getD c.clockedSettings
    flashSettings := k.flash.getD c.flashSettings
    twoWireSettings := k.twoWire.getD c.twoWireSettings
    asyncEngine := if k.protocol = .async ∧ (!c.started ∨ c.protocol ≠ some .async) then
        .start settings settings.nominal else c.asyncEngine
    flashEngine := if c.protocol = some .flash ∧ k.protocol ≠ .flash then {} else c.flashEngine }

/-- R82, R94. DESIGN CHOICE (assumption log 40): the context's state is tested before the parameters. -/
def bodyContextConfigure (p : ConfigureParams) (id : CtxId) (s : State) : State × Response :=
  if (s.context id).state ≠ .idle then answer .wrongState s
  else
    match acceptProtocol p.protocol with
    | none => answer .badParam s
    | some k =>
      let (c, raised) := ((s.context id).configured k p).checkErrors
      let s := s.setContext id c
      (if raised then s.raiseError (BitVec.twoPow 16 id.val) else s, .only .ok)

/-- R84: the state a started context enters. -/
def State.startedState (s : State) (c : Context) : CtxState :=
  if s.dec.level = .standby then .suspended .standby
  else if !c.decodesAt s.dec.level then .suspended .rateUnsupported
  else if s.cal.isActive then .suspended .calibration
  else .running

/-- R84, R41. -/
def bodyContextStart (id : CtxId) (s : State) : State × Response :=
  let c := s.context id
  if c.state ≠ .idle ∨ c.protocol = none then answer .wrongState s
  else
    (s.setContext id { c.initEngine s.dec.level with afterGap := s.dec.gap, state := s.startedState c }, .only .ok)

/-- R85. -/
def bodyContextStop (id : CtxId) (s : State) : State × Response :=
  match (s.context id).state with
  | .running | .suspended _ =>
    (s.setContext id { (s.context id).discardUnit with afterGap := false, state := .idle }, .only .ok)
  | .idle | .free => answer .wrongState s

/-- R118, R125, R138, R151: the engine state CONTEXT_STATUS returns. DESIGN CHOICE: none for a context with no protocol
(assumption log 31); generic bytes and an undecodable wide command are phases of their own (assumption log 43); no hold
origin while the hold class is NONE (assumption log 47). -/
def Context.engineReport (c : Context) : EngineReport :=
  match c.protocol with
  | none => .none
  | some .async =>
    let e := c.asyncEngine
    .async c.asyncSettings.mode e.tracker e.period (e.tracker == .narrow) e.goodRun e.badRun e.intervals.length e.phase
      e.idleArmed e.pass
  | some .clocked => .clocked c.clockedEngine.phase c.clockedEngine.outBits.length
  | some .flash =>
    let e := c.flashEngine
    .flash e.model (e.model.continuation.map (·.opcode)) (e.phase == .resync)
      (match e.phase with
        | .transfer t => some t.phase
        | .waiting | .resync => none)
  | some .twoWire =>
    let e := c.twoWireEngine
    .twoWire e.state e.assembly.length (min e.bytes.length 65535) e.stretch e.hold
      (if e.hold = .none then none else some e.holdOrigin) e.freeOrigin e.lastStretch

/-- R86: what CONTEXT_STATUS returns. -/
def Context.statusReport (c : Context) : ContextReport where
  state := c.state
  protocol := c.protocol
  lanes := c.lanes
  report := c.report
  annotate := c.annotate
  errorThreshold := c.errorThreshold
  afterGap := c.afterGap
  good := c.good
  errors := c.errors
  suppressed := c.suppressed
  asyncSettings := c.asyncSettings
  clockedSettings := c.clockedSettings
  flashSettings := c.flashSettings
  twoWireSettings := c.twoWireSettings
  engine := c.engineReport

/-- R86, R94: the three counters 0 and the threshold armed. -/
def Context.cleared (c : Context) : Context := { c with good := 0, errors := 0, suppressed := 0, armed := true }

/-- R86. -/
def bodyContextStatus (id : CtxId) (s : State) : State × Response :=
  (s.setContext id (s.context id).cleared, ⟨.ok, .context (s.context id).statusReport⟩)

/-! ## Requests on command sets and models -/

/-- R127: a RUNNING FLASH context names the set. -/
def Dec.setInUse (d : Dec) (name : SetName) : Bool :=
  d.contexts.any fun c => c.state == .running && c.protocol == some .flash && c.flashSettings.set == name

/-- R127, R187. -/
def bodyFlashSetLoad (params : List Byte) (s : State) : State × Response :=
  match flashLoadOf params with
  | none => answer .badParam s
  | some (name, ds) =>
    if s.dec.setInUse name then answer .busy s
    else
      match name with
      | .a => (s.setDec { s.dec with setA := ds }, .only .ok)
      | .b => (s.setDec { s.dec with setB := ds }, .only .ok)

/-- R132. DESIGN CHOICE (assumption log 46): BUSY is tested before WRONG_STATE. -/
def bodyFlashModelClear (id : CtxId) (s : State) : State × Response :=
  let c := s.context id
  if c.state = .running then answer .busy s
  else if c.protocol ≠ some .flash then answer .wrongState s
  else (s.setContext id { c with flashEngine := { c.flashEngine with model := {} } }, .only .ok)

/-! ## Requests on the queue -/

/-- R98: the records a RECORDS_TAKE removes. -/
def takenCount (count : Nat) : Nat := min count 16

/-- R97, R98: the oldest records removed; the level flag is set again below the threshold. -/
def State.dequeue (s : State) (n : Nat) : State :=
  let queue := s.dec.queue.drop n
  s.setDec { s.dec with queue := queue, armed := if queue.length < s.dec.threshold then true else s.dec.armed }

/-- R98. -/
def bodyRecordsTake (count : Nat) (s : State) : State × Response :=
  let t := s.dequeue (takenCount count)
  (t, ⟨.ok, .records t.dec.isOpen t.dec.queue.length t.dec.lost (s.dec.queue.take (takenCount count))⟩)

/-- R99. -/
def bodyQueueThresholdSet (threshold : Nat) (s : State) : State × Response :=
  ((s.setDec { s.dec with threshold := clamp 1 512 threshold }).checkQueue, .only .ok)

/-- R99. -/
def bodyQueueStatus (s : State) : State × Response :=
  tell (.queue s.dec.queue.length s.dec.isOpen s.dec.lost s.dec.span s.dec.threshold s.dec.armed) s

/-- R100: the GAP record of a lost span. -/
def gapRecord (x : LostSpan) (lost : Nat) : Record :=
  { context := x.context, kind := .gap, startTick := x.startTick, endTick := x.endTick, flags := 0#32, length := 0,
    head := [], lost := some lost }

/-- R100: the loss acknowledged. -/
def State.acknowledgeGap (s : State) : State :=
  let gap := gapRecord (s.dec.span.getD ⟨0, 0, 0⟩) s.dec.lost
  let s := s.queuePush gap
  s.setDec { s.dec with lost := 0, span := none, isOpen := true }

/-- R100. -/
def bodyQueueAckGap (s : State) : State × Response :=
  if s.dec.isOpen then answer .ok s
  else if Config.queueDepth ≤ s.dec.queue.length then answer .full s
  else (s.acknowledgeGap, .only .ok)

/-! ## Commands -/

/-- CONTEXT_OPEN (R81). -/
def execContextOpen (fit : Fit) (context : Byte) (s : State) : Host.Outcome State Fault Refusal :=
  done (request false fit (onContext context bodyContextOpen) s)

/-- CONTEXT_CLOSE (R81). -/
def execContextClose (fit : Fit) (context : Byte) (s : State) : Host.Outcome State Fault Refusal :=
  done (request false fit (onOpenContext context bodyContextClose) s)

/-- CONTEXT_CONFIGURE (R82). -/
def execContextConfigure (fit : Fit) (context : Byte) (params : ConfigureParams) (s : State) :
    Host.Outcome State Fault Refusal :=
  done (request false fit (onOpenContext context (bodyContextConfigure params)) s)

/-- CONTEXT_START (R84). -/
def execContextStart (fit : Fit) (context : Byte) (s : State) : Host.Outcome State Fault Refusal :=
  done (request false fit (onOpenContext context bodyContextStart) s)

/-- CONTEXT_STOP (R85). -/
def execContextStop (fit : Fit) (context : Byte) (s : State) : Host.Outcome State Fault Refusal :=
  done (request false fit (onOpenContext context bodyContextStop) s)

/-- CONTEXT_STATUS (R86). -/
def execContextStatus (fit : Fit) (context : Byte) (s : State) : Host.Outcome State Fault Refusal :=
  done (request false fit (onOpenContext context bodyContextStatus) s)

/-- FLASH_SET_LOAD (R127, R187). -/
def execFlashSetLoad (params : List Byte) (s : State) : Host.Outcome State Fault Refusal :=
  done (request false .enough (bodyFlashSetLoad params) s)

/-- FLASH_MODEL_CLEAR (R132). -/
def execFlashModelClear (fit : Fit) (context : Byte) (s : State) : Host.Outcome State Fault Refusal :=
  done (request false fit (onOpenContext context bodyFlashModelClear) s)

/-- RECORDS_TAKE (R98). -/
def execRecordsTake (fit : Fit) (count : Nat) (s : State) : Host.Outcome State Fault Refusal :=
  done (request false fit (bodyRecordsTake count) s)

/-- QUEUE_THRESHOLD_SET (R99). -/
def execQueueThresholdSet (fit : Fit) (threshold : Nat) (s : State) : Host.Outcome State Fault Refusal :=
  done (request false fit (bodyQueueThresholdSet threshold) s)

/-- QUEUE_STATUS (R99). -/
def execQueueStatus (s : State) : Host.Outcome State Fault Refusal := done (request false .enough bodyQueueStatus s)

/-- QUEUE_ACK_GAP (R100). -/
def execQueueAckGap (s : State) : Host.Outcome State Fault Refusal := done (request false .enough bodyQueueAckGap s)

/-- RECORD_PATH_DELIVERY (R95). -/
def execRecordPathDelivery (context : CtxId) (s : State) : Host.Outcome State Fault Refusal :=
  done (s.deliverNext context)

/-- IDLE_TIMER_EXPIRY (R113). -/
def execIdleTimerExpiry (context : CtxId) (s : State) : Host.Outcome State Fault Refusal :=
  done (s.expireContext context .async fun c stamp =>
    let (e, out) := c.asyncEngine.expireIdle c.asyncSettings context stamp
    ({ c with asyncEngine := e }, out))

/-- WORD_GAP_TIMER_EXPIRY (R124). -/
def execWordGapTimerExpiry (context : CtxId) (s : State) : Host.Outcome State Fault Refusal :=
  done (s.expireContext context .clocked fun c stamp =>
    let (e, out) := c.clockedEngine.expireGap c.clockedSettings c.lanes context stamp
    ({ c with clockedEngine := e }, out))

/-- STUCK_TIMER_EXPIRY (R148). -/
def execStuckTimerExpiry (context : CtxId) (s : State) : Host.Outcome State Fault Refusal :=
  done (s.expireContext context .twoWire fun c stamp =>
    let (e, out) := c.twoWireEngine.expireStuck c.twoWireSettings context stamp
    ({ c with twoWireEngine := e }, out))

/-- BUS_FREE_TIMER_EXPIRY (R149). -/
def execBusFreeTimerExpiry (context : CtxId) (s : State) : Host.Outcome State Fault Refusal :=
  done (s.expireContext context .twoWire fun c stamp =>
    ({ c with twoWireEngine := c.twoWireEngine.expireFree c.twoWireSettings stamp }, []))

end Sys2Proof.Machine
end

