-- ==== Sys2Proof/Machine/Display.lean ====
section
/-! DEFINITION. Machine/Display.lean: the display engine (chapter 11): views, the refresh, the cells of a column, labels,
the send, and the requests of Table 12-2 that DSP owns. -/

namespace Sys2Proof.Machine

/-! ## Columns (R168) -/

/-- R168: the first tick of a column. -/
def View.columnBegin (v : View) (c : Nat) : Nat := v.start + c * v.ticksPerColumn

/-- R168: the tick just past a column. -/
def View.columnEnd (v : View) (c : Nat) : Nat := v.start + (c + 1) * v.ticksPerColumn

/-- R168: the start tick that follow computes. -/
def followStart (firstRetainedTick horizon ticksPerColumn : Nat) : Nat :=
  max firstRetainedTick (horizon - Config.columns * ticksPerColumn)

/-! ## Channel cells (R48, R172) -/

/-- A stretch of ticks over which the line state is known: its ends, the state, and the state in force before it. -/
structure Piece where
  first : Nat
  last : Nat
  state : Lines
  before : Lines
deriving DecidableEq, Repr

/-- R48: the known pieces from a tick and state on. `before` is the state in force before that tick's entry. A DROPOUT
leaves only the tick of the entry before it known; an EXTEND changes nothing, and one that precedes a DROPOUT lies in
its interval (R53). -/
def knownPieces (horizon tick : Nat) (state before : Lines) : List ReadEntry → List Piece
  | [] => [⟨tick, horizon, state, before⟩]
  | e :: rest =>
    match e.kind with
    | .start | .extend => knownPieces horizon tick state before rest
    | .change => ⟨tick, e.tick - 1, state, before⟩ :: knownPieces horizon e.tick e.state state rest
    | .dropout => ⟨tick, tick, state, before⟩ :: knownPieces horizon e.tick e.state state rest

/-- R172: the part of a piece that lies in a column, between a first and a last tick. -/
def Piece.overlaps (p : Piece) (lo hi : Nat) : Bool := decide (max p.first lo ≤ min p.last hi ∧ p.first ≤ p.last)

/-- R172: the entry that begins a piece changes a channel within the known part. -/
def Piece.edgeIn (p : Piece) (lo : Nat) (ch : Chan) : Bool :=
  decide (lo ≤ p.first) && inSet p.state ch.val != inSet p.before ch.val

/-- R172: a CHANNEL cell from the known pieces of its column. -/
def channelCell (pieces : List Piece) (lo hi : Nat) (ch : Chan) : Cell :=
  let known := pieces.filter fun p => p.overlaps lo hi
  if known.isEmpty then .noData
  else if known.any (fun p => p.edgeIn lo ch)
      || (known.any (fun p => inSet p.state ch.val) && known.any fun p => !inSet p.state ch.val) then .edge
  else if known.any (fun p => inSet p.state ch.val) then .high
  else .low

/-- R171, R172: the known pieces of a segment up to a horizon, as CAP serves it now. -/
def Cap.pieces (c : Cap) (g : Segment) (horizon : Nat) : List Piece :=
  match g.records.head with
  | none => []
  | some p =>
    let h := servedHeader c.served p
    knownPieces horizon h.baseTick h.baseState h.baseState
      ((c.retainedEntries g).filter fun e => decide (e.tick ≤ horizon))

/-! ## Annotation cells and labels (R173, R174) -/

/-- R173: the ticks an annotation occupies end here. -/
def Annotation.lastTick (a : Annotation) : Nat := a.startTick + a.duration

/-- R173: an ANNOTATION cell of the column with ticks `lo..hi`. -/
def annotationCell (annotations : List Annotation) (lo hi : Nat) : Cell :=
  match annotations.filter fun a => decide (a.startTick ≤ hi ∧ lo ≤ a.lastTick) with
  | [] => .empty
  | [a] =>
    match decide (lo ≤ a.startTick ∧ a.startTick ≤ hi), decide (lo ≤ a.lastTick ∧ a.lastTick ≤ hi) with
    | true, true => .boxOne
    | true, false => .boxStart
    | false, true => .boxEnd
    | false, false => .boxBody
  | _ => .dense

/-- R174: the label of an annotation, when it overlaps at least 16 columns of the view. -/
def View.labelOf (v : View) (a : Annotation) : Option Label :=
  if a.lastTick < v.start then none
  else
    let first := (a.startTick - v.start) / v.ticksPerColumn
    let last := min ((a.lastTick - v.start) / v.ticksPerColumn) (Config.columns - 1)
    if first + Config.labelColumns ≤ last + 1 then some ⟨first, a.kind, a.firstByte⟩ else none

/-- R174: the label list of a row and its LABELS_DROPPED mark. -/
def CellRow.withLabels (r : CellRow) (labels : List Label) : CellRow :=
  { r with labels := labels.take Config.labelDepth, labelsDropped := decide (Config.labelDepth < labels.length) }

/-! ## A column (R171) -/

/-- The segment a refresh reads, while CAP serves it: none after an abort (R171). -/
def State.refreshed (s : State) : Option Segment :=
  match s.dsp.active.segment with
  | some id => if (s.segment id).discarded = none then some (s.segment id) else none
  | none => none

/-- R171 to R173: the cell of a row in a column. -/
def State.cellOf (s : State) (column : Nat) : Row → Cell
  | .channel ch =>
    match s.refreshed with
    | none => .noData
    | some g =>
      let horizon := s.dsp.horizon.getD 0
      channelCell (s.cap.pieces g horizon) (max (s.dsp.active.columnBegin column) g.firstRetainedTick)
        (min (s.dsp.active.columnEnd column - 1) horizon) ch
  | .annotation ctx =>
    match s.refreshed with
    | none => .empty
    | some g =>
      annotationCell
        (((s.cap.retainedAnnotations g (s.dsp.annotationHorizon.getD 0)).map (·.2)).filter fun a =>
          decide (a.context = ctx))
        (s.dsp.active.columnBegin column) (s.dsp.active.columnEnd column - 1)

/-- R174: the labels of a row. -/
def State.labelsOf (s : State) : Row → List Label
  | .channel _ => []
  | .annotation ctx =>
    match s.refreshed with
    | none => []
    | some g =>
      ((s.cap.retainedAnnotations g (s.dsp.annotationHorizon.getD 0)).map (·.2)).filterMap fun a =>
        if a.context = ctx then s.dsp.active.labelOf a else none

/-- R171, R174: one more cell in a row; the labels with the last column (assumption log 19). -/
def State.extendRow (s : State) (column : Nat) (row : Row) (cells : CellRow) : CellRow :=
  let cells := { cells with cells := cells.cells ++ [s.cellOf column row] }
  if column + 1 = Config.columns then cells.withLabels (s.labelsOf row) else cells

/-- R171: one column formed, all rows together; after the last one the send begins. -/
def State.readColumn (s : State) : State :=
  let column := s.dsp.nextColumn
  let map := List.zipWith (s.extendRow column) s.dsp.active.rows s.dsp.cellMap
  (s.setDsp { s.dsp with
    cellMap := map
    nextColumn := column + 1
    state := if Config.columns ≤ column + 1 then .sending else .reading }).settlePort

/-! ## Starting and completing (R170, R175) -/

/-- R170: the active view of a refresh that starts now. -/
def View.activated (v : View) (g : Segment) : View :=
  if v.follow then { v with start := followStart g.firstRetainedTick g.lastTick v.ticksPerColumn } else v

/-- R170: a refresh starts on a segment whose pin is granted. -/
def State.startRefresh (s : State) (id : SegId) : State :=
  let g := s.segment id
  let s := s.pin id
  s.setDsp { s.dsp with active := s.dsp.staged.activated g, state := .reading, horizon := some g.lastTick,
                        annotationHorizon := some g.annotationsStored, nextColumn := 0,
                        cellMap := s.dsp.staged.rows.map fun _ => {} }

/-- R175: the pending refresh is not drawn. -/
def State.notDrawn (s : State) : State := (s.setDsp { s.dsp with outcome := .notDrawn }).raise .refreshDone

/-- R175: the pending refresh examined at a completion. DESIGN CHOICE (assumption log 56): by the levels at the completion
alone, also where STANDBY was entered and left again during the refresh. -/
def State.startPendingRefresh (s : State) : State :=
  if s.lvl.touchesStandby then s.notDrawn
  else
    match s.dsp.staged.segment with
    | none => s.notDrawn
    | some id => if (s.segment id).pinnable then s.startRefresh id else s.notDrawn

/-- R175: the end of the send. -/
def State.completeRefresh (s : State) : State :=
  let s :=
    match s.dsp.active.segment with
    | some id => s.unpin id
    | none => s
  let pending := s.dsp.pending
  let s := (s.setDsp { s.dsp with outcome := .drawn, state := .idle, pending := false }).raise .refreshDone
  if pending then s.startPendingRefresh else s

/-- What the panel link carries: the cell map while it is sent (R175); nothing otherwise. -/
def Dsp.panelLink (d : Dsp) : Option (View × Option Nat × List CellRow) :=
  match d.state with
  | .sending => some (d.active, d.horizon, d.cellMap)
  | .idle | .reading => none

/-! ## Requests and events -/

/-- R167. -/
def bodyViewSet (params : ViewParams) (s : State) : State × Response :=
  match acceptView params with
  | some v => (s.setDsp { s.dsp with staged := v }, .only .ok)
  | none => answer .badParam s

/-- R169. -/
def bodyRefresh (s : State) : State × Response :=
  if s.lvl.touchesStandby then answer .level s
  else
    match s.dsp.staged.segment with
    | none => answer .notFound s
    | some id =>
      if s.dsp.state ≠ .idle then (s.setDsp { s.dsp with pending := true }, .only .accepted)
      else if (s.segment id).pinnable then (s.startRefresh id, .only .accepted)
      else answer .notFound s

/-- R177. -/
def bodyDisplayStatus (s : State) : State × Response :=
  tell (.display s.dsp.staged s.dsp.active s.dsp.state s.dsp.pending s.dsp.outcome s.dsp.horizon s.dsp.annotationHorizon
    (if s.dsp.state = .reading then some s.dsp.nextColumn else none)) s

/-- VIEW_SET (R167). -/
def execViewSet (fit : Fit) (params : ViewParams) (s : State) : Host.Outcome State Fault Refusal :=
  done (request false fit (bodyViewSet params) s)

/-- REFRESH (R169, R170). -/
def execRefresh (s : State) : Host.Outcome State Fault Refusal := done (request false .enough bodyRefresh s)

/-- DISPLAY_STATUS (R177). -/
def execDisplayStatus (s : State) : Host.Outcome State Fault Refusal :=
  done (request false .enough bodyDisplayStatus s)

/-- REFRESH_COLUMN_READ (R171): only a refresh in READING reads columns. -/
def execRefreshColumnRead (s : State) : Host.Outcome State Fault Refusal :=
  done (if s.dsp.state = .reading then s.readColumn else s)

/-- REFRESH_SEND_COMPLETE (R175): only a refresh in SENDING has a send to end. -/
def execRefreshSendComplete (s : State) : Host.Outcome State Fault Refusal :=
  done (if s.dsp.state = .sending then s.completeRefresh else s)

end Sys2Proof.Machine
end

