-- ==== Sys2Proof/Machine/Calibration.lean ====
section
/-! DEFINITION. Machine/Calibration.lean: the calibration unit (chapter 3): the pattern, its steps, the comparisons, the
results, and the requests of Table 12-2 that CAL owns. -/

namespace Sys2Proof.Machine

/-! ## The pattern (R32, R33) -/

/-- R32: one advance: stage 15 exclusive-or stage 14 enters stage 1. -/
def advancePattern (p : BitVec 15) : BitVec 15 :=
  (p <<< 1) ||| (if p.getLsbD 14 != p.getLsbD 13 then 1#15 else 0#15)

/-- R32: the register after a number of advances from a load of the seed. -/
def patternAfter (seed : Nat) : Nat → BitVec 15
  | 0 => BitVec.ofNat 15 seed
  | n + 1 => advancePattern (patternAfter seed n)

/-- R32: the value of chip i. -/
def chip (seed i : Nat) : Bool := (patternAfter seed i).getLsbD 14

/-- R33: the reference value of a pattern step. -/
def reference (seed k : Nat) : Bool := chip seed (k / 4)

/-- The CAL output line: the pattern while driven, low otherwise (Table 3-1). -/
def Cal.output (c : Cal) : Bool := c.driven && c.pattern.getLsbD 14

/-- R33, R40: the present pattern step. MEASURING is entered at step 1,024. -/
def Cal.patternStep (c : Cal) : Nat :=
  match c.state with
  | .measuring => max Config.settlingSteps (c.counted - 1)
  | .idle | .settling => c.counted - 1

/-- R33: the sample of the next pattern step is counted; the register advances at every fourth step but step 0. After
step 17,422 none is counted. From step 0 on the output drives the pattern (R31). -/
def Cal.countStep (c : Cal) : Cal :=
  if Config.lastPatternStep < c.counted then c
  else
    { c with
      counted := c.counted + 1
      driven := true
      pattern := if c.counted % 4 = 0 ∧ c.counted ≠ 0 then advancePattern c.pattern else c.pattern
      state := if Config.settlingSteps ≤ c.counted then .measuring else c.state }

/-! ## Comparisons (R33, R34) -/

/-- Candidate lag number i is i - 8. -/
def lagOf (i : Fin 16) : Int := (i.val : Int) - 8

/-- R34: a candidate compares the filtered value of pattern step `p` when its comparison index is in range. -/
def mismatchAt (seed p : Nat) (value : Bool) (i : Fin 16) : Bool :=
  let k := (p : Int) - lagOf i
  decide ((Config.firstComparison : Int) ≤ k ∧ k ≤ (Config.lastComparison : Int)) &&
    (reference seed k.toNat != value)

/-- R34: one arrived filtered value of a channel compared under every candidate lag. -/
def compareValue (counters : Vector Nat 16) (seed p : Nat) (value : Bool) : Vector Nat 16 :=
  mapIds counters fun i n => if mismatchAt seed p value i then n + 1 else n

/-- R34: the arrived values of consecutive pattern steps compared. -/
def compareValues (seed : Nat) (value : Nat → Bool) : Nat → Nat → Vector Nat 16 → Vector Nat 16
  | 0, _, counters => counters
  | n + 1, p, counters => compareValues seed value n (p + 1) (compareValue counters seed p (value p))

/-- R33: the newest raw step whose filtered value has arrived, as one more than it. -/
def GlitchFilter.arrivedEnd (f : GlitchFilter) (newest : Nat) : Nat :=
  match f.openRun with
  | some r => r.start
  | none => newest + 1

/-- R33, R34: one past the last pattern step whose filtered value of a channel has arrived, with `newest` the newest
raw step taken. -/
def Cal.arrivedStep (c : Cal) (f : GlitchFilter) (newest : Nat) : Nat :=
  min (f.arrivedEnd newest - c.base) (min c.counted (Config.lastPatternStep + 1))

/-- R34: the values of one channel that have arrived since the last raw sample, compared when the channel is selected. -/
def Cal.compareChannel (c : Cal) (ch : Chan) (f : GlitchFilter) (newest : Nat) : Vector Nat 16 :=
  let from_ := max c.compared[ch] Config.settlingSteps
  if inSet c.channels ch.val then
    compareValues c.seed (fun p => f.history.getLsbD (newest - (p + c.base)))
      (c.arrivedStep f newest - from_) from_ c.mismatches[ch]
  else c.mismatches[ch]

/-- R34: every channel at a raw sample. -/
def Cal.compare (c : Cal) (filters : Vector GlitchFilter 32) (newest : Nat) : Cal :=
  match c.state with
  | .measuring =>
    { c with
      mismatches := Vector.ofFn fun ch : Chan => c.compareChannel ch filters[ch] newest
      compared := mapIds c.compared fun ch p => max p (c.arrivedStep filters[ch] newest) }
  | .idle | .settling => c

/-- R33, R34: a raw sample of the run taken by CAL. -/
def State.calSample (s : State) (newest : Nat) : State :=
  if s.cal.isActive then s.setCal (s.cal.countStep.compare s.pfe.filters newest) else s

/-- R34: the filtered value of step 17,422 has arrived for every channel. -/
def Cal.isComplete (c : Cal) : Bool :=
  c.state == .measuring && c.compared.all fun p => decide (Config.lastPatternStep < p)

/-! ## Results (R35 to R37) -/

/-- R35: the candidates in order of preference: 0, -1, +1, and so on to -7, +7 and last -8. -/
def lagOrder : List (Fin 16) := [8, 7, 9, 6, 10, 5, 11, 4, 12, 3, 13, 2, 14, 1, 15, 0]

/-- R35: the best lag: the first in order of preference among those with the fewest mismatches. -/
def bestLag (counters : Vector Nat 16) : Fin 16 :=
  lagOrder.foldl (fun best i => if counters[i] < counters[best] then i else best) 8

/-- R35: a channel's result. -/
def Cal.resultOf (c : Cal) (ch : Chan) : CalResult :=
  if inSet c.channels ch.val then
    let best := bestLag c.mismatches[ch]
    let count := c.mismatches[ch][best]
    if count ≤ c.tolerance then .pass (lagOf best) count else .fail count
  else .notSelected

/-- R35, R37: the offset a result writes. -/
def CalResult.offset (r : CalResult) (old : Int) : Int :=
  match r with
  | .pass o _ => o
  | .fail _ | .notSelected => old

/-- R12, R37: the offsets of the PASS channels written into the active context. -/
def Pfe.writeResults (p : Pfe) (results : Vector CalResult 32) : Pfe :=
  match p.active with
  | some id =>
    let f := p.frontEnd id
    p.setFrontEnd id { f with offsets := mapIds f.offsets fun ch o => results[ch].offset o }
  | none => p

/-- R36, R38, R39: the end of a run with an outcome: IDLE, the output low, the contexts resumed, CALIBRATION_DONE. -/
def State.endCalibration (s : State) (outcome : CalOutcome) : State :=
  let s := s.setCal { s.cal with state := .idle, driven := false, outcome }
  s.resumeContexts.raise .calibrationDone

/-- R36: the completion event. -/
def State.completeCalibration (s : State) : State :=
  let results : Vector CalResult 32 := Vector.ofFn fun ch : Chan => s.cal.resultOf ch
  let s := (s.setCal { s.cal with results }).setPfe (s.pfe.writeResults results)
  s.endCalibration .complete

/-- R36: the completion, where it is due. -/
def State.completeIfDue (s : State) : State := if s.cal.isComplete then s.completeCalibration else s

/-! ## Requests and events -/

/-- R30: LEVEL with an exhausted count, then the three BUSY cases. -/
def State.calibrateRefusal (s : State) : Option Status :=
  if s.lvl.exhausted then some .level
  else if s.capturing?.isSome ∨ s.lvl.isSwitching ∨ s.cal.isActive then some .busy
  else none

/-- R31: the acceptance, with the raw step that will be pattern step 0. -/
def State.acceptCalibrate (s : State) (channels : Lines) (seed tolerance : Nat) : State :=
  let s := s.suspendContexts
  s.setCal { s.cal with
    state := .settling
    channels
    seed := clampSeed seed
    tolerance := min tolerance 1023
    runLevel := some s.lvl.level
    counted := 0
    base := (s.pfe.run.map (·.taken)).getD 0
    pattern := BitVec.ofNat 15 (clampSeed seed)
    driven := false
    mismatches := Vector.replicate 32 (Vector.replicate 16 0)
    compared := Vector.replicate 32 0
    outcome := .none
    results := Vector.replicate 32 .notSelected }

/-- R30, R31. -/
def bodyCalibrate (channels : Lines) (seed tolerance : Nat) (s : State) : State × Response :=
  match s.calibrateRefusal with
  | some st => answer st s
  | none => (s.acceptCalibrate channels seed tolerance, .only .accepted)

/-- R38. -/
def bodyCalibrationAbort (s : State) : State × Response :=
  if s.cal.isActive then (s.endCalibration .aborted, .only .ok) else answer .ok s

/-- R40. -/
def bodyReadCalibration (s : State) : State × Response :=
  tell (.calibration s.cal.state (if s.cal.isActive then some s.cal.patternStep else none) s.cal.outcome s.cal.runLevel
    s.cal.channels s.cal.seed s.cal.tolerance s.cal.results) s

/-- CALIBRATE (R30, R31). -/
def execCalibrate (fit : Fit) (channels : Lines) (seed tolerance : Nat) (s : State) :
    Host.Outcome State Fault Refusal :=
  done (request false fit (bodyCalibrate channels seed tolerance) s)

/-- CALIBRATION_ABORT (R38). -/
def execCalibrationAbort (s : State) : Host.Outcome State Fault Refusal :=
  done (request false .enough bodyCalibrationAbort s)

/-- READ_CALIBRATION (R40). -/
def execReadCalibration (s : State) : Host.Outcome State Fault Refusal :=
  done (request false .enough bodyReadCalibration s)

/-- CAL_MEASURING_ENTRY (R33): due once pattern steps 0 to 1,023 have been counted; the sample of step 1,024 makes the
entry where this event has not. -/
def execCalMeasuringEntry (s : State) : Host.Outcome State Fault Refusal :=
  done (if s.cal.state = .settling ∧ Config.settlingSteps ≤ s.cal.counted then
    s.setCal { s.cal with state := .measuring } else s)

/-- CALIBRATION_COMPLETE (R36): due once every comparison has been made. -/
def execCalibrationComplete (s : State) : Host.Outcome State Fault Refusal := done s.completeIfDue

end Sys2Proof.Machine
end

