-- ==== Sys2Proof/Machine/Sampling.lean ====
section
/-! DEFINITION. Machine/Sampling.lean: sampling runs (1.4), the acquisition tick count and its exhaustion (2.2), level
transitions and requests (2.3, 2.4), timer expiries taken ahead of their sample, and the ends of a capture that release
a held level request (R25). -/

namespace Sys2Proof.Machine

/-! ## One conditioned sample (R8) -/

/-- R8: a conditioned sample offered to its consumers: the monitors, the decoders, the sequencer, the encoder
(assumption log 10 gives the order). -/
def State.takeConditioned (s : State) (x : Conditioned) (step : Nat) : State :=
  let (s, activity) := s.monitorSample x
  let s := s.decodeSample x step
  let s := s.triggerSample x.stamp x.lines x.changed activity
  s.encodeSample x.stamp x.lines

/-- R5, R8: the next conditioned sample of the run formed and offered, with `newest` the newest filtered step. -/
def State.formNext (s : State) (newest : Nat) : State :=
  match s.pfe.run with
  | none => s
  | some r => (s.setPfe (s.pfe.formSample r newest).1).takeConditioned (s.pfe.formSample r newest).2 r.step

/-! ## The end of a run (R7) -/

/-- R7: the open runs discarded; not counted as glitches. -/
def Pfe.discardOpenRuns (p : Pfe) : Pfe := { p with filters := p.filters.map fun f => { f with openRun := none } }

/-- R7: steps after the last one, each with the accepted levels, until the run's last step has been formed. -/
def State.flushSteps : Nat → Nat → State → State
  | 0, _, s => s
  | n + 1, step, s =>
    let s := s.setPfe { s.pfe with filters := s.pfe.filters.map GlitchFilter.afterRun }
    State.flushSteps n (step + 1) (if Config.conditionedLatency ≤ step then s.formNext step else s)

/-- R7: the sampling run ends: every conditioned sample up to its last step reaches its consumers. -/
def State.endRun (s : State) : State :=
  match s.pfe.run with
  | none => s
  | some r =>
    let s := s.setPfe s.pfe.discardOpenRuns
    let s := if r.taken = 0 then s else State.flushSteps Config.conditionedLatency r.taken s
    s.setPfe { s.pfe with run := none }

/-! ## Transitions (R22, R23) -/

/-- R22: a level transition begins. -/
def State.beginTransition (s : State) (target : Level) : State :=
  let sampling := s.pfe.run.isSome
  let s := s.setLvl { s.lvl with transition := .switching target }
  let s := s.endRun
  let s := if sampling then s.gapBegin else s
  if s.lvl.level = .standby then s.setCap { s.cap with port := .normal } else s

/-- R23, R25: the pending level request, where there is one, becomes absent and its transition begins. -/
def State.releaseRequest (s : State) : State :=
  match s.lvl.request with
  | some target => (s.setLvl { s.lvl with request := none }).beginTransition target
  | none => s

/-- R25: the end of a capture releases the pending level request. -/
def State.endOfCapture (s : State) : State :=
  if s.capturing?.isNone ∧ s.lvl.isSwitching = false then s.releaseRequest else s

/-- R2, R20: a sampling run begins at a stamp. -/
def Pfe.beginRun (p : Pfe) (stamp step : Nat) : Pfe :=
  { p with run := some ⟨stamp, step, 0, 0⟩, filters := Vector.replicate 32 .unset, emitted := Vector.replicate 32 0,
           activityDue := [] }

/-- R20: the count raised to the next multiple of 4 at ECONOMY. -/
def raisedCount (level : Level) (count : Nat) : Nat :=
  match level with
  | .economy => ceilDiv count 4 * 4
  | .full | .standby => count

/-- R20, R21, R23: the run that a completion begins; none with an exhausted count. -/
def State.startRun (s : State) (level : Level) : State :=
  if s.lvl.exhausted then s
  else if Config.tickMax < raisedCount level s.lvl.count then
    s.setLvl { s.lvl with count := Config.tickMax, exhausted := true }
  else
    let stamp := raisedCount level s.lvl.count
    (s.setLvl { s.lvl with count := stamp }).setPfe (s.pfe.beginRun stamp (stepOf level))

/-- R23, R27: what follows a completion with no pending request. -/
def State.settleLevel (s : State) (level : Level) : State :=
  match level with
  | .full | .economy => s.startRun level
  | .standby => (s.setCap { s.cap with port := .entering }).settlePort

/-- R23: the completion of a transition. -/
def State.completeTransition (s : State) (level : Level) : State :=
  let s := s.setLvl { s.lvl with level, transition := .steady }
  let s := s.setPfe { s.pfe with active := contextOf level }
  let s := (s.gapEnd level).raise .levelChanged
  if s.lvl.request.isSome then s.releaseRequest else s.settleLevel level

/-! ## The count and its exhaustion (R20, R21, R39, R73) -/

/-- R20, R21: the count after a sample. -/
def Lvl.advance (l : Lvl) (step : Nat) : Lvl :=
  if Config.tickMax < l.count + step then { l with count := Config.tickMax, exhausted := true }
  else { l with count := l.count + step }

/-- R39: the last filtered values of a run that ends reach CAL before its end does. -/
def State.calRunEnd (s : State) : State :=
  match s.pfe.run with
  | none => s
  | some r =>
    let s := s.setPfe s.pfe.discardOpenRuns
    if r.taken = 0 then s else (s.setCal (s.cal.compare s.pfe.filters (r.taken - 1))).completeIfDue

/-- R73: a capturing segment seals at the exhaustion. -/
def State.sealAtLimit (s : State) : State :=
  match s.capturing? with
  | some id => s.sealSegment id .limitReached
  | none => s

/-- R21, R39, R73: the run ends with the count exhausted. -/
def State.exhaust (s : State) : State :=
  let s := s.calRunEnd.endRun
  let s := s.gapBegin.sealAtLimit
  let s := if s.cal.isActive then s.endCalibration .samplingEnded else s
  s.endOfCapture

/-- R21: the exhaustion, where the count is exhausted and the run has not ended yet. -/
def State.exhaustIfDue (s : State) : State := if s.lvl.exhausted ∧ s.pfe.run.isSome then s.exhaust else s

/-! ## SAMPLE_STEP (R2, R3, R8, R20, R33) -/

/-- R2, R3, R20, R33: a raw sample: filtered, counted, offered to CAL. -/
def State.rawSample (s : State) (r : Run) (probes : Vector Int 32) : State :=
  let n := r.taken
  let (pfe, suppressed) := s.pfe.filterStep n (s.pfe.rawLines probes)
  let s := s.setPfe { pfe with run := some { r with taken := n + 1 } }
  let s := s.setLvl (s.lvl.advance r.step)
  (s.countGlitches suppressed).calSample n

/-- One sample step of a run: the raw sample, then the conditioned sample whose latency it completes (R8). -/
def State.sampleRun (s : State) (r : Run) (probes : Vector Int 32) : State :=
  let s := s.rawSample r probes
  (if Config.conditionedLatency ≤ r.taken then s.formNext r.taken else s).endOfCapture

/-- SAMPLE_STEP (R2). A completion of calibration or an exhaustion that is due is taken first; with no sampling run in
progress no sample is taken. -/
def execSampleStep (probes : Vector Int 32) (s : State) : Host.Outcome State Fault Refusal :=
  let s := s.completeIfDue.exhaustIfDue
  match s.pfe.run with
  | some r => done (s.sampleRun r probes)
  | none => done s

/-! ## Requests on levels (R24, R26) -/

/-- R24. -/
def bodySetLevel (level : Byte) (s : State) : State × Response :=
  match levelOf level with
  | none => answer .badParam s
  | some l =>
    if l = s.lvl.destination then (s.setLvl { s.lvl with request := none }, .only .ok)
    else if s.capturing?.isSome ∨ s.lvl.isSwitching then
      (s.setLvl { s.lvl with request := some l }, .only .accepted)
    else if s.cal.isActive then answer .busy s
    else (s.beginTransition l, .only .accepted)

/-- R26. -/
def bodyLevelStatus (s : State) : State × Response :=
  tell (.level s.lvl.level s.lvl.transition s.lvl.request s.lvl.count s.lvl.exhausted) s

/-- SET_LEVEL (R24); taken while resting in STANDBY (R19). -/
def execSetLevel (fit : Fit) (level : Byte) (s : State) : Host.Outcome State Fault Refusal :=
  done (request true fit (bodySetLevel level) s)

/-- LEVEL_STATUS (R26). -/
def execLevelStatus (s : State) : Host.Outcome State Fault Refusal := done (request false .enough bodyLevelStatus s)

/-- COUNT_EXHAUSTED (R21): due after the sample that exhausted the count. -/
def execCountExhausted (s : State) : Host.Outcome State Fault Refusal := done s.exhaustIfDue

/-- LEVEL_TRANSITION_COMPLETE (R23): the relock of a transition in progress. -/
def execLevelTransitionComplete (s : State) : Host.Outcome State Fault Refusal :=
  match s.lvl.transition with
  | .switching target => done (s.completeTransition target)
  | .steady => done s

/-! ## Ends of a capture (R65, R72, R74) -/

/-- FIRE_ACCEPT (R65, R66). -/
def execFireAccept (index : Nat) (s : State) : Host.Outcome State Fault Refusal :=
  done (s.takeFire index).endOfCapture

/-- R72. -/
def bodySegmentStop (s : State) : State × Response :=
  match s.capturing? with
  | some id => ((s.sealSegment id .stopped).endOfCapture, .only .accepted)
  | none => answer .wrongState s

/-- R54, R56, R74: the encoder stopped and the staged entries of an aborted segment discarded unwritten; what was
stored before them stays served to a read or refresh in flight. -/
def State.discardStaged (s : State) (id : SegId) : State :=
  let s := s.stopEncoder id
  let g := s.segment id
  let kept := (g.written - s.cap.staged.length, g.annotationsStored - s.cap.stagedAnnotations.length)
  (s.setCap { s.cap with staged := [], stagedAnnotations := [] }).setSegment id { g with discarded := some kept }

/-- R74: the end of an aborted capture's segment. -/
def State.abortSegment (s : State) (id : SegId) : State × Response :=
  let s := (s.discardStaged id).setTrg s.trg.halt
  if (s.segment id).pins = 0 then ((s.vacate id).endOfCapture, .only .ok)
  else
    ((s.setSegment id { s.segment id with state := .retiring, retirePending := true }).endOfCapture, .only .accepted)

/-- R74. -/
def bodySegmentAbort (s : State) : State × Response :=
  match s.capturing? with
  | some id => s.abortSegment id
  | none => answer .wrongState s

/-- SEGMENT_STOP (R72). -/
def execSegmentStop (s : State) : Host.Outcome State Fault Refusal := done (request false .enough bodySegmentStop s)

/-- SEGMENT_ABORT (R74). -/
def execSegmentAbort (s : State) : Host.Outcome State Fault Refusal := done (request false .enough bodySegmentAbort s)

/-! ## Trigger timers taken ahead of the next sample (assumption log 4) -/

/-- R155, R159: the stage timer at the next sample, where it expires there. -/
def State.stageExpiry (s : State) : State :=
  match s.pfe.nextSample with
  | none => s
  | some x =>
    if s.trg.evaluates ∧ (everyId 16).any (fun i => s.trg.units[i].reachedAt s.trg.entryTick s.trg.time x.stamp) then
      s.stageTimerAt x.stamp
    else s

/-- STAGE_TIMER_EXPIRY (R159). -/
def execStageTimerExpiry (s : State) : Host.Outcome State Fault Refusal := done s.stageExpiry

/-- R157: a PATTERN unit brought to the next sample, where it raises there. -/
def State.holdExpiry (s : State) (unit : UnitId) : State :=
  match s.pfe.nextSample with
  | none => s
  | some x =>
    let p := s.trg.patterns[unit]
    let next := s.trg.units[unit].patternAt p x.lines x.stamp
    if s.trg.evaluates ∧ next.raised ∧ p.raised = false then
      s.setTrg { s.trg with patterns := s.trg.patterns.set unit next, raiseDue := s.trg.raiseDue ++ [unit] }
    else s

/-- PATTERN_HOLD_EXPIRY (R157). A stage timer that expires at the same sample is taken first (R155). -/
def execPatternHoldExpiry (unit : UnitId) (s : State) : Host.Outcome State Fault Refusal :=
  done (s.stageExpiry.holdExpiry unit)

end Sys2Proof.Machine
end

