-- ==== Sys2Proof/Machine/Reads.lean ====
section
/-! DEFINITION. Machine/Reads.lean: segment and annotation reads (R75, R78, R79, R180): taken with a pin, run entry by
entry, formed into their frame's response. -/

namespace Sys2Proof.Machine

/-- R78, R79: a read that begins on a segment: its start, its count, what the first retained value does to it. -/
def Segment.beginRead (g : Segment) (kind : ReadKind) (id : SegId) (start count : Nat) : ReadInFlight :=
  match kind with
  | .entries =>
    { kind, segment := id, next := max start g.firstRetained, remaining := min count 64,
      rotatedAway := decide (start < g.firstRetained), entries := [], annotations := [], frameOpen := true }
  | .annotations =>
    { kind, segment := id, next := g.firstAnnotation + start, remaining := min count 32, rotatedAway := false,
      entries := [], annotations := [], frameOpen := true }

/-- R75, R78, R79: a read whose pin is granted begins; its frame waits for the response (R178). -/
def State.startRead (s : State) (kind : ReadKind) (id : SegId) (start count : Nat) : State :=
  let g := s.segment id
  let s := s.pin id
  let s := s.setCap { s.cap with read := some (g.beginRead kind id start count) }
  s.setCmd { s.cmd with frame := .response, response := none, held := none }

/-- R75, R78, R79: a read whose parameters the header covers, at its segment. -/
def State.beginTaken (s : State) (kind : ReadKind) (segment : Byte) (start count : Nat) : State :=
  match idOf 8 segment with
  | none => s.respond (.only .badParam)
  | some id =>
    if (s.segment id).pinnable then s.startRead kind id start count else s.respond (.only .notFound)

/-- R19, R75, R78, R79, R179: a read taken, with no other in flight. -/
def State.takeRead (s : State) (kind : ReadKind) (fit : Fit) (segment : Byte) (start count : Nat) : State :=
  let s := s.setCmd { s.cmd with held := none }
  if s.resting then s.respond (.only .level)
  else
    match fit with
    | .short => s.respond (.only .badParam)
    | .enough => s.beginTaken kind segment start count

/-- R180: a read request; one that finds another read in flight, whatever its answer will be, is held until that one's
response is formed. DESIGN CHOICE (assumption log 9): its frame stays in REQUEST meanwhile. -/
def State.requestRead (s : State) (kind : ReadKind) (fit : Fit) (segment : Byte) (start count : Nat) : State :=
  if s.portOpen then
    if s.cap.read.isSome then s.setCmd { s.cmd with held := some ⟨kind, fit, segment, start, count⟩ }
    else s.takeRead kind fit segment start count
  else s

/-- R74, R78: one past the last entry that may be taken. -/
def Segment.entryEnd (g : Segment) : Nat :=
  match g.discarded with
  | some d => d.1
  | none => g.written

/-- R74, R79: one past the last annotation that may be taken. -/
def Segment.annotationEnd (g : Segment) : Nat :=
  match g.discarded with
  | some d => d.2
  | none => g.annotationsStored

/-- R78, R79: a read has more to examine. DESIGN CHOICE (assumption log 39): the bound is the count of entries written
or annotations stored at the moment of each take, not at the read's taking. -/
def ReadInFlight.hasMore (r : ReadInFlight) (g : Segment) : Bool :=
  match r.kind with
  | .entries => decide (0 < r.remaining ∧ r.next < g.entryEnd)
  | .annotations => decide (0 < r.remaining ∧ r.next < g.annotationEnd)

/-- A position passed over because a rotation has removed it. -/
def ReadInFlight.pass (r : ReadInFlight) : ReadInFlight := { r with next := r.next + 1, rotatedAway := true }

/-- R78: the next entry taken, or passed over. -/
def Cap.takeEntry (c : Cap) (g : Segment) (r : ReadInFlight) : ReadInFlight :=
  if r.next < g.firstRetained then r.pass
  else
    { r with next := r.next + 1, remaining := r.remaining - 1,
             entries := r.entries ++ ((c.retainedEntries g)[r.next - g.firstRetained]?).toList }

/-- R79: the next annotation taken, or passed over. -/
def Cap.takeAnnotation (c : Cap) (g : Segment) (r : ReadInFlight) : ReadInFlight :=
  if r.next < g.firstAnnotation then r.pass
  else
    { r with next := r.next + 1, remaining := r.remaining - 1,
             annotations := r.annotations ++ ((c.annotationAt g r.next).map fun a => (r.next, a)).toList }

/-- R78, R79: one take of the read in flight. -/
def State.readStep (s : State) (kind : ReadKind) (take : Cap → Segment → ReadInFlight → ReadInFlight) : State :=
  match s.cap.read with
  | some r =>
    if r.kind = kind ∧ r.hasMore (s.segment r.segment) then
      s.setCap { s.cap with read := some (take s.cap (s.segment r.segment) r) }
    else s
  | none => s

/-- R78, R79: the response of a read, from the state as it stands. -/
def ReadInFlight.response (r : ReadInFlight) (g : Segment) : Response :=
  match r.kind with
  | .entries => ⟨.ok, .entries g.state g.written g.firstRetained r.rotatedAway r.entries⟩
  | .annotations =>
    ⟨.ok, .annotations g.firstAnnotation g.annotationsStored g.annotationsDropped r.rotatedAway r.annotations⟩

/-- R178: the response presented in the frame that asked, while it is open. -/
def State.present (s : State) (r : ReadInFlight) : State :=
  if r.frameOpen then s.respond (r.response (s.segment r.segment)) else s

/-- R180: a held read is taken. -/
def State.takeHeld (s : State) : State :=
  match s.cmd.held with
  | some h => s.takeRead h.kind h.fit h.segment h.start h.count
  | none => s

/-- R78, R79: the response formed, the pin released, a held read taken. -/
def State.formRead (s : State) (kind : ReadKind) : State :=
  match s.cap.read with
  | some r =>
    if r.kind = kind ∧ r.hasMore (s.segment r.segment) = false then
      let s := s.present r
      let s := (s.setCap { s.cap with read := none }).unpin r.segment
      s.settlePort.takeHeld
    else s
  | none => s

/-- SEGMENT_READ (R75, R78, R180). -/
def execSegmentRead (fit : Fit) (segment : Byte) (start : BitVec 48) (count : Nat) (s : State) :
    Host.Outcome State Fault Refusal :=
  done (s.requestRead .entries fit segment start.toNat count)

/-- ANNOTATION_READ (R75, R79, R180). -/
def execAnnotationRead (fit : Fit) (segment : Byte) (offset : BitVec 32) (count : Nat) (s : State) :
    Host.Outcome State Fault Refusal :=
  done (s.requestRead .annotations fit segment offset.toNat count)

/-- SEGMENT_READ_ENTRY_TAKE (R78): a segment read with more to take. -/
def execSegmentReadEntryTake (s : State) : Host.Outcome State Fault Refusal := done (s.readStep .entries Cap.takeEntry)

/-- ANNOTATION_READ_ENTRY_TAKE (R79): an annotation read with more to take. -/
def execAnnotationReadEntryTake (s : State) : Host.Outcome State Fault Refusal :=
  done (s.readStep .annotations Cap.takeAnnotation)

/-- SEGMENT_READ_RESPONSE_FORMED (R78): a segment read with nothing more to take. -/
def execSegmentReadResponseFormed (s : State) : Host.Outcome State Fault Refusal := done (s.formRead .entries)

/-- ANNOTATION_READ_RESPONSE_FORMED (R79): an annotation read with nothing more to take. -/
def execAnnotationReadResponseFormed (s : State) : Host.Outcome State Fault Refusal := done (s.formRead .annotations)

end Sys2Proof.Machine
end

