-- ==== Sys2Proof/Machine/Port.lean ====
section
/-! DEFINITION. Machine/Port.lean: the command port and notice unit (chapter 12): power-on, the frame, unknown request
codes, the notice requests, IDENTIFY, and RESET at every block. -/

namespace Sys2Proof.Machine

/-! ## Power-on and the frame (R18, R178, R179) -/

/-- POWER_ON (R18 and every table's power-on column): the commands that wait stay waiting. -/
def execPowerOn (s : State) : Host.Outcome State Fault Refusal := done (State.reset.setPending s.pending)

/-- PORT_SELECT_ASSERT (R178): a frame begins; within a frame the select stands asserted already. -/
def execPortSelectAssert (s : State) : Host.Outcome State Fault Refusal :=
  done (if s.cmd.frame = .idle then s.setCmd { s.cmd with frame := .request, response := none, held := none } else s)

/-- R179, R180: the frame ends: an incomplete or held request is discarded, an unread response lost; a read goes on. -/
def State.endFrame (s : State) : State :=
  let s := s.setCmd { s.cmd with frame := .idle, response := none, held := none }
  s.setCap { s.cap with read := s.cap.read.map fun r => { r with frameOpen := false } }

/-- PORT_SELECT_DEASSERT (R178, R179). -/
def execPortSelectDeassert (s : State) : Host.Outcome State Fault Refusal := done s.endFrame

/-- UNKNOWN_REQUEST (R179, R185): answered UNKNOWN at every level; a recognised code is another command's. -/
def execUnknownRequest (code : Byte) (s : State) : Host.Outcome State Fault Refusal :=
  done (if s.portOpen && !recognisedCode code then s.respond (.only .unknown) else s)

/-! ## Notices (R182, R183) -/

/-- R183: the pending set and the detail sets emptied. -/
def Cmd.emptied (c : Cmd) : Cmd :=
  { c with pending := 0#14, lockChange := 0#16, errorThreshold := 0#16, glitch := 0#32, activity := 0#32 }

/-- R183. -/
def bodyNoticesRead (s : State) : State × Response :=
  (s.setCmd s.cmd.emptied,
    ⟨.ok, .notices s.cmd.pending s.cmd.lockChange s.cmd.errorThreshold s.cmd.glitch s.cmd.activity⟩)

/-- R182. -/
def bodyNoticesMask (mask : BitVec 16) (s : State) : State × Response :=
  (s.setCmd { s.cmd with mask := mask.setWidth 14 }, ⟨.ok, .mask (mask.setWidth 14) s.cmd.pending⟩)

/-- NOTICES_READ (R183); taken while resting in STANDBY. -/
def execNoticesRead (s : State) : Host.Outcome State Fault Refusal := done (request true .enough bodyNoticesRead s)

/-- NOTICES_MASK (R182); taken while resting in STANDBY. -/
def execNoticesMask (fit : Fit) (mask : BitVec 16) (s : State) : Host.Outcome State Fault Refusal :=
  done (request true fit (bodyNoticesMask mask) s)

/-- IDENTIFY (R184); taken while resting in STANDBY. -/
def execIdentify (s : State) : Host.Outcome State Fault Refusal :=
  done (request true .enough
    (tell (.identity 0x5E#8 0x0C32#16 1 Config.pageCount 8 16 Config.queueDepth)) s)

/-! ## RESET (R184) -/

/-- R2: the run that a RESET begins: at FULL or ECONOMY with no transition in progress. -/
def Lvl.runAfterReset (l : Lvl) : Option Run :=
  if l.isSwitching ∨ l.level = .standby then none else some ⟨0, stepOf l.level, 0, 0⟩

/-- R1, R2, R8, R10, R13 to R16: PFE after RESET. -/
def Pfe.softReset (p : Pfe) (run : Option Run) : Pfe :=
  { Pfe.reset with thresholds := p.thresholds, full := p.full, economy := p.economy, active := p.active,
                   glitchThreshold := p.glitchThreshold, quietTime := p.quietTime, run }

/-- R18: LVL after RESET. -/
def Lvl.softReset (l : Lvl) : Lvl := { l with request := none, count := 0, exhausted := false }

/-- R43, R44, R46, R52, R57: CAP after RESET; DRAM keeps its contents and its condition. DESIGN CHOICE (assumption log 13):
the turn of the staging FIFOs is the transition FIFO's again. -/
def Cap.softReset (c : Cap) : Cap :=
  { Cap.reset with dram := c.dram, poolThreshold := c.poolThreshold, port := c.port }

/-- R80, R96, R99: DEC after RESET. -/
def Dec.softReset (d : Dec) (switching : Bool) : Dec :=
  { Dec.reset with level := d.level, gap := d.gap && switching, threshold := d.threshold }

/-- R181, R184: CMD after RESET: the mask and the frame are kept. -/
def Cmd.softReset (c : Cmd) : Cmd := c.emptied

/-- R184: RESET as one event at every block. -/
def State.softReset (s : State) : State :=
  State.settlePort
    { pfe := s.pfe.softReset s.lvl.runAfterReset
      lvl := s.lvl.softReset
      cal := .reset
      cap := s.cap.softReset
      dec := s.dec.softReset s.lvl.isSwitching
      trg := s.trg.softReset
      dsp := .reset
      cmd := s.cmd.softReset
      pending := s.pending }

/-- RESET (R184); taken at every level and in every state. -/
def execReset (s : State) : Host.Outcome State Fault Refusal :=
  done (request true .enough (fun s => (s.softReset, .only .ok)) s)

end Sys2Proof.Machine
end

