-- ==== Sys2Proof/Machine/Dispatch.lean ====
section
/-! DEFINITION. Machine/Dispatch.lean: one arm per command, each a direct call of its meaning. -/

namespace Sys2Proof.Machine

def exec (i : Instr) (s : State) : Host.Outcome State Fault Refusal :=
  match i with
  | .powerOn => Sys2Proof.Machine.execPowerOn s
  | .portSelectAssert => Sys2Proof.Machine.execPortSelectAssert s
  | .portSelectDeassert => Sys2Proof.Machine.execPortSelectDeassert s
  | .unknownRequest code => Sys2Proof.Machine.execUnknownRequest code s
  | .thresholdSet fit pod code => Sys2Proof.Machine.execThresholdSet fit pod code s
  | .deskewSet fit level channels offset => Sys2Proof.Machine.execDeskewSet fit level channels offset s
  | .glitchWidthSet fit level pods width => Sys2Proof.Machine.execGlitchWidthSet fit level pods width s
  | .frontEndRead fit level => Sys2Proof.Machine.execFrontEndRead fit level s
  | .linesRead => Sys2Proof.Machine.execLinesRead s
  | .monitorSet fit writeThreshold threshold writeQuiet quiet => Sys2Proof.Machine.execMonitorSet fit writeThreshold threshold writeQuiet quiet s
  | .monitorRead fit channels => Sys2Proof.Machine.execMonitorRead fit channels s
  | .setLevel fit level => Sys2Proof.Machine.execSetLevel fit level s
  | .levelStatus => Sys2Proof.Machine.execLevelStatus s
  | .calibrate fit channels seed tolerance => Sys2Proof.Machine.execCalibrate fit channels seed tolerance s
  | .calibrationAbort => Sys2Proof.Machine.execCalibrationAbort s
  | .readCalibration => Sys2Proof.Machine.execReadCalibration s
  | .poolThresholdSet fit threshold => Sys2Proof.Machine.execPoolThresholdSet fit threshold s
  | .poolStatus => Sys2Proof.Machine.execPoolStatus s
  | .segmentPrepare fit segment mask budget target limit annotationBudget => Sys2Proof.Machine.execSegmentPrepare fit segment mask budget target limit annotationBudget s
  | .segmentStatus fit segment => Sys2Proof.Machine.execSegmentStatus fit segment s
  | .segmentStart fit segment => Sys2Proof.Machine.execSegmentStart fit segment s
  | .segmentStop => Sys2Proof.Machine.execSegmentStop s
  | .segmentAbort => Sys2Proof.Machine.execSegmentAbort s
  | .segmentRetire fit segment => Sys2Proof.Machine.execSegmentRetire fit segment s
  | .segmentRead fit segment start count => Sys2Proof.Machine.execSegmentRead fit segment start count s
  | .annotationRead fit segment offset count => Sys2Proof.Machine.execAnnotationRead fit segment offset count s
  | .contextOpen fit context => Sys2Proof.Machine.execContextOpen fit context s
  | .contextClose fit context => Sys2Proof.Machine.execContextClose fit context s
  | .contextConfigure fit context params => Sys2Proof.Machine.execContextConfigure fit context params s
  | .contextStart fit context => Sys2Proof.Machine.execContextStart fit context s
  | .contextStop fit context => Sys2Proof.Machine.execContextStop fit context s
  | .contextStatus fit context => Sys2Proof.Machine.execContextStatus fit context s
  | .flashSetLoad params => Sys2Proof.Machine.execFlashSetLoad params s
  | .flashModelClear fit context => Sys2Proof.Machine.execFlashModelClear fit context s
  | .recordsTake fit count => Sys2Proof.Machine.execRecordsTake fit count s
  | .queueThresholdSet fit threshold => Sys2Proof.Machine.execQueueThresholdSet fit threshold s
  | .queueStatus => Sys2Proof.Machine.execQueueStatus s
  | .queueAckGap => Sys2Proof.Machine.execQueueAckGap s
  | .matchUnitSet fit unit params => Sys2Proof.Machine.execMatchUnitSet fit unit params s
  | .branchSet fit stage branch params => Sys2Proof.Machine.execBranchSet fit stage branch params s
  | .triggerForce => Sys2Proof.Machine.execTriggerForce s
  | .triggerStatus => Sys2Proof.Machine.execTriggerStatus s
  | .triggerProgramRead => Sys2Proof.Machine.execTriggerProgramRead s
  | .viewSet fit params => Sys2Proof.Machine.execViewSet fit params s
  | .refresh => Sys2Proof.Machine.execRefresh s
  | .displayStatus => Sys2Proof.Machine.execDisplayStatus s
  | .noticesRead => Sys2Proof.Machine.execNoticesRead s
  | .noticesMask fit mask => Sys2Proof.Machine.execNoticesMask fit mask s
  | .identify => Sys2Proof.Machine.execIdentify s
  | .reset => Sys2Proof.Machine.execReset s
  | .sampleStep probes => Sys2Proof.Machine.execSampleStep probes s
  | .quietTimerExpiry channel => Sys2Proof.Machine.execQuietTimerExpiry channel s
  | .idleTimerExpiry context => Sys2Proof.Machine.execIdleTimerExpiry context s
  | .wordGapTimerExpiry context => Sys2Proof.Machine.execWordGapTimerExpiry context s
  | .stuckTimerExpiry context => Sys2Proof.Machine.execStuckTimerExpiry context s
  | .busFreeTimerExpiry context => Sys2Proof.Machine.execBusFreeTimerExpiry context s
  | .patternHoldExpiry unit => Sys2Proof.Machine.execPatternHoldExpiry unit s
  | .stageTimerExpiry => Sys2Proof.Machine.execStageTimerExpiry s
  | .calMeasuringEntry => Sys2Proof.Machine.execCalMeasuringEntry s
  | .calibrationComplete => Sys2Proof.Machine.execCalibrationComplete s
  | .countExhausted => Sys2Proof.Machine.execCountExhausted s
  | .levelTransitionComplete => Sys2Proof.Machine.execLevelTransitionComplete s
  | .fireAccept index => Sys2Proof.Machine.execFireAccept index s
  | .recordPathDelivery context => Sys2Proof.Machine.execRecordPathDelivery context s
  | .drainCompletion => Sys2Proof.Machine.execDrainCompletion s
  | .segmentReadResponseFormed => Sys2Proof.Machine.execSegmentReadResponseFormed s
  | .annotationReadResponseFormed => Sys2Proof.Machine.execAnnotationReadResponseFormed s
  | .refreshColumnRead => Sys2Proof.Machine.execRefreshColumnRead s
  | .refreshSendComplete => Sys2Proof.Machine.execRefreshSendComplete s
  | .segmentReadEntryTake => Sys2Proof.Machine.execSegmentReadEntryTake s
  | .annotationReadEntryTake => Sys2Proof.Machine.execAnnotationReadEntryTake s

end Sys2Proof.Machine
end

