-- ==== Sys2Proof/Safety.lean ====
section
/-! DEFINITION. Safety.lean: what a safe state is, in the terms the claims use: when the command port takes a request,
what a response leaves, which segment captures, and the invariants that every command keeps. -/

namespace Sys2Proof.Machine

/-! ## Requests at the command port -/

/-- R178, R180: a frame is open, its request is not complete yet, and no request is held in it. -/
def State.takesRequests (s : State) : Prop := s.cmd.frame = .request ∧ s.cmd.held = none

/-- R19: resting in STANDBY. -/
def State.restsInStandby (s : State) : Prop := s.lvl.level = .standby ∧ s.lvl.transition = .steady

/-- The command port takes requests and routes every recognised one to its block (R19). -/
def State.admits (s : State) : Prop := s.takesRequests ∧ ¬ s.restsInStandby

/-- R178: the state with a response formed in the present frame, and nothing else changed. -/
def State.answered (s : State) (status : Status) (data : ResponseData := .none) : State :=
  { s with cmd := { s.cmd with frame := .response, response := some ⟨status, data⟩ } }

/-- R181: the state with one more pending notice kind (numbered as R185 gives), and nothing else changed. -/
def State.noticed (s : State) (kind : Nat) : State :=
  { s with cmd := { s.cmd with pending := s.cmd.pending ||| BitVec.twoPow 14 kind } }

/-- What a request says of its parameter length; none for a request whose parameters are a list of bytes or absent,
and for a command that is no request. -/
def parameterFit : Instr → Option Fit
  | .thresholdSet f .. | .deskewSet f .. | .glitchWidthSet f .. | .frontEndRead f .. | .monitorSet f ..
  | .monitorRead f .. | .setLevel f .. | .calibrate f .. | .poolThresholdSet f .. | .segmentPrepare f ..
  | .segmentStatus f .. | .segmentStart f .. | .segmentRetire f .. | .segmentRead f .. | .annotationRead f ..
  | .contextOpen f .. | .contextClose f .. | .contextConfigure f .. | .contextStart f .. | .contextStop f ..
  | .contextStatus f .. | .flashModelClear f .. | .recordsTake f .. | .queueThresholdSet f .. | .matchUnitSet f ..
  | .branchSet f .. | .viewSet f .. | .noticesMask f .. => some f
  | _ => none

/-- The codes of the requests that a device resting in STANDBY takes (R19): SET_LEVEL, NOTICES_READ, NOTICES_MASK,
IDENTIFY and RESET. -/
def standbyCodes : List Nat := [0x08, 0x2B, 0x2C, 0x2D, 0x2E]

/-! ## Conditions of the rules -/

/-- Table 0-5: a segment captures. -/
def State.captures (s : State) (id : SegId) : Prop :=
  s.cap.segments[id].state = .preTrigger ∨ s.cap.segments[id].state = .postTrigger

/-- No segment captures. -/
def State.noCapture (s : State) : Prop := ∀ id, ¬ s.captures id

/-- One segment captures and no other does. -/
def State.capturesOnly (s : State) (id : SegId) : Prop := s.captures id ∧ ∀ j, s.captures j → j = id

/-- R29: CAL is active. -/
def State.calibrates (s : State) : Prop := s.cal.state = .settling ∨ s.cal.state = .measuring

/-- R18: a level transition is in progress. -/
def State.switches (s : State) : Prop := ∃ target, s.lvl.transition = .switching target

/-- Both staging FIFOs are empty. -/
def State.nothingStaged (s : State) : Prop := s.cap.staged = [] ∧ s.cap.stagedAnnotations = []

/-- The stamp of the next conditioned sample of a run (R2, R8). -/
def Run.nextStamp (r : Run) : Nat := r.firstStamp + r.formed * r.step

/-- The byte of a level (R185). -/
def levelByte : Level → Nat
  | .full => 0
  | .economy => 1
  | .standby => 2

/-! ## Invariants -/

/-- DRAM and the page map are in canonical form. -/
def State.memoryCanonical (s : State) : Prop := Memory.wf s.cap.dram ∧ PageMap.wf s.cap.pages

/-- A front-end context holds values of Table 1-4. -/
def FrontEnd.inRange (f : FrontEnd) : Prop :=
  (∀ c : Chan, -8 ≤ f.offsets[c] ∧ f.offsets[c] ≤ 7) ∧ ∀ p : Pod, f.widths[p] ≤ 15

/-- PFE within its ranges (R13 to R15, Table 1-4). -/
def Pfe.inRange (p : Pfe) : Prop :=
  p.full.inRange ∧ p.economy.inRange
    ∧ (1 ≤ p.glitchThreshold ∧ p.glitchThreshold ≤ 65535)
    ∧ (1 ≤ p.quietTime ∧ p.quietTime ≤ 16777215)
    ∧ ∀ c : Chan, p.monitors[c].edges ≤ 65535 ∧ p.monitors[c].glitches ≤ 65535

/-- CAL within its ranges (R30, R32): the pattern register never holds all zeros. -/
def Cal.inRange (c : Cal) : Prop :=
  (1 ≤ c.seed ∧ c.seed ≤ 32767) ∧ c.tolerance ≤ 1023 ∧ c.pattern ≠ 0#15

/-- A decoder context within its ranges (R82, R86, R94). -/
def Context.inRange (c : Context) : Prop :=
  c.good ≤ 2 ^ 32 - 1 ∧ c.errors ≤ 65535 ∧ c.suppressed ≤ 65535 ∧ 1 ≤ c.errorThreshold ∧ c.errorThreshold ≤ 65535

/-- The registers, counters and FIFOs within the ranges their rules give. -/
structure State.inRange (s : State) : Prop where
  pfe : s.pfe.inRange
  cal : s.cal.inRange
  count : s.lvl.count ≤ Config.tickMax
  poolThreshold : s.cap.poolThreshold ≤ Config.pageCount
  stagedAnnotations : s.cap.stagedAnnotations.length ≤ Config.annotationFifoDepth
  contexts : ∀ id : CtxId, s.dec.contexts[id].inRange
  queue : s.dec.queue.length ≤ Config.queueDepth
  span : s.dec.lost = 0 ↔ s.dec.span = none
  threshold : 1 ≤ s.dec.threshold ∧ s.dec.threshold ≤ Config.queueDepth
  rows : s.dsp.staged.rows.length ≤ 12

/-- A segment holds the encoder or the staging FIFOs: it captures, or it is sealed and drains. -/
def State.holdsEncoder (s : State) (id : SegId) : Prop := s.captures id ∨ s.cap.segments[id].drainPending = true

/-- R25, R54, R60, R71, R152: one segment at most captures or drains; the encoder serves the capturing one; something
is staged exactly while one captures or drains, and no more than the FIFO holds; the sequencer is RUNNING exactly
while a segment is in PRE_TRIGGER and DONE exactly while one is in POST_TRIGGER; a capture excludes a level transition
and a calibration run. -/
structure State.captureSound (s : State) : Prop where
  unique : ∀ i j, s.holdsEncoder i → s.holdsEncoder j → i = j
  drains : ∀ i : SegId, s.cap.segments[i].drainPending = true → s.cap.segments[i].state = .sealed ∧ ¬ s.nothingStaged
  staged : ¬ s.nothingStaged → ∃ i, s.holdsEncoder i
  fifo : s.cap.staged.length ≤ Config.transitionFifoDepth
  encoderIdle : s.cap.encoder.state = .idle ↔ s.noCapture
  encoderServes : ∀ i, s.cap.encoder.state = .encoding i ∨ s.cap.encoder.state = .dropping i → s.captures i
  running : s.trg.state = .running ↔ ∃ i : SegId, s.cap.segments[i].state = .preTrigger
  finished : s.trg.state = .done ↔ ∃ i : SegId, s.cap.segments[i].state = .postTrigger
  steady : (∃ i, s.captures i) → s.lvl.transition = .steady ∧ s.cal.state = .idle

/-- R181: a detail set is non-empty exactly while its kind is pending (7 LOCK_CHANGE, 8 ERROR_THRESHOLD,
9 GLITCH_THRESHOLD, 10 ACTIVITY_CHANGE). -/
def State.noticesSound (s : State) : Prop :=
  (s.cmd.pending.getLsbD 7 = true ↔ s.cmd.lockChange ≠ 0#16)
    ∧ (s.cmd.pending.getLsbD 8 = true ↔ s.cmd.errorThreshold ≠ 0#16)
    ∧ (s.cmd.pending.getLsbD 9 = true ↔ s.cmd.glitch ≠ 0#32)
    ∧ (s.cmd.pending.getLsbD 10 = true ↔ s.cmd.activity ≠ 0#32)

/-- R160: every trigger branch counter is below its branch's count target, and the counters of every stage but the
current one are 0. -/
def State.triggerSound (s : State) : Prop :=
  ∀ (st : StageId) (b : BranchId),
    s.trg.counters[st][b] < s.trg.branches[st][b].target ∧ (st ≠ s.trg.stage → s.trg.counters[st][b] = 0)

/-- R103, R89: the period `p` lies in the effective window of ASYNC settings at a decode level. -/
def AsyncSettings.effective (a : AsyncSettings) (level : Level) (p : Nat) : Prop :=
  a.lower ≤ p ∧ p ≤ a.upper ∧ (level = .economy → 4096 ≤ p)

/-- R103: the period of every ASYNC context that is RUNNING, or SUSPENDED for a calibration, lies in its effective window
for the decode level, and windows have the bounds of R101. R24, R30, R39: a calibration run excludes a transition and
a pending request, contexts are suspended for one in progress alone, and a request waits for a capture or a transition. -/
structure State.periodsSound (s : State) : Prop where
  windows : ∀ i : CtxId, let a := s.dec.contexts[i].asyncSettings
    1024 ≤ a.lower ∧ a.lower ≤ a.upper ∧ a.upper ≤ 268435455
  periods : ∀ i : CtxId, let c := s.dec.contexts[i]
    c.protocol = some .async → c.state = .running ∨ c.state = .suspended .calibration →
      c.asyncSettings.effective s.dec.level c.asyncEngine.period
  suspended : ∀ i : CtxId, s.dec.contexts[i].state = .suspended .calibration → s.calibrates
  calibrating : s.calibrates → s.lvl.transition = .steady ∧ s.lvl.request = none
  request : s.lvl.request ≠ none → (∃ i, s.captures i) ∨ s.switches

/-- R132 to R134: a flash target model that is powered down is not busy and has no continuation armed. -/
def State.modelsSound (s : State) : Prop :=
  ∀ i : CtxId, let m := s.dec.contexts[i].flashEngine.model
    m.poweredDown = true → m.busy = false ∧ m.continuation = none

/-- R43: the pages of a list are linked in its order, every one with its owner. -/
def linked (m : PageMap) (owner : PageOwner) (pages : List Nat) : Prop :=
  ∀ (k p : Nat), pages[k]? = some p → PageMap.get m p = ⟨owner, pages[k + 1]?⟩

/-- R43: a chain of the page map holds these pages in this order, every one with its owner. -/
def Chain.holds (c : Chain) (m : PageMap) (owner : PageOwner) (pages : List Nat) : Prop :=
  c.count = pages.length ∧ c.head = pages.head? ∧ c.tail = pages.getLast? ∧ linked m owner pages

/-- R43 to R45, R57: the free pool and the chains of the segments hold every page once, each page with its owner; a VACANT
or PRIMED segment holds none. -/
def State.pagesSound (s : State) : Prop :=
  ∃ (pool : List Nat) (records annotations : SegId → List Nat),
    s.cap.pool.holds s.cap.pages .free pool
    ∧ (∀ i : SegId, s.cap.segments[i].records.holds s.cap.pages (.records i) (records i)
      ∧ s.cap.segments[i].annotations.holds s.cap.pages (.annotations i) (annotations i)
      ∧ (s.cap.segments[i].state = .vacant ∨ s.cap.segments[i].state = .primed → records i = [] ∧ annotations i = []))
    ∧ (pool ++ (List.finRange 8).flatMap fun i => records i ++ annotations i).Perm (List.range 32768)

/-- R47, R52, R55, R61: a capturing segment has a page in either chain, and what is staged lies in slots of pages that a
segment which captures or drains owns, entries in its record pages and annotations in its annotation pages. -/
structure State.stagedSound (s : State) : Prop where
  chains : ∀ i, s.captures i → s.cap.segments[i].records.count ≠ 0 ∧ s.cap.segments[i].annotations.count ≠ 0
  entries : ∀ e ∈ s.cap.staged,
    e.slot < 510 ∧ ∃ i, s.holdsEncoder i ∧ (PageMap.get s.cap.pages e.page).owner = .records i
  annotations : ∀ a ∈ s.cap.stagedAnnotations,
    a.slot < 256 ∧ ∃ i, s.holdsEncoder i ∧ (PageMap.get s.cap.pages a.page).owner = .annotations i

/-- R46: the pool-low armed flag is set exactly while the pool count is at or above the threshold. -/
def State.poolSound (s : State) : Prop :=
  s.cap.poolThreshold ≤ 32768 ∧ (s.cap.poolArmed = true ↔ s.cap.poolThreshold ≤ s.cap.pool.count)

/-- R44, R46: `t` is left with the pool of `s` after the allocation of its head page `p`, and with the pool-low test that
follows: a falling crossing while armed raises POOL_LOW, and the flag stays set at or above the threshold. -/
def State.takesPage (s : State) (p : Nat) (t : State) : Prop :=
  t.cap.pool = (if s.cap.pool.count = 1 then {} else
      ⟨(PageMap.get s.cap.pages p).next, s.cap.pool.tail, s.cap.pool.count - 1⟩)
    ∧ t.cap.poolThreshold = s.cap.poolThreshold
    ∧ (t.cap.poolArmed = true ↔ s.cap.poolThreshold ≤ s.cap.pool.count - 1)
    ∧ (t.cmd.pending.getLsbD 4 = true ↔ s.cmd.pending.getLsbD 4 = true
      ∨ (s.cap.poolArmed = true ∧ s.cap.pool.count - 1 < s.cap.poolThreshold))

/-- A run is safe when every command so far took effect: the device neither faults nor refuses. -/
def takesEffect (c : Instr) (s : State) : Prop := ∃ t, exec c s = .next t

/-! ## The release of a segment -/

/-- R45: the page map `after` is `before` with the pages of two chains, `r` and then `a`, appended behind the pool's tail:
every page of both FREE, the pool's tail linked to the first one's head, its tail `tl` to the second one's head, and the
second one's tail `tl'` the end; every other page as it was. -/
def PageMap.appended (before after : PageMap) (poolTail : Option Nat) (r a : List Nat) (tl tl' : Nat) : Prop :=
  (∀ p ∈ r ++ a, PageMap.get after p
    = ⟨.free, if p = tl then a.head? else if p = tl' then none else (PageMap.get before p).next⟩)
  ∧ (∀ p, poolTail = some p → PageMap.get after p = ⟨(PageMap.get before p).owner, r.head?⟩)
  ∧ ∀ p, p ∉ r ++ a → poolTail ≠ some p → PageMap.get after p = PageMap.get before p

/-- R45, R57: `t` is left with both chains of segment `id` of `s` returned to the pool's tail, the record chain first, and
with the segment VACANT; the other segments are as they were. R46: the pool-low armed flag is set once the count is at or
above the threshold again, and a release raises no POOL_LOW. Where the chains are lists of distinct pages, the page map
has them behind the pool's tail. -/
def State.vacated (s : State) (id : SegId) (t : State) : Prop :=
  t.cap.segments[id] = {} ∧ (∀ j : SegId, j ≠ id → t.cap.segments[j] = s.cap.segments[j])
    ∧ t.cap.poolThreshold = s.cap.poolThreshold
    ∧ (s.poolSound → (t.cmd.pending.getLsbD 4 = true ↔ s.cmd.pending.getLsbD 4 = true))
    ∧ (s.cap.segments[id].records = {} → s.cap.segments[id].annotations = {} →
        t.cap.pool = s.cap.pool ∧ t.cap.pages = s.cap.pages ∧ t.cap.poolArmed = s.cap.poolArmed)
    ∧ ∀ h tl h' tl', s.cap.segments[id].records.head = some h → s.cap.segments[id].records.tail = some tl →
        s.cap.segments[id].annotations.head = some h' → s.cap.segments[id].annotations.tail = some tl' →
        t.cap.pool.count
            = s.cap.pool.count + s.cap.segments[id].records.count + s.cap.segments[id].annotations.count
          ∧ t.cap.pool.tail = some tl' ∧ (t.cap.pool.head = if s.cap.pool.tail = none then some h else s.cap.pool.head)
          ∧ (t.cap.poolArmed = true ↔ t.cap.poolThreshold ≤ t.cap.pool.count)
          ∧ ∀ r a : List Nat,
            r = chainPages s.cap.pages s.cap.segments[id].records.count (some h) → r.getLast? = some tl →
            a = chainPages s.cap.pages s.cap.segments[id].annotations.count (some h') → a.getLast? = some tl' →
            (r ++ a ++ s.cap.pool.tail.toList).Nodup → PageMap.wf s.cap.pages →
            PageMap.appended s.cap.pages t.cap.pages s.cap.pool.tail r a tl tl'

/-! ## An event at the trigger sequencer -/

/-- R160: branch `b` of the current stage is enabled and its unit matches an event that the units of `matched` match. -/
def Trg.countsEvent (q : Trg) (matched : UnitId → Prop) (b : BranchId) : Prop :=
  q.branches[q.stage][b].enabled = true ∧ matched q.branches[q.stage][b].unit

/-- R160: branch `b` is the one the event takes: it reaches its count target, and no branch before it does. -/
def Trg.takesBranch (q : Trg) (matched : UnitId → Prop) (b : BranchId) : Prop :=
  q.countsEvent matched b ∧ q.counters[q.stage][b] + 1 = q.branches[q.stage][b].target
    ∧ ∀ j, j < b → q.countsEvent matched j → q.counters[q.stage][j] + 1 ≠ q.branches[q.stage][j].target

/-- R160, R161: one event that the units of `matched` match, with an event tick, makes the sequencer `q` into `after`,
sends the fires `sent`, and raises TRIGGER_STAGE when `notice`. -/
def Trg.takesEvent (q : Trg) (matched : UnitId → Prop) (tick : Nat) (after : Trg) (sent : List Fire)
    (notice : Bool) : Prop :=
  (∀ b, q.takesBranch matched b →
    let br := q.branches[q.stage][b]
    after = { q with counters := after.counters, stage := br.next, entryTick := q.time,
                     outstanding := br.fire || q.outstanding
                     lastFire := if br.fire then some (tick, false) else q.lastFire }
      ∧ (∀ (i : StageId) (j : BranchId), after.counters[i][j] = 0)
      ∧ sent = (if br.fire then [⟨tick, false, true⟩] else []) ∧ notice = br.notice)
  ∧ ((∀ b, ¬ q.takesBranch matched b) →
      after = { q with counters := after.counters } ∧ sent = [] ∧ notice = false
      ∧ (∀ (i : StageId) (j : BranchId), i ≠ q.stage → after.counters[i][j] = q.counters[i][j])
      ∧ ∀ j : BranchId, (q.countsEvent matched j → after.counters[q.stage][j] = q.counters[q.stage][j] + 1)
          ∧ (¬ q.countsEvent matched j → after.counters[q.stage][j] = q.counters[q.stage][j]))

/-- R155 to R157: the sample event of a conditioned sample, its time already that of the sequencer `p`: the PATTERN units
are brought to the sample, and the units that match the changes, the activity changes and the raises make one event. -/
def Trg.takesSample (p : Trg) (stamp : Nat) (lines changed : Lines) (activity : List (Chan × Activity)) (after : Trg)
    (sent : List Fire) (notice : Bool) : Prop :=
  ∃ (q : Trg) (raises : UnitId → Prop),
    q = { p with raiseDue := [], patterns := q.patterns }
    ∧ (∀ u, (∀ mask value hold, p.units[u] ≠ .pattern mask value hold) →
        q.patterns[u] = p.patterns[u] ∧ (raises u ↔ u ∈ p.raiseDue))
    ∧ (∀ u mask value hold, p.units[u] = .pattern mask value hold →
        (lines &&& mask ≠ value &&& mask → q.patterns[u] = ⟨none, false⟩ ∧ (raises u ↔ u ∈ p.raiseDue))
        ∧ (lines &&& mask = value &&& mask → ∃ since raised, q.patterns[u] = ⟨some since, raised⟩
            ∧ (p.patterns[u].since = none → since = stamp)
            ∧ (∀ x, p.patterns[u].since = some x → since = x)
            ∧ (raised = true ↔ p.patterns[u].raised = true ∨ since + hold ≤ stamp)
            ∧ (raises u ↔ u ∈ p.raiseDue ∨ (raised = true ∧ p.patterns[u].raised = false))))
    ∧ q.takesEvent (fun u => match p.units[u] with
        | .edge c d => changed.getLsbD c.val = true ∧ (match d with
          | .rising => lines.getLsbD c.val = true
          | .falling => lines.getLsbD c.val = false
          | .any => True)
        | .activity c d => (c, match d with
          | .toActive => Activity.active
          | .toQuiet => Activity.quiet) ∈ activity
        | .pattern _ _ _ => raises u
        | .disabled | .record _ _ | .elapsed _ => False) stamp after sent notice

/-- R159: ELAPSED unit `i` is reached at a sample with a stamp. -/
def Trg.reaches (q : Trg) (stamp : Nat) (i : UnitId) : Prop :=
  ∃ n, q.units[i] = .elapsed n ∧ q.time < q.entryTick + n ∧ q.entryTick + n ≤ stamp

/-! ## Records as a context emits them -/

/-- R95: the record path after a context emitted a record: the record with the consumers whose conditions hold, and
nothing more where none does. -/
def State.offers (s : State) (c : Context) (r : Record) (path : List (List PathItem)) : Prop :=
  ∃ item : PathItem, item.record = r ∧ item.toQueue = c.report ∧ (item.toTrigger = true ↔ s.trg.state = .running)
    ∧ (∀ i, item.toSegment = some i → c.annotate = true ∧ s.captures i)
    ∧ (c.annotate = true → (∃ i, s.captures i) → item.toSegment ≠ none)
    ∧ path = if item.toQueue = true ∨ item.toTrigger = true ∨ item.toSegment ≠ none then s.dec.path ++ [[item]]
        else s.dec.path

/-- R94: context `d` is context `c` with one emitted unit counted, an error unit or a good one, and `cmd` the command
port after it: ERROR_THRESHOLD raised when an armed counter has reached its threshold. -/
def State.counts (s : State) (id : CtxId) (c d : Context) (error : Bool) (cmd : Cmd) : Prop :=
  if error then
    d.good = c.good ∧ d.errors = min (c.errors + 1) 65535 ∧ d.armed = decide (d.errors < c.errorThreshold)
      ∧ cmd = if c.armed = true ∧ c.errorThreshold ≤ d.errors
          then { s.cmd with pending := s.cmd.pending ||| BitVec.twoPow 14 8
                            errorThreshold := s.cmd.errorThreshold ||| BitVec.twoPow 16 id.val }
          else s.cmd
  else d.good = min (c.good + 1) (2 ^ 32 - 1) ∧ d.errors = c.errors ∧ d.armed = c.armed ∧ cmd = s.cmd

/-- R91, R93, R94, R116: one emission of a context's engine makes what the context gave at an event, `o`, into `o'`: a
record carries a pending AFTER_GAP away and is counted, an error unit with an error flag of Table 6-10 or a good one; a
suppressed unit is counted alone; a change of lock raises LOCK_CHANGE. `error` and `lock` say that ERROR_THRESHOLD and
LOCK_CHANGE are raised. -/
def Emitted.takes (o : Emitted) (e : Emission) (o' : Emitted) : Prop :=
  let c := o.context
  let errors := min (c.errors + 1) 65535
  match e with
  | .record r =>
    o'.records = o.records ++ [{ r with flags := if c.afterGap then r.flags ||| BitVec.twoPow 32 3 else r.flags }]
      ∧ o'.lock = o.lock
      ∧ ((∃ k ∈ [0, 1, 2, 4, 5, 6, 16, 18, 19, 20], r.flags.getLsbD k = true) →
        o'.context = { c with afterGap := false, errors, armed := decide (errors < c.errorThreshold) }
        ∧ (o'.error = true ↔ o.error = true ∨ (c.armed = true ∧ c.errorThreshold ≤ errors)))
      ∧ ((∀ k ∈ [0, 1, 2, 4, 5, 6, 16, 18, 19, 20], r.flags.getLsbD k = false) →
        o'.context = { c with afterGap := false, good := min (c.good + 1) (2 ^ 32 - 1) } ∧ o'.error = o.error)
  | .suppressed => o' = { o with context := { c with suppressed := min (c.suppressed + 1) 65535 } }
  | .lockChange => o' = { o with lock := true }

/-! ## A conditioned sample and the end of a run -/

/-- R83, R91, R93 to R95: DEC takes a conditioned sample: every RUNNING context reads it, the notices are raised, and the
records enter the path together. -/
def State.takesDecoded (s : State) (x : Conditioned) (step : Nat) (t : State) : Prop :=
  ∃ (given : CtxId → Emitted) (keep : Record → Bool) (batch : List PathItem),
    given = (fun i => s.dec.contexts[i].read s.dec i x step)
    ∧ (∀ i : CtxId, t.dec.contexts[i] = (given i).context
      ∧ (t.cmd.lockChange.getLsbD i.val = true ↔ s.cmd.lockChange.getLsbD i.val = true ∨ (given i).lock = true)
      ∧ (t.cmd.errorThreshold.getLsbD i.val = true
        ↔ s.cmd.errorThreshold.getLsbD i.val = true ∨ (given i).error = true))
    ∧ (t.cmd.pending.getLsbD 7 = true ↔ s.cmd.pending.getLsbD 7 = true ∨ ∃ i, (given i).lock = true)
    ∧ (t.cmd.pending.getLsbD 8 = true ↔ s.cmd.pending.getLsbD 8 = true ∨ ∃ i, (given i).error = true)
    ∧ t.dec = { s.dec with contexts := t.dec.contexts, path := t.dec.path }
    ∧ t.dec.path = (if batch = [] then s.dec.path else s.dec.path ++ [batch])
    ∧ batch.map (·.record) = ((List.finRange 16).flatMap fun i => (given i).records).filter keep
    ∧ (∀ x : Record, keep x = true ↔ s.dec.contexts[x.context].report = true ∨ s.trg.state = .running
      ∨ (s.dec.contexts[x.context].annotate = true ∧ ∃ j, s.captures j))
    ∧ ∀ p ∈ batch, p.toQueue = s.dec.contexts[p.record.context].report
      ∧ (p.toTrigger = true ↔ s.trg.state = .running)
      ∧ (∀ j, p.toSegment = some j → s.dec.contexts[p.record.context].annotate = true ∧ s.captures j)
      ∧ (s.dec.contexts[p.record.context].annotate = true → (∃ j, s.captures j) → p.toSegment ≠ none)

/-- R5 to R8, R13, R15, R16: the next conditioned sample of run `r`, formed from the filters of `t` with `newest` their
newest step: each channel takes its filtered value for step k + s, or repeats its last value where that step has been
emitted; monitors (as `m` gives them), contexts, sequencer and encoder take the sample. -/
def State.takesConditioned (s : State) (r : Run) (newest : Nat) (m : Chan → Monitor) (t : State) : Prop :=
  t.pfe.stamp = r.nextStamp
  ∧ (∀ (c : Chan) (k : Int), k = r.formed + s.pfe.inUse.offsets[c] →
    (0 < r.formed → k ≤ s.pfe.emitted[c] →
      t.pfe.lines.getLsbD c.val = s.pfe.lines.getLsbD c.val ∧ t.pfe.emitted[c] = s.pfe.emitted[c])
    ∧ (r.formed = 0 ∨ s.pfe.emitted[c] < k →
      t.pfe.lines.getLsbD c.val = t.pfe.filters[c].history.getLsbD (newest - k).toNat ∧ t.pfe.emitted[c] = k))
  ∧ ∃ (v : State) (activity : List (Chan × Activity)) (changed : Lines),
    changed = (if r.formed = 0 then 0#32 else s.pfe.lines ^^^ t.pfe.lines)
    ∧ t = (v.triggerSample r.nextStamp t.pfe.lines changed activity).encodeSample r.nextStamp t.pfe.lines
    ∧ v.trg = s.trg ∧ v.cap = s.cap
    ∧ s.takesDecoded ⟨r.nextStamp, t.pfe.lines, changed⟩ r.step t
    ∧ (∀ c : Chan, t.pfe.monitors[c]
        = (m c).sample (decide (r.formed = 0)) (max s.pfe.quietTime r.step) r.nextStamp (changed.getLsbD c.val)
      ∧ (t.pfe.monitors[c].activity ≠ s.pfe.monitors[c].activity →
        t.cmd.pending.getLsbD 10 = true ∧ t.cmd.activity.getLsbD c.val = true))
    ∧ ∀ c a, (c, a) ∈ activity ↔ (c, a) ∈ s.pfe.activityDue
      ∨ (a = t.pfe.monitors[c].activity ∧ a ≠ s.pfe.monitors[c].activity)

/-- R7: a step after the last one of a run: every filter goes on with its accepted level, and the conditioned sample
that the step completes, 24 steps behind it, is taken. No glitch is counted. -/
def State.flushes (s : State) (step : Nat) (t : State) : Prop :=
  ∃ w : State, w = { s with pfe := { s.pfe with filters := w.pfe.filters } }
    ∧ (∀ c : Chan, w.pfe.filters[c].accepted = s.pfe.filters[c].accepted ∧ w.pfe.filters[c].openRun = none
      ∧ w.pfe.filters[c].history.getLsbD 0 = s.pfe.filters[c].accepted
      ∧ ∀ k, k < 32 → w.pfe.filters[c].history.getLsbD (k + 1) = s.pfe.filters[c].history.getLsbD k)
    ∧ (step < 24 → t = w)
    ∧ ∀ r, 24 ≤ step → s.pfe.run = some r →
      w.takesConditioned r step (fun c => s.pfe.monitors[c]) t
      ∧ t.pfe = { w.pfe with lines := t.pfe.lines, stamp := t.pfe.stamp, emitted := t.pfe.emitted,
                             monitors := t.pfe.monitors, activityDue := [], run := some { r with formed := r.formed + 1 } }
      ∧ t.lvl = s.lvl ∧ t.cal = s.cal ∧ t.dsp = s.dsp ∧ t.cap.dram = s.cap.dram

/-- R7, R8: the sampling run of `s` ends: the open runs of the glitch filters are discarded, not counted, and every
conditioned sample up to the last step reaches its consumers; `v` is left with no run. -/
def State.endsRun (s v : State) : Prop :=
  (s.pfe.run = none → v = s)
  ∧ ∀ r, s.pfe.run = some r → ∃ u : Nat → State,
    u 0 = { s with pfe := { s.pfe with filters := (u 0).pfe.filters } }
    ∧ (∀ c : Chan, (u 0).pfe.filters[c] = { s.pfe.filters[c] with openRun := none })
    ∧ (∀ j, j < 24 → (u j).flushes (r.taken + j) (u (j + 1)))
    ∧ (r.taken = 0 → v = { u 0 with pfe := { (u 0).pfe with run := none } })
    ∧ (r.taken ≠ 0 → v = { u 24 with pfe := { (u 24).pfe with run := none } })

/-! ## A gap at a context -/

/-- R87, R90, R107, R125, R132, R138, R150: a RUNNING context `c` becomes `d` at a gap begin or a suspension: the partial
unit discarded with no record, AFTER_GAP pending, the next sample read the first; what its engine keeps, it keeps. (What is
left of a CLOCKED, FLASH or TWO_WIRE engine beyond the partial unit is the model's choice, assumption logs 30 and 48.) -/
def Context.takesGap (c d : Context) : Prop :=
  (c.protocol = none → d = { c with afterGap := true })
  ∧ (c.protocol = some .async → d = { c with
      afterGap := true, fresh := true
      asyncEngine := { c.asyncEngine with frame := none, phase := .huntSync, markSince := none, intervals := [],
                                          lastChange := none, pass := false } })
  ∧ (c.protocol = some .clocked → d = { c with afterGap := true, fresh := true, clockedEngine := {} })
  ∧ (c.protocol = some .flash →
      d = { c with afterGap := true, fresh := true, flashEngine := { c.flashEngine with phase := .waiting } })
  ∧ (c.protocol = some .twoWire → d = { c with
      afterGap := true, fresh := true
      twoWireEngine := { c.twoWireEngine with
        state := if c.twoWireEngine.state = .waitFree then .waitFree else .busFree
        startTick := 0, assembly := [], provisional := none, address := none, isRead := false, addressAck := false
        bytes := [], stretch := 0, lastFall := none, hold := .none, freeOrigin := none } })

/-! ## The beginning of a transition -/

/-- R22, R23, R25 with R7, R87: a level transition to `target` begins at `s`, with no request pending after it; `t` is left.
A run ends with the conditioned samples up to its last step delivered, a gap begins, and out of STANDBY the DRAM leaves
self-refresh. -/
def State.beginsTransition (s : State) (target : Level) (t : State) : Prop :=
  ∃ v : State, ({ s with lvl := { s.lvl with request := none, transition := .switching target } } : State).endsRun v
    ∧ t = { v with
        dec := { v.dec with gap := t.dec.gap, contexts := t.dec.contexts }
        cap := { v.cap with port := if s.lvl.level = .standby then .normal else v.cap.port } }
    ∧ (s.pfe.run = none → t.dec = v.dec)
    ∧ (s.pfe.run ≠ none → t.dec.gap = true ∧ ∀ i : CtxId,
      (v.dec.contexts[i].state = .running → v.dec.contexts[i].takesGap t.dec.contexts[i])
      ∧ (v.dec.contexts[i].state ≠ .running → t.dec.contexts[i] = v.dec.contexts[i]))

/-! ## The pattern of a calibration run -/

/-- R32: one advance of the pattern register: stage 15 exclusive-or stage 14 enters stage 1, and every other stage passes
its value on (stage n is bit n - 1). -/
def advances (p q : BitVec 15) : Prop :=
  q.getLsbD 0 = (p.getLsbD 14 ^^ p.getLsbD 13) ∧ ∀ n, n < 14 → q.getLsbD (n + 1) = p.getLsbD n

/-- R32: the registers of a seed, advance by advance. -/
def patternOf (seed : Nat) (reg : Nat → BitVec 15) : Prop :=
  reg 0 = BitVec.ofNat 15 seed ∧ ∀ n, advances (reg n) (reg (n + 1))

/-- R34: the filtered value of pattern step `p` is compared with another reference value at candidate lag `d`. -/
def differsAt (reg : Nat → BitVec 15) (p : Nat) (value : Bool) (d : Int) : Prop :=
  (1032 : Int) ≤ p - d ∧ (p : Int) - d ≤ 17415 ∧ (reg ((p - d).toNat / 4)).getLsbD 14 ≠ value

/-! ## What CAP serves -/

/-- R52: entry `x` stands at a slot of a page: staged there last, or, with nothing staged there, in DRAM. -/
def Cap.standsEntry (c : Cap) (page slot : Nat) (x : Entry) : Prop :=
  match (c.staged.filter fun e => decide (e.page = page ∧ e.slot = slot)).getLast? with
  | some e => e.entry = x
  | none => ∀ k, k < 8 → some (Memory.read c.dram (entryAddress page slot + k)) = x.encode[k]?

/-- R47, R52: header `h` stands on a page: staged with an entry of the page last, or, with none staged, in DRAM. -/
def Cap.standsHeader (c : Cap) (page : Nat) (h : PageHeader) : Prop :=
  match (c.staged.filter fun e => decide (e.page = page ∧ e.header ≠ none)).getLast? with
  | some e => e.header = some h
  | none => ∀ k, k < 16 → some (Memory.read c.dram (headerAddress page + k)) = h.encode[k]?

/-- R52, R55: annotation `a` stands at a slot of a page: staged there last, or, with nothing staged there, in DRAM. -/
def Cap.standsAnnotation (c : Cap) (page slot : Nat) (a : Annotation) : Prop :=
  match (c.stagedAnnotations.filter fun e => decide (e.page = page ∧ e.slot = slot)).getLast? with
  | some e => e.annotation = a
  | none => ∀ k, k < 16 → some (Memory.read c.dram (annotationAddress page slot + k)) = a.encode[k]?

/-- R48: the tick of an entry, from the tick before it: the base tick of its page, or that of the entry before. -/
def Entry.tickAfter (x : Entry) (previous : Nat) : Nat :=
  match x.kind with
  | .start => 0
  | .change | .dropout => previous + x.delta
  | .extend => previous + x.delta * 2 ^ 24

/-! ## The line state of retained entries -/

/-- R48: the entries that set the line state: CHANGE and DROPOUT. -/
def ReadEntry.setsState (e : ReadEntry) : Prop := e.kind = .change ∨ e.kind = .dropout

/-- R48: the line state in force at a tick: that of the last entry that sets it at or before the tick, or the base
state. -/
def stateInForce (base : Lines) (entries : List ReadEntry) (tick : Nat) : Lines :=
  ((entries.filter fun e => decide ((e.kind = .change ∨ e.kind = .dropout) ∧ e.tick ≤ tick)).getLast?.map
    (·.state)).getD base

/-- R48, R53: a tick lies in a dropout interval: before a DROPOUT, and after every entry that sets the line state before
it and after the base tick. -/
def inDropout (baseTick : Nat) (entries : List ReadEntry) (tick : Nat) : Prop :=
  baseTick < tick ∧ ∃ e ∈ entries, e.kind = .dropout ∧ tick < e.tick
    ∧ ∀ f ∈ entries, f.setsState → f.tick < e.tick → f.tick < tick

/-! ## The glitch filter over several samples -/

/-- Raw samples through one channel's glitch filter, the first at step `n`: the filter after them and, for each, whether
it ended a suppressed pulse (R3). -/
def GlitchFilter.feed (w : Nat) : GlitchFilter → Nat → List Bool → GlitchFilter × List Bool
  | f, _, [] => (f, [])
  | f, n, x :: xs =>
    ((f.sample w n x).1.feed w (n + 1) xs).map id fun flags => (f.sample w n x).2 :: flags

end Sys2Proof.Machine
end

