-- ==== Sys2Proof/Certificates/Slice0/Obligations.lean ====
section
/-! DEFINITION. Obligations.lean: the statements for the provers, each a proposition about the model. A statement that
says where a command completes gives the next state as an update of the state before, so that everything it does not
name is unchanged. -/

open Sys2Proof Sys2Proof.Machine

/-! ## The queue of commands -/

/-- A step runs the command at the front of the queue with the queue's rest; with none waiting the device idles (the
idling is the model's choice, assumption log 5). -/
def Obligations.StepRunsTheFrontCommand : Prop :=
  (∀ (s : State) (c : Instr) (rest : List Instr), s.pending = c :: rest → step s = exec c { s with pending := rest })
    ∧ ∀ s : State, s.pending = [] → step s = .next s

/-- No command adds a waiting command or takes one away. The queue of waiting commands is the model's (assumption log 27),
and that power-on keeps it is the model's choice (assumption log 22). -/
def Obligations.CommandsKeepTheWaitingCommands : Prop :=
  ∀ (c : Instr) (s t : State), exec c s = .next t → t.pending = s.pending

/-! ## Invariants that every step keeps -/

/-- DRAM and the page map stay in canonical form. -/
def Obligations.StepKeepsMemoryCanonical : Prop :=
  ∀ s t : State, s.memoryCanonical → step s = .next t → t.memoryCanonical

/-- Registers, counters, thresholds and FIFOs stay within the ranges their rules give (R14, R15, R21, R30, R32, R46,
R56, R94, R96, R99). The period of a RUNNING ASYNC context stays in its effective window for the decode level (R103, R89;
R24, R30, R39, R90 keep calibration, transitions and pending requests apart), a flash target model that is powered down is
not busy and has no continuation armed (R132 to R134), the free pool and the chains of the segments hold every page once
(R43 to R45, R57), the pool-low armed flag is set exactly while the count is at or above the threshold (R46), and what is
staged lies in slots of pages of the segment that captures or drains (R47, R52, R55, R61). (The clauses on periods, pages and
staged entries are about states in which encoder and sequencer follow the capture, the last two with the page map in canonical
form, and the last one with the pages each held once, invariants that every step keeps.) -/
def Obligations.StepKeepsRangesOfTheRules : Prop :=
  (∀ s t : State, s.inRange → step s = .next t → t.inRange)
  ∧ (∀ s t : State, s.captureSound → s.periodsSound → step s = .next t → t.periodsSound)
  ∧ (∀ s t : State, s.modelsSound → step s = .next t → t.modelsSound)
  ∧ (∀ s t : State, s.captureSound → s.memoryCanonical → s.pagesSound → step s = .next t → t.pagesSound)
  ∧ (∀ s t : State, s.poolSound → step s = .next t → t.poolSound)
  ∧ ∀ s t : State, s.captureSound → s.memoryCanonical → s.pagesSound → s.stagedSound → step s = .next t →
    t.stagedSound

/-- R60 with R25, R31, R53, R54, R71 and R152: one segment at most captures or drains, the encoder and the sequencer
follow it, and a capture excludes a level transition and a calibration run. -/
def Obligations.StepKeepsOneCapture : Prop :=
  ∀ s t : State, s.captureSound → step s = .next t → t.captureSound

/-- R181: a detail set is non-empty exactly while its kind is pending. -/
def Obligations.StepKeepsDetailSetsWithTheirKinds : Prop :=
  ∀ s t : State, s.noticesSound → step s = .next t → t.noticesSound

/-- R160: every branch counter stays below its branch's count target, and only the current stage's counters differ
from 0. -/
def Obligations.StepKeepsBranchCountersBelowTargets : Prop :=
  ∀ s t : State, s.triggerSound → step s = .next t → t.triggerSound

/-- The state after power-on meets every invariant above. -/
def Obligations.ResetMeetsTheInvariants : Prop :=
  State.reset.memoryCanonical ∧ State.reset.inRange ∧ State.reset.captureSound ∧ State.reset.noticesSound
    ∧ State.reset.triggerSound ∧ State.reset.periodsSound ∧ State.reset.modelsSound ∧ State.reset.pagesSound
    ∧ State.reset.poolSound ∧ State.reset.stagedSound

/-! ## Rules of the whole device -/

/-- R52: DRAM is written at drain completions alone; POWER_ON leaves it as the model chooses (assumption log 2). -/
def Obligations.OnlyDrainCompletionsWriteDram : Prop :=
  ∀ (c : Instr) (s t : State), exec c s = .next t → c ≠ .drainCompletion → c ≠ .powerOn → t.cap.dram = s.cap.dram

/-- R18, R20: the present level changes only at the completion of a transition and at power-on, and the acquisition
tick count only at a sample, at such a completion (R20 raises it at ECONOMY) and at the two resets. -/
def Obligations.LevelAndCountChangeOnlyWhereStated : Prop :=
  ∀ (c : Instr) (s t : State), exec c s = .next t →
    (t.lvl.level ≠ s.lvl.level → c = .levelTransitionComplete ∨ c = .powerOn)
      ∧ (t.lvl.count ≠ s.lvl.count →
          (∃ probes, c = .sampleStep probes) ∨ c = .levelTransitionComplete ∨ c = .reset ∨ c = .powerOn)

/-! ## The command port and the notices -/

/-- R178, R179: outside an open request frame a request's bytes are no request: no effect (that such a command leaves the
whole state as it is, is the model's choice, assumption log 7). The select's assertion begins a frame; its deassertion
ends one, discards an incomplete request, or a held one (the model's choice, assumption log 9), and loses an unread
response, while a read in flight goes on; an assertion within a frame changes nothing (assumption log 8). -/
def Obligations.PortSelectFramesRequests : Prop :=
  (∀ (c : Instr) (s : State), (∃ k, requestCode c = some k) ∨ (∃ k, c = .unknownRequest k) → ¬ s.takesRequests →
    exec c s = .next s)
  ∧ ((∀ s : State, s.cmd.frame = .idle → exec .portSelectAssert s
      = .next { s with cmd := { s.cmd with frame := .request, response := none, held := none } })
  ∧ (∀ s : State, s.cmd.frame ≠ .idle → exec .portSelectAssert s = .next s)
  ∧ ∀ s : State, ∃ read, exec .portSelectDeassert s
      = .next { s with cmd := { s.cmd with frame := .idle, response := none, held := none },
                       cap := { s.cap with read := read } }
    ∧ (s.cap.read = none → read = none)
    ∧ ∀ r, s.cap.read = some r → read = some { r with frameOpen := false })

/-- R19, R179: resting in STANDBY every recognised request but SET_LEVEL, NOTICES_READ, NOTICES_MASK, IDENTIFY and RESET
is answered LEVEL with no effect; a code the device does not recognise is answered UNKNOWN at every level; a request with
fewer parameter bytes than it needs is refused BAD_PARAM with no effect. (The model's choice: in STANDBY a short request is
answered LEVEL, assumption log 32. A SEGMENT_READ or ANNOTATION_READ that finds a read in flight waits for it, R180: the
statements on reads say so.) -/
def Obligations.TurnedAwayRequestsHaveNoEffect : Prop :=
  ((∀ (c : Instr) (s : State) (k : Nat), requestCode c = some k → k ∉ standbyCodes → s.takesRequests →
    (k = 0x15 ∨ k = 0x16 → s.cap.read = none) → s.restsInStandby → exec c s = .next (s.answered .level))
  ∧ ∀ (code : Byte) (s : State), code.toNat = 0 ∨ 0x2E < code.toNat → s.takesRequests →
    exec (.unknownRequest code) s = .next (s.answered .unknown))
  ∧ ((∀ (c : Instr) (s : State), parameterFit c = some .short → s.takesRequests →
    (requestCode c = some 0x15 ∨ requestCode c = some 0x16 → s.cap.read = none) →
    ¬ s.restsInStandby ∨ (∃ k, requestCode c = some k ∧ k ∈ standbyCodes) →
    exec c s = .next (s.answered .badParam))
  ∧ ∀ (params : List Byte) (s : State), s.admits →
    params.length < 2 ∨ params.length < 2 + 8 * (params.getD 1 0#8).toNat →
    exec (.flashSetLoad params) s = .next (s.answered .badParam))

/-- The values that power-on gives to every block (the power-on columns of the state tables; R13 to R16, R18, R30, R40, R44,
R46, R57, R80, R96, R97, R99, R152, R166, R181, R182). (That the settings and the threshold of a FREE context hold the
values of CONTEXT_OPEN is the model's choice, assumption log 26: R80 says all fields cleared.) -/
def Obligations.PowerOnGivesTheStatedValues : Prop :=
  ∀ s : State, ∃ t, exec .powerOn s = .next t
    ∧ (∀ p : Pod, t.pfe.thresholds[p] = 70#8)
    ∧ (∀ c : Chan, t.pfe.full.offsets[c] = 0 ∧ t.pfe.economy.offsets[c] = 0)
    ∧ (∀ p : Pod, t.pfe.full.widths[p] = 0 ∧ t.pfe.economy.widths[p] = 0)
    ∧ t.pfe.active = some .full ∧ t.pfe.lines = 0#32 ∧ t.pfe.stamp = 0
    ∧ t.pfe.glitchThreshold = 1000 ∧ t.pfe.quietTime = 2000000
    ∧ (∀ c : Chan, t.pfe.monitors[c] = ⟨0, 0, true, .quiet, none, none, none⟩)
    ∧ t.lvl = ⟨.full, .steady, none, 0, false⟩
    ∧ (∃ r, t.pfe.run = some r ∧ r.firstStamp = 0 ∧ r.step = 1 ∧ r.taken = 0)
    ∧ t.cal.state = .idle ∧ t.cal.channels = 0#32 ∧ t.cal.seed = 1 ∧ t.cal.tolerance = 0 ∧ t.cal.pattern = 1#15
    ∧ (∀ c : Chan, t.cal.results[c] = .notSelected ∧ ∀ i : Fin 16, t.cal.mismatches[c][i] = 0)
    ∧ t.cal.outcome = .none ∧ t.cal.runLevel = none ∧ t.cal.output = false
    ∧ t.cap.pool = ⟨some 0, some 32767, 32768⟩ ∧ t.cap.poolThreshold = 1024 ∧ t.cap.poolArmed = true
    ∧ (∀ p, p < 32768 → PageMap.get t.cap.pages p = ⟨.free, if p < 32767 then some (p + 1) else none⟩)
    ∧ (∀ i : SegId, t.cap.segments[i] = {}) ∧ t.cap.fires = [] ∧ t.cap.read = none ∧ t.cap.port = .normal
    ∧ t.cap.encoder.state = .idle ∧ t.cap.staged = [] ∧ t.cap.stagedAnnotations = []
    ∧ (∀ i : CtxId, t.dec.contexts[i] = {}) ∧ t.dec.setA = [] ∧ t.dec.setB = [] ∧ t.dec.level = .full
    ∧ t.dec.gap = false ∧ t.dec.queue = [] ∧ t.dec.isOpen = true ∧ t.dec.lost = 0 ∧ t.dec.span = none
    ∧ t.dec.threshold = 256 ∧ t.dec.armed = true ∧ t.dec.path = []
    ∧ t.trg.state = .idle ∧ t.trg.outstanding = false ∧ t.trg.lastFire = none ∧ t.trg.stage = 0 ∧ t.trg.entryTick = 0
    ∧ t.trg.time = 0 ∧ (∀ u : UnitId, t.trg.units[u] = .disabled ∧ t.trg.patterns[u] = ⟨none, false⟩)
    ∧ (∀ (i : StageId) (b : BranchId), t.trg.branches[i][b] = ⟨false, 0, 1, 0, false, false⟩ ∧ t.trg.counters[i][b] = 0)
    ∧ t.dsp.staged = {} ∧ t.dsp.active = {} ∧ t.dsp.state = .idle ∧ t.dsp.pending = false ∧ t.dsp.horizon = none
    ∧ t.dsp.annotationHorizon = none ∧ t.dsp.cellMap = [] ∧ t.dsp.outcome = .none
    ∧ t.cmd = ⟨.idle, none, none, 0#14, BitVec.allOnes 14, 0#16, 0#16, 0#32, 0#32⟩ ∧ t.attention = false

/-- R184 with the reset rules of the blocks: what RESET keeps and what it sets. (That it discards the records on the record
path is the model's choice, assumption log 12: R80 names the partial units and the records being formed. That the settings
and the threshold of a FREE context hold the values of CONTEXT_OPEN is the model's choice, assumption log 26.) -/
def Obligations.ResetRequestKeepsAndClears : Prop :=
  ∀ s : State, s.takesRequests → ∃ t, exec .reset s = .next t
    ∧ t.cmd = { s.cmd with frame := .response, response := some ⟨.ok, .none⟩, pending := 0#14, lockChange := 0#16,
                           errorThreshold := 0#16, glitch := 0#32, activity := 0#32 }
    ∧ t.pfe.thresholds = s.pfe.thresholds ∧ t.pfe.full = s.pfe.full ∧ t.pfe.economy = s.pfe.economy
    ∧ t.pfe.active = s.pfe.active ∧ t.pfe.glitchThreshold = s.pfe.glitchThreshold
    ∧ t.pfe.quietTime = s.pfe.quietTime ∧ t.pfe.lines = 0#32 ∧ t.pfe.stamp = 0
    ∧ (∀ c : Chan, t.pfe.monitors[c].edges = 0 ∧ t.pfe.monitors[c].glitches = 0 ∧ t.pfe.monitors[c].armed = true
        ∧ t.pfe.monitors[c].activity = .quiet ∧ t.pfe.monitors[c].remembered = none
        ∧ t.pfe.monitors[c].quietFrom = none ∧ t.pfe.monitors[c].expiry = none)
    ∧ t.lvl = { s.lvl with request := none, count := 0, exhausted := false }
    ∧ (s.lvl.transition = .steady → s.lvl.level ≠ .standby →
        ∃ r, t.pfe.run = some r ∧ r.firstStamp = 0 ∧ r.taken = 0 ∧ r.step = if s.lvl.level = .full then 1 else 4)
    ∧ (s.switches ∨ s.lvl.level = .standby → t.pfe.run = none)
    ∧ t.cal.state = .idle ∧ t.cal.channels = 0#32 ∧ t.cal.seed = 1 ∧ t.cal.tolerance = 0 ∧ t.cal.runLevel = none
    ∧ t.cal.outcome = .none ∧ (∀ c : Chan, t.cal.results[c] = .notSelected) ∧ t.cal.output = false
    ∧ t.cap.dram = s.cap.dram ∧ t.cap.staged = [] ∧ t.cap.stagedAnnotations = [] ∧ t.cap.encoder.state = .idle
    ∧ t.cap.pool = ⟨some 0, some 32767, 32768⟩ ∧ t.cap.poolThreshold = s.cap.poolThreshold ∧ t.cap.poolArmed = true
    ∧ (∀ p, p < 32768 → PageMap.get t.cap.pages p = ⟨.free, if p < 32767 then some (p + 1) else none⟩)
    ∧ (∀ i : SegId, t.cap.segments[i] = {}) ∧ t.cap.fires = [] ∧ t.cap.read = none
    ∧ t.cap.port = (if s.cap.port = .entering then .selfRefresh else s.cap.port)
    ∧ (∀ i : CtxId, t.dec.contexts[i] = {}) ∧ t.dec.setA = [] ∧ t.dec.setB = [] ∧ t.dec.path = []
    ∧ t.dec.level = s.dec.level ∧ (t.dec.gap = true ↔ s.dec.gap = true ∧ s.switches)
    ∧ t.dec.queue = [] ∧ t.dec.isOpen = true ∧ t.dec.lost = 0 ∧ t.dec.span = none ∧ t.dec.armed = true
    ∧ t.dec.threshold = s.dec.threshold
    ∧ t.trg.units = s.trg.units ∧ t.trg.branches = s.trg.branches ∧ t.trg.state = .idle ∧ t.trg.outstanding = false
    ∧ t.trg.lastFire = none ∧ t.trg.stage = 0 ∧ t.trg.entryTick = 0 ∧ t.trg.time = 0
    ∧ (∀ (i : StageId) (b : BranchId), t.trg.counters[i][b] = 0) ∧ (∀ u : UnitId, t.trg.patterns[u] = {})
    ∧ t.dsp.staged = {} ∧ t.dsp.active = {} ∧ t.dsp.state = .idle ∧ t.dsp.pending = false ∧ t.dsp.horizon = none
    ∧ t.dsp.annotationHorizon = none ∧ t.dsp.cellMap = [] ∧ t.dsp.outcome = .none

/-- R183: NOTICES_READ returns the pending set and the four detail sets and empties them in one event, at every level;
a notice raised before it is returned, and one raised after it is pending. -/
def Obligations.NoticesReadReturnsAndEmptiesTheSets : Prop :=
  ∀ s : State, s.takesRequests → ∃ t, exec .noticesRead s = .next t
    ∧ t = ({ s with cmd := { s.cmd with pending := 0#14, lockChange := 0#16, errorThreshold := 0#16, glitch := 0#32,
                                        activity := 0#32 } }).answered .ok
            (.notices s.cmd.pending s.cmd.lockChange s.cmd.errorThreshold s.cmd.glitch s.cmd.activity)
    ∧ t.attention = false
    ∧ (∀ n : Notice, ∃ u, exec .noticesRead (s.noticed n.index) = .next u ∧ u.cmd.pending = 0#14
        ∧ ∃ p, u.cmd.response = some ⟨.ok, .notices p s.cmd.lockChange s.cmd.errorThreshold s.cmd.glitch s.cmd.activity⟩
          ∧ p.getLsbD n.index = true ∧ ∀ k, k ≠ n.index → p.getLsbD k = s.cmd.pending.getLsbD k)
    ∧ (∀ n : Notice, (t.noticed n.index).cmd.pending.getLsbD n.index = true
        ∧ (s.cmd.mask.getLsbD n.index = false → (t.noticed n.index).attention = true))
    ∧ ∃ u, exec .portSelectDeassert t = .next u ∧ u.cmd.response = none ∧ u.cmd.pending = 0#14

/-- R182: the attention line is high while at least one pending kind is not in the mask; NOTICES_MASK replaces the mask
and clears nothing; the mask is all 14 kinds at power-on and RESET leaves it; the line is low after power-on and RESET
and after NOTICES_READ. -/
def Obligations.AttentionLineFollowsPendingAndMask : Prop :=
  (∀ s : State, s.attention = true ↔ ∃ k, k < 14 ∧ s.cmd.pending.getLsbD k = true ∧ s.cmd.mask.getLsbD k = false)
  ∧ (∀ (s : State) (mask : BitVec 16), s.takesRequests → ∃ m : BitVec 14,
      (∀ k, k < 14 → m.getLsbD k = mask.getLsbD k)
      ∧ exec (.noticesMask .enough mask) s
          = .next ({ s with cmd := { s.cmd with mask := m } }.answered .ok (.mask m s.cmd.pending)))
  ∧ State.reset.cmd.mask = BitVec.allOnes 14 ∧ State.reset.attention = false
  ∧ ∀ s : State, s.takesRequests →
      (∃ t, exec .reset s = .next t ∧ t.cmd.mask = s.cmd.mask ∧ t.attention = false)
      ∧ ∃ t, exec .noticesRead s = .next t ∧ t.cmd.mask = s.cmd.mask ∧ t.attention = false

/-! ## Requests that only return state -/

/-- R12, R9, R26, R40, R46, R59, R164, R177, R184: what FRONT_END_READ, LINES_READ, LEVEL_STATUS, READ_CALIBRATION,
POOL_STATUS, SEGMENT_STATUS, TRIGGER_STATUS, TRIGGER_PROGRAM_READ, DISPLAY_STATUS and IDENTIFY return; each changes
nothing, and IDENTIFY is taken at every level. (A pattern step of at least 1,024 while MEASURING is the model's choice,
assumption log 15.) -/
def Obligations.StatusRequestsReturnStateAndChangeNone : Prop :=
  (∀ s : State, s.admits →
    (exec (.frontEndRead .enough 0#8) s = .next (s.answered .ok
        (.frontEnd s.pfe.thresholds s.pfe.full.offsets s.pfe.full.widths (decide (s.pfe.active = some .full)))))
    ∧ (exec (.frontEndRead .enough 1#8) s = .next (s.answered .ok
        (.frontEnd s.pfe.thresholds s.pfe.economy.offsets s.pfe.economy.widths
          (decide (s.pfe.active = some .economy)))))
    ∧ (∀ b : Byte, 2 ≤ b.toNat → exec (.frontEndRead .enough b) s = .next (s.answered .badParam))
    ∧ (∃ activity : Vector Activity 32, (∀ c : Chan, activity[c] = s.pfe.monitors[c].activity)
        ∧ exec .linesRead s = .next (s.answered .ok (.lines s.pfe.lines s.pfe.stamp activity)))
    ∧ exec .levelStatus s = .next (s.answered .ok
        (.level s.lvl.level s.lvl.transition s.lvl.request s.lvl.count s.lvl.exhausted))
    ∧ exec .readCalibration s = .next (s.answered .ok (.calibration s.cal.state
        (match s.cal.state with
          | .idle => none
          | .settling => some (s.cal.counted - 1)
          | .measuring => some (max 1024 (s.cal.counted - 1)))
        s.cal.outcome s.cal.runLevel s.cal.channels s.cal.seed s.cal.tolerance s.cal.results))
    ∧ exec .poolStatus s = .next (s.answered .ok
        (.pool s.cap.pool.count s.cap.pool.head s.cap.pool.tail s.cap.poolThreshold s.cap.poolArmed))
    ∧ (∀ (b : Byte) (id : SegId), b.toNat = id.val → ∃ fill annotationFill,
        exec (.segmentStatus .enough b) s = .next (s.answered .ok (.segment s.cap.segments[id] fill annotationFill))
        ∧ (s.cap.segments[id].records.count = 0 → fill = 0)
        ∧ (s.cap.segments[id].annotations.count = 0 ∨ s.cap.segments[id].annotationsStored = 0 → annotationFill = 0)
        ∧ (0 < s.cap.segments[id].records.count → 0 < s.cap.segments[id].written →
            fill = (s.cap.segments[id].written - 1) % 510 + 1)
        ∧ (0 < s.cap.segments[id].annotations.count → 0 < s.cap.segments[id].annotationsStored →
            annotationFill = (s.cap.segments[id].annotationsStored - 1) % 256 + 1))
    ∧ ∀ b : Byte, 8 ≤ b.toNat → exec (.segmentStatus .enough b) s = .next (s.answered .badParam))
  ∧ ((∀ s : State, s.admits →
    (∃ patterns, exec .triggerStatus s = .next (s.answered .ok (.trigger s.trg.state s.trg.outstanding s.trg.stage
        s.trg.entryTick s.trg.time s.trg.lastFire s.trg.counters patterns))
      ∧ ∀ (u : UnitId) (p : PatternState), (u, p) ∈ patterns ↔
          (∃ mask value hold, s.trg.units[u] = .pattern mask value hold) ∧ p = s.trg.patterns[u])
    ∧ exec .triggerProgramRead s = .next (s.answered .ok (.program s.trg.units s.trg.branches))
    ∧ exec .displayStatus s = .next (s.answered .ok (.display s.dsp.staged s.dsp.active s.dsp.state s.dsp.pending
        s.dsp.outcome s.dsp.horizon s.dsp.annotationHorizon
        (if s.dsp.state = .reading then some s.dsp.nextColumn else none))))
  ∧ ∀ s : State, s.takesRequests → exec .identify s
      = .next (s.answered .ok (.identity 0x5E#8 0x0C32#16 1 32768 8 16 512)))

/-! ## The probe front end -/

/-- R1, R11: THRESHOLD_SET stores the code of one pod; DESKEW_SET and GLITCH_WIDTH_SET write the clamped value to every
channel or pod of the set in the named context; the active context is BUSY while a segment captures or CAL is active; a
pod of 4 or more and any other level are BAD_PARAM. (That an empty set on a context in use is BUSY too is the model's
choice, assumption log 37.) -/
def Obligations.FrontEndWritesStoreClampOrRefuse : Prop :=
  (∀ (s : State) (pod code : Byte), s.admits →
    (4 ≤ pod.toNat → exec (.thresholdSet .enough pod code) s = .next (s.answered .badParam))
    ∧ (pod.toNat < 4 → ∃ codes : Vector Byte 4,
        exec (.thresholdSet .enough pod code) s
          = .next ({ s with pfe := { s.pfe with thresholds := codes } }.answered .ok)
        ∧ ∀ p : Pod, codes[p] = if p.val = pod.toNat then code else s.pfe.thresholds[p]))
  ∧ (∀ (s : State) (level pods : Byte) (channels : Lines) (offset : Int) (width : Nat), s.admits →
    (2 ≤ level.toNat →
      exec (.deskewSet .enough level channels offset) s = .next (s.answered .badParam)
      ∧ exec (.glitchWidthSet .enough level pods width) s = .next (s.answered .badParam))
    ∧ ∀ id : FrontEndId, level.toNat = (match id with | .full => 0 | .economy => 1) →
      (s.pfe.active = some id → (∃ i, s.captures i) ∨ s.calibrates →
        exec (.deskewSet .enough level channels offset) s = .next (s.answered .busy)
        ∧ exec (.glitchWidthSet .enough level pods width) s = .next (s.answered .busy))
      ∧ (¬ (s.pfe.active = some id ∧ ((∃ i, s.captures i) ∨ s.calibrates)) →
        (∃ f : FrontEnd, exec (.deskewSet .enough level channels offset) s
            = .next ({ s with pfe := s.pfe.setFrontEnd id f }.answered .ok)
          ∧ f.widths = (s.pfe.frontEnd id).widths
          ∧ ∀ c : Chan, f.offsets[c]
              = if channels.getLsbD c.val then max (-8) (min offset 7) else (s.pfe.frontEnd id).offsets[c])
        ∧ ∃ f : FrontEnd, exec (.glitchWidthSet .enough level pods width) s
            = .next ({ s with pfe := s.pfe.setFrontEnd id f }.answered .ok)
          ∧ f.offsets = (s.pfe.frontEnd id).offsets
          ∧ ∀ p : Pod, f.widths[p] = if pods.getLsbD p.val then min width 15 else (s.pfe.frontEnd id).widths[p]))

/-- R17 with R13, R14 and R15: MONITOR_SET writes each flagged value, clamped; a written glitch threshold is compared with
every counter, and an armed channel whose counter has reached it is disarmed and raises GLITCH_THRESHOLD. MONITOR_READ
returns the edge count, the glitch count and the activity state of every channel of the set, in ascending channel order,
and sets both counters of those channels to 0, re-armed. (R16: a written quiet time leaves the expiry of a running timer to
be fixed at the next conditioned sample, assumption log 44.) -/
def Obligations.MonitorSetAndMonitorRead : Prop :=
  (∀ (s : State) (writeThreshold writeQuiet : Bool) (threshold quiet : Nat), s.admits → ∃ t,
    exec (.monitorSet .enough writeThreshold threshold writeQuiet quiet) s = .next t
    ∧ t = { s with
        pfe := { s.pfe with
          glitchThreshold := if writeThreshold then min (max threshold 1) 65535 else s.pfe.glitchThreshold
          quietTime := if writeQuiet then min (max quiet 1) 16777215 else s.pfe.quietTime
          monitors := t.pfe.monitors }
        cmd := { s.cmd with frame := .response, response := some ⟨.ok, .none⟩, pending := t.cmd.pending,
                            glitch := t.cmd.glitch } }
    ∧ (∀ c : Chan, t.pfe.monitors[c] = { s.pfe.monitors[c] with
        armed := if writeThreshold then decide (s.pfe.monitors[c].glitches < t.pfe.glitchThreshold)
          else s.pfe.monitors[c].armed
        expiry := if writeQuiet then none else s.pfe.monitors[c].expiry })
    ∧ (∀ c : Chan, t.cmd.glitch.getLsbD c.val = true ↔ s.cmd.glitch.getLsbD c.val = true
        ∨ (writeThreshold = true ∧ s.pfe.monitors[c].armed = true
            ∧ t.pfe.glitchThreshold ≤ s.pfe.monitors[c].glitches))
    ∧ ∀ k, k < 14 → (t.cmd.pending.getLsbD k = true ↔ s.cmd.pending.getLsbD k = true
        ∨ (k = 9 ∧ writeThreshold = true ∧ ∃ c : Chan, s.pfe.monitors[c].armed = true
            ∧ t.pfe.glitchThreshold ≤ s.pfe.monitors[c].glitches)))
  ∧ (∀ (s : State) (channels : Lines), s.admits → ∃ (readings : List MonitorReading) (monitors : Vector Monitor 32),
    exec (.monitorRead .enough channels) s
      = .next ({ s with pfe := { s.pfe with monitors := monitors } }.answered .ok (.monitors readings))
    ∧ (readings.map fun r => r.channel.val).Pairwise (· < ·)
    ∧ (∀ r, r ∈ readings ↔ channels.getLsbD r.channel.val = true
        ∧ r = ⟨r.channel, s.pfe.monitors[r.channel].edges, s.pfe.monitors[r.channel].glitches,
              s.pfe.monitors[r.channel].activity⟩)
    ∧ ∀ c : Chan, monitors[c] = if channels.getLsbD c.val
        then { s.pfe.monitors[c] with edges := 0, glitches := 0, armed := true } else s.pfe.monitors[c])

/-- R3: with glitch width w, a pulse of at most w samples is suppressed, counted once at the sample that ends it, and
leaves the surrounding level at every one of its steps; w + 1 samples of the other level are accepted and dated at the
first of them, and counted by none: the steps from that one on have the new level, and every step before it keeps the value
it had, the last of them the old level. R4: an open run that meets another width keeps its first step and its length; the next
sample ends it as a counted pulse when it equals the accepted level, and otherwise lengthens it, and it is accepted when its
length is then at or above the new w + 1. -/
def Obligations.GlitchFilterSuppressesShortPulses : Prop :=
  (∀ (w n : Nat) (f : GlitchFilter), w ≤ 15 → f.openRun = none →
    (∀ m, 1 ≤ m → m ≤ w →
      ((f.feed w n (List.replicate m (!f.accepted) ++ [f.accepted])).1.accepted = f.accepted)
      ∧ (f.feed w n (List.replicate m (!f.accepted) ++ [f.accepted])).1.openRun = none
      ∧ (f.feed w n (List.replicate m (!f.accepted) ++ [f.accepted])).2 = List.replicate m false ++ [true]
      ∧ ∀ i, i ≤ m →
          (f.feed w n (List.replicate m (!f.accepted) ++ [f.accepted])).1.history.getLsbD i = f.accepted)
    ∧ ((f.feed w n (List.replicate (w + 1) (!f.accepted))).1.accepted = !f.accepted)
    ∧ (f.feed w n (List.replicate (w + 1) (!f.accepted))).1.openRun = none
    ∧ (f.feed w n (List.replicate (w + 1) (!f.accepted))).2 = List.replicate (w + 1) false
    ∧ (∀ i, i ≤ w → (f.feed w n (List.replicate (w + 1) (!f.accepted))).1.history.getLsbD i = !f.accepted)
    ∧ (∀ i, i + (w + 1) < 33 →
        (f.feed w n (List.replicate (w + 1) (!f.accepted))).1.history.getLsbD (i + (w + 1)) = f.history.getLsbD i)
    ∧ (f.history.getLsbD 0 = f.accepted →
        (f.feed w n (List.replicate (w + 1) (!f.accepted))).1.history.getLsbD (w + 1) = f.accepted))
  -- an open run of any length at a width of its own
  ∧ ∀ (w n : Nat) (f : GlitchFilter) (r : OpenRun), f.openRun = some r →
    ((f.sample w n f.accepted).2 = true ∧ (f.sample w n f.accepted).1.accepted = f.accepted
      ∧ (f.sample w n f.accepted).1.openRun = none ∧ (f.sample w n f.accepted).1.history.getLsbD 0 = f.accepted
      ∧ ∀ i, i < 32 → (f.sample w n f.accepted).1.history.getLsbD (i + 1) = f.history.getLsbD i)
    ∧ (f.sample w n (!f.accepted)).2 = false
    ∧ (r.length + 1 < w + 1 → (f.sample w n (!f.accepted)).1.accepted = f.accepted
      ∧ (f.sample w n (!f.accepted)).1.openRun = some ⟨r.start, r.length + 1⟩
      ∧ (f.sample w n (!f.accepted)).1.history.getLsbD 0 = f.accepted
      ∧ ∀ i, i < 32 → (f.sample w n (!f.accepted)).1.history.getLsbD (i + 1) = f.history.getLsbD i)
    ∧ (w + 1 ≤ r.length + 1 → (f.sample w n (!f.accepted)).1.accepted = !f.accepted
      ∧ (f.sample w n (!f.accepted)).1.openRun = none
      ∧ (∀ i, i ≤ r.length → i < 33 → (f.sample w n (!f.accepted)).1.history.getLsbD i = !f.accepted)
      ∧ ∀ i, r.length ≤ i → i < 32 →
        (f.sample w n (!f.accepted)).1.history.getLsbD (i + 1) = f.history.getLsbD i)

/-- R2 to R8, R13, R14, R20, R25: SAMPLE_STEP takes one raw sample of the run through each channel's comparator and glitch
filter, counts the pulses it ends and advances the count by the sample step; the conditioned sample whose latency it
completes takes each channel's filtered value for step k + s, or repeats the last value where that step has been emitted,
and is offered to monitors, RUNNING contexts, sequencer and encoder. R83, R91, R93 to R95, R116: a RUNNING context reads it
with the engine of its protocol and every emission is counted; the records enter the path together. The model's choices:
a latency of 24 sample steps (assumption log 1), expiries taken just ahead of the sample belong to it (assumption log 4),
the order of the consumers (assumption log 10), voltages in microvolts (assumption log 16), no sample without a sampling
run (assumption log 6); that a quiet time is compared with this sample's step is read by inference (assumption log 44).
That the first sample of a run expires no quiet timer is R7 read against R15, assumption log 20. R25: where the sample ends
a capture, a pending level request is released after it; what a gap leaves of a CLOCKED, FLASH or TWO_WIRE engine is the
model's choice, assumption logs 30 and 48. Left out: the sample that exhausts the count, a due completion of CAL. -/
def Obligations.SampleStepTakesOneSample : Prop :=
  (∀ (s : State) (probes : Vector Int 32) (r : Run) (raw : Chan → Bool) (ends : Chan → Prop),
    s.pfe.run = some r → s.lvl.exhausted = false →
    (s.cal.state = .measuring → ∃ c : Chan, s.cal.compared[c] ≤ 17422) →
    s.lvl.count + r.step ≤ 2 ^ 48 - 1 →
    (∀ c : Chan, raw c = true ↔ (20000 : Int) * (s.pfe.thresholds[c.val / 8]'(by omega)).toNat < probes[c]) →
    (∀ c : Chan, ends c ↔ r.taken ≠ 0
      ∧ (s.pfe.filters[c].sample (s.pfe.inUse.widths[c.val / 8]'(by omega)) r.taken (raw c)).2 = true) →
    ∃ u t, exec (.sampleStep probes) s = .next t
      ∧ (s.lvl.request = none ∨ s.switches ∨ ¬ u.noCapture → t = u)
      ∧ (∀ target, s.lvl.request = some target → ¬ s.switches → u.noCapture → u.beginsTransition target t)
      ∧ u.lvl = { s.lvl with count := s.lvl.count + r.step }
      ∧ u.pfe.run = some { r with taken := r.taken + 1, formed := if 24 ≤ r.taken then r.formed + 1 else r.formed }
      ∧ (r.taken = 0 → ∀ c : Chan, u.pfe.filters[c].openRun = none ∧ u.pfe.filters[c].accepted = raw c)
      ∧ (r.taken ≠ 0 → ∀ c : Chan, u.pfe.filters[c]
          = (s.pfe.filters[c].sample (s.pfe.inUse.widths[c.val / 8]'(by omega)) r.taken (raw c)).1)
      ∧ (∀ c : Chan, ends c → s.pfe.monitors[c].armed = true →
          s.pfe.glitchThreshold ≤ min (s.pfe.monitors[c].glitches + 1) 65535 →
          u.cmd.pending.getLsbD 9 = true ∧ u.cmd.glitch.getLsbD c.val = true)
      ∧ (r.taken < 24 → u.pfe.lines = s.pfe.lines ∧ u.pfe.stamp = s.pfe.stamp ∧ u.dec = s.dec ∧ u.cap = s.cap
          ∧ u.trg = s.trg
          ∧ ∀ c : Chan, (¬ ends c → u.pfe.monitors[c] = s.pfe.monitors[c])
            ∧ (ends c → u.pfe.monitors[c] = { s.pfe.monitors[c] with
              glitches := min (s.pfe.monitors[c].glitches + 1) 65535
              armed := decide (min (s.pfe.monitors[c].glitches + 1) 65535 < s.pfe.glitchThreshold) }))
      ∧ (24 ≤ r.taken → ∃ m : Chan → Monitor,
        (∀ c : Chan, (ends c → m c = { s.pfe.monitors[c] with
            glitches := min (s.pfe.monitors[c].glitches + 1) 65535
            armed := decide (min (s.pfe.monitors[c].glitches + 1) 65535 < s.pfe.glitchThreshold) })
          ∧ (¬ ends c → m c = s.pfe.monitors[c]))
        ∧ s.takesConditioned r r.taken m u)
      ∧ t.pfe.thresholds = s.pfe.thresholds ∧ t.pfe.full = s.pfe.full ∧ t.pfe.economy = s.pfe.economy
      ∧ t.pfe.active = s.pfe.active ∧ t.cap.dram = s.cap.dram ∧ t.dec.queue = s.dec.queue ∧ t.dsp = s.dsp
      ∧ t.cal.results = s.cal.results ∧ t.trg.units = s.trg.units ∧ t.trg.branches = s.trg.branches)
  ∧ (∀ (s : State) (probes : Vector Int 32), s.pfe.run = none →
    (s.cal.state = .measuring → ∃ c : Chan, s.cal.compared[c] ≤ 17422) → exec (.sampleStep probes) s = .next s)
  -- what a context gives at a sample
  ∧ (∀ (c : Context) (d : Dec) (id : CtxId) (x : Conditioned) (step : Nat) (y : Reading),
    y = ⟨x.stamp, step, x.lines, x.changed, c.fresh⟩ →
    (c.state ≠ .running ∨ c.protocol = none → c.read d id x step = { context := c })
    ∧ (c.state = .running →
      (∀ e out, c.protocol = some .async → c.asyncEngine.sample c.asyncSettings c.lanes id d.level y = (e, out) →
        c.read d id x step = ({ c with asyncEngine := e, fresh := false } : Context).emit out)
      ∧ (∀ e out, c.protocol = some .clocked → c.clockedEngine.sample c.clockedSettings c.lanes id y = (e, out) →
        c.read d id x step = ({ c with clockedEngine := e, fresh := false } : Context).emit out)
      ∧ (∀ e out, c.protocol = some .flash →
        c.flashEngine.sample c.flashSettings c.lanes (match c.flashSettings.set with
          | .a => d.setA
          | .b => d.setB) id y = (e, out) →
        c.read d id x step = ({ c with flashEngine := e, fresh := false } : Context).emit out)
      ∧ ∀ e out, c.protocol = some .twoWire → c.twoWireEngine.sample c.twoWireSettings c.lanes id y = (e, out) →
        c.read d id x step = ({ c with twoWireEngine := e, fresh := false } : Context).emit out))
  ∧ ∀ c : Context, c.emit [] = { context := c }
    ∧ ∀ (out : List Emission) (e : Emission), (c.emit out).takes e (c.emit (out ++ [e]))

/-- R7, R21, R25, R39, R70, R73, R87, R107: the sample whose advance would pass 2^48 - 1 sets the count to 2^48 - 1 and the
exhausted flag; at COUNT_EXHAUSTED the run ends with its open glitch runs discarded uncounted and every conditioned sample up
to its last step delivered, a gap begins at every RUNNING context, the capturing segment, with the entries of those samples,
is sealed LIMIT_REACHED, and the end of a capture releases a pending level request; a calibration run that is not complete by
then ends SAMPLING_ENDED with no result entered and no offset written, and its contexts resume. (The last clause is about
states in which encoder and sequencer follow the capture, an invariant that every step keeps. The model's choices: a
conditioned latency of 24 steps, assumption log 1, the order of the consumers, assumption log 10, a run's first sample that
expires no quiet timer, assumption log 20, an encoder still DROPPING
at a seal whose DROPOUT is refused its page, assumption log 38, and what is left of a CLOCKED, FLASH or TWO_WIRE engine,
assumption logs 30 and 48.) -/
def Obligations.ExhaustedCountEndsTheRun : Prop :=
  (∀ (s : State) (probes : Vector Int 32) (r : Run), s.pfe.run = some r → s.lvl.exhausted = false →
    (s.cal.state = .measuring → ∃ c : Chan, s.cal.compared[c] ≤ 17422) → 2 ^ 48 - 1 < s.lvl.count + r.step →
    ∃ t, exec (.sampleStep probes) s = .next t
      ∧ (s.lvl.request = none ∨ s.switches ∨ ¬ t.noCapture →
          t.lvl = { s.lvl with count := 2 ^ 48 - 1, exhausted := true })
      ∧ ∀ target, s.lvl.request = some target → ¬ s.switches → t.noCapture → t.pfe.run = none
          ∧ t.lvl = { s.lvl with count := 2 ^ 48 - 1, exhausted := true, request := none, transition := .switching target })
  ∧ (∀ (s : State) (r : Run), s.pfe.run = some r → s.lvl.exhausted = true → s.cal.state = .idle →
    (∀ i j, s.captures i → s.captures j → i = j) →
    ∃ t, exec .countExhausted s = .next t ∧ t.pfe.run = none ∧ t.noCapture ∧ t.dec.gap = true
      ∧ (s.lvl.request = none ∨ s.switches → t.lvl = s.lvl)
      ∧ (∀ target, s.lvl.request = some target → ¬ s.switches →
          t.lvl = { s.lvl with request := none, transition := .switching target })
      ∧ (∃ v : State, s.endsRun v ∧ t.pfe = v.pfe
        ∧ t.dec = { v.dec with gap := true, contexts := t.dec.contexts }
        ∧ (∀ i : CtxId, (v.dec.contexts[i].state = .running → v.dec.contexts[i].takesGap t.dec.contexts[i])
          ∧ (v.dec.contexts[i].state ≠ .running → t.dec.contexts[i] = v.dec.contexts[i]))
        ∧ t.cap.staged = v.cap.staged ∧ t.cap.stagedAnnotations = v.cap.stagedAnnotations ∧ t.cap.fires = v.cap.fires
        ∧ (v.noCapture → t.cap = { v.cap with port := t.cap.port } ∧ t.trg = v.trg ∧ t.cmd = v.cmd)
        ∧ ∀ id : SegId, v.captures id → v.cap.segments[id].retirePending = false →
          t.cap = { v.cap with encoder := { v.cap.encoder with state := .idle }, segments := t.cap.segments,
                               port := t.cap.port }
          ∧ (∀ j : SegId, j ≠ id → t.cap.segments[j] = v.cap.segments[j])
          ∧ t.cap.segments[id] = { v.cap.segments[id] with
              state := .sealed, sealReason := some .limitReached
              dropouts := t.cap.segments[id].dropouts
              drainPending := decide (v.cap.staged ≠ [] ∨ v.cap.stagedAnnotations ≠ []) }
          ∧ (v.cap.encoder.state = .encoding id → t.cap.segments[id].dropouts = v.cap.segments[id].dropouts)
          ∧ (v.cap.encoder.state = .dropping id →
              t.cap.segments[id].dropouts = min (v.cap.segments[id].dropouts + 1) (2 ^ 32 - 1))
          ∧ t.trg = { v.trg with state := .idle, outstanding := false, raiseDue := [] }
          ∧ t.cmd = { v.cmd with pending := if v.cap.staged = [] ∧ v.cap.stagedAnnotations = []
              then v.cmd.pending ||| BitVec.twoPow 14 0 else v.cmd.pending })
      ∧ (∀ i : CtxId, s.dec.contexts[i].state = .running →
          t.dec.contexts[i].state = .running ∧ t.dec.contexts[i].afterGap = true)
      ∧ t.cap.dram = s.cap.dram ∧ t.pfe.thresholds = s.pfe.thresholds ∧ t.cal = s.cal ∧ t.dsp = s.dsp)
  ∧ ∀ (s : State) (r : Run), s.pfe.run = some r → s.lvl.exhausted = true → s.calibrates → s.captureSound → s.noCapture →
    (s.cal.state = .measuring → s.cal.counted ≤ 17422 ∧ ∃ c : Chan, s.cal.compared[c] ≤ 17422) →
    ∃ t, exec .countExhausted s = .next t ∧ t.pfe.run = none ∧ t.dec.gap = true
      ∧ (s.lvl.request = none ∨ s.switches → t.lvl = s.lvl ∧ t.cap = s.cap)
      ∧ (∀ target, s.lvl.request = some target → ¬ s.switches →
          t.lvl = { s.lvl with request := none, transition := .switching target }
          ∧ t.cap = { s.cap with port := if s.lvl.level = .standby then .normal else s.cap.port })
      ∧ t.cal.state = .idle ∧ t.cal.outcome = .samplingEnded ∧ t.cal.output = false ∧ t.cal.results = s.cal.results
      ∧ t.pfe.full = s.pfe.full ∧ t.pfe.economy = s.pfe.economy ∧ t.cmd.pending.getLsbD 11 = true
      ∧ (∀ i : CtxId, s.dec.contexts[i].state = .suspended .calibration →
          t.dec.contexts[i] = { s.dec.contexts[i] with state := .running, afterGap := true, fresh := true })
      ∧ t.dsp = s.dsp

/-- R13, R15, R16: a channel monitor at a conditioned sample: the expiry first, then the change, counted, compared with
the one remembered, or restarting the timer; QUIET_TIMER_EXPIRY makes its channel QUIET, stops the timer and raises
ACTIVITY_CHANGE. A running timer keeps the expiry tick that its change fixed, through a change of level too; after a write
of the quiet time the next sample fixes it anew. R7: the first conditioned sample of a run stops no timer. (The model's
choice: the event is taken just ahead of the sample that reaches the expiry, assumption log 4. That a timer due at the first
sample of a run expires at the second, assumption log 20, and that a quiet time is compared with the sample step of the sample that fixes the expiry, assumption log 44, are
read by inference.) -/
def Obligations.QuietTimerExpiryMakesTheChannelQuiet : Prop :=
  (∀ (s : State) (c : Chan) (r : Run) (last due : Nat), s.pfe.run = some r → 24 ≤ r.taken →
    s.pfe.monitors[c].activity = .active → s.pfe.monitors[c].quietFrom = some last →
    s.pfe.monitors[c].expiry = some due
      ∨ (s.pfe.monitors[c].expiry = none ∧ due = last + max s.pfe.quietTime r.step) →
    (0 < r.formed → due ≤ r.nextStamp →
      ∃ monitors : Vector Monitor 32, exec (.quietTimerExpiry c) s
          = .next { s with
              pfe := { s.pfe with monitors := monitors, activityDue := s.pfe.activityDue ++ [(c, .quiet)] }
              cmd := { s.cmd with pending := s.cmd.pending ||| BitVec.twoPow 14 10,
                                  activity := s.cmd.activity ||| BitVec.twoPow 32 c.val } }
        ∧ ∀ j : Chan, monitors[j]
            = if j = c then { s.pfe.monitors[j] with activity := .quiet, quietFrom := none, expiry := none }
              else s.pfe.monitors[j])
    ∧ (r.formed = 0 ∨ r.nextStamp < due → exec (.quietTimerExpiry c) s = .next s))
  ∧ (∀ (m : Monitor) (span stamp : Nat),
    (m.activity = .quiet → m.quietFrom = none → m.expiry = none → m.sample true span stamp false = m)
    ∧ ∀ last due, m.quietFrom = some last → m.expiry = some due ∨ (m.expiry = none ∧ due = last + span) →
      m.sample true span stamp false = { m with expiry := some due })
  ∧ ∀ (m : Monitor) (span stamp edges : Nat), edges = min (m.edges + 1) 65535 →
    (m.activity = .quiet → m.quietFrom = none → m.expiry = none →
      m.sample false span stamp false = m
      ∧ (∀ t0, m.remembered = some t0 → stamp - t0 < span → m.sample false span stamp true
        = { m with edges, activity := .active, remembered := none, quietFrom := some stamp, expiry := some (stamp + span) })
      ∧ ((∀ t0, m.remembered = some t0 → span ≤ stamp - t0) →
        m.sample false span stamp true = { m with edges, remembered := some stamp }))
    ∧ ∀ last due, m.activity = .active → m.remembered = none → m.quietFrom = some last →
      m.expiry = some due ∨ (m.expiry = none ∧ due = last + span) →
      (stamp < due → m.sample false span stamp false = { m with expiry := some due }
        ∧ m.sample false span stamp true = { m with edges, quietFrom := some stamp, expiry := some (stamp + span) })
      ∧ (due ≤ stamp →
        m.sample false span stamp false = { m with activity := .quiet, quietFrom := none, expiry := none }
        ∧ m.sample false span stamp true
          = { m with edges, activity := .quiet, quietFrom := none, expiry := none, remembered := some stamp })

/-! ## The level controller -/

/-- R24 with R7, R22, R87, R107: SET_LEVEL is answered by the first of its cases, in every level state (the destination is the target level
while SWITCHING and the present level while STEADY); an accepted one with nothing in its way ends the run and begins a
transition, out of STANDBY with no run and no gap. The end of a run discards the open glitch runs uncounted and gives every
conditioned sample up to the last step to its consumers; then the gap discards the partial unit of every RUNNING context and
keeps what its engine keeps. (The model's choices: a conditioned latency of 24 steps, assumption log 1, the order of the
consumers, assumption log 10, a run's first sample that expires no quiet timer, assumption log 20, and what is left of a CLOCKED, FLASH or TWO_WIRE engine, assumption logs 30 and 48.) -/
def Obligations.SetLevelFollowsItsCases : Prop :=
  ∀ (s : State) (b : Byte), s.takesRequests →
    (3 ≤ b.toNat → exec (.setLevel .enough b) s = .next (s.answered .badParam))
    ∧ ∀ (l destination : Level), b.toNat = levelByte l →
      s.lvl.transition = .switching destination ∨ (s.lvl.transition = .steady ∧ s.lvl.level = destination) →
      (l = destination → exec (.setLevel .enough b) s
          = .next ({ s with lvl := { s.lvl with request := none } }.answered .ok))
      ∧ (l ≠ destination → (∃ i, s.captures i) ∨ s.switches → exec (.setLevel .enough b) s
          = .next ({ s with lvl := { s.lvl with request := some l } }.answered .accepted))
      ∧ (l ≠ destination → s.noCapture → ¬ s.switches → s.calibrates →
          exec (.setLevel .enough b) s = .next (s.answered .busy))
      ∧ (l ≠ destination → s.noCapture → ¬ s.switches → ¬ s.calibrates → ∃ t,
          exec (.setLevel .enough b) s = .next t
          ∧ t.lvl = { s.lvl with transition := .switching l }
          ∧ t.cmd.frame = .response ∧ t.cmd.response = some ⟨.accepted, .none⟩ ∧ t.pfe.run = none
          ∧ t.pfe.active = s.pfe.active ∧ t.pfe.thresholds = s.pfe.thresholds ∧ t.pfe.full = s.pfe.full
          ∧ t.pfe.economy = s.pfe.economy ∧ t.cal = s.cal ∧ t.dsp = s.dsp ∧ t.cap.dram = s.cap.dram
          ∧ (s.lvl.level = .standby → t.cap.port = .normal)
          ∧ (s.pfe.run ≠ none → t.dec.gap = true ∧ ∀ i : CtxId, s.dec.contexts[i].state = .running →
              t.dec.contexts[i].state = .running ∧ t.dec.contexts[i].afterGap = true)
          ∧ (s.pfe.run = none → t.pfe = s.pfe ∧ t.dec = s.dec ∧ t.trg = s.trg
              ∧ t.cap = { s.cap with port := if s.lvl.level = .standby then .normal else s.cap.port })
          -- the end of the run and the gap
          ∧ ∃ v : State, ({ s with lvl := t.lvl } : State).endsRun v
            ∧ t = { v with
                dec := { v.dec with gap := t.dec.gap, contexts := t.dec.contexts }
                cap := { v.cap with port := if s.lvl.level = .standby then .normal else v.cap.port }
                cmd := { v.cmd with frame := .response, response := some ⟨.accepted, .none⟩ } }
            ∧ (s.pfe.run ≠ none → ∀ i : CtxId,
              (v.dec.contexts[i].state = .running → v.dec.contexts[i].takesGap t.dec.contexts[i])
              ∧ (v.dec.contexts[i].state ≠ .running → t.dec.contexts[i] = v.dec.contexts[i])))

/-- R23 with R20, R21, R88, R89, R103, R104: at the completion of a transition the target becomes the present level, its front-end
context becomes active, DEC takes the gap end (a started context is RUNNING again, its ASYNC period clamped and all
else of it kept, or SUSPENDED), LEVEL_CHANGED is raised, and a run begins at FULL or ECONOMY; a pending
request begins its own transition instead. R27, R71: at STANDBY the DRAM goes into self-refresh, or waits for what is
staged, read or drawn; a transition out of STANDBY ends it (R22). (That no gap begins anew where the raise of the count into ECONOMY exhausts it
is read from R21 and R23 by inference, assumption log 23.) -/
def Obligations.TransitionCompletionEntersTheLevel : Prop :=
  ∀ (s : State) (l : Level), s.lvl.transition = .switching l → s.pfe.run = none →
    ∃ t, exec .levelTransitionComplete s = .next t
      ∧ t.lvl.level = l ∧ t.lvl.request = none
      ∧ t.pfe.active = (match l with
          | .full => some .full
          | .economy => some .economy
          | .standby => none)
      ∧ t.dec = { s.dec with gap := false, level := l, contexts := t.dec.contexts }
      ∧ (∀ i : CtxId,
          let c := s.dec.contexts[i]
          (c.state = .running ∨ c.state = .suspended .standby ∨ c.state = .suspended .rateUnsupported →
            (l = .standby → t.dec.contexts[i] = { c with state := .suspended .standby, afterGap := true })
            ∧ (l = .economy → c.protocol = some .async → c.asyncSettings.upper < 4096 →
                t.dec.contexts[i] = { c with state := .suspended .rateUnsupported, afterGap := true })
            ∧ (l = .full ∨ (l = .economy ∧ ¬ (c.protocol = some .async ∧ c.asyncSettings.upper < 4096)) →
                ∃ (engine : AsyncEngine) (low : Nat),
                  low = (if l = .economy then max c.asyncSettings.lower 4096 else c.asyncSettings.lower)
                  ∧ t.dec.contexts[i] = { c with
                    state := .running, fresh := true, asyncEngine := engine
                    afterGap := if c.state = .running then c.afterGap else true }
                  ∧ (c.protocol ≠ some .async → engine = c.asyncEngine)
                  ∧ (c.protocol = some .async → engine =
                      { c.asyncEngine with period := min (max c.asyncEngine.period low) c.asyncSettings.upper })))
          ∧ (c.state = .free ∨ c.state = .idle ∨ c.state = .suspended .calibration → t.dec.contexts[i] = c))
      ∧ t.cmd = { s.cmd with pending := s.cmd.pending ||| BitVec.twoPow 14 12 }
      ∧ t.cap = { s.cap with port := t.cap.port } ∧ t.trg = s.trg ∧ t.cal = s.cal ∧ t.dsp = s.dsp
      ∧ (∀ target, s.lvl.request = some target →
          t.lvl = { s.lvl with level := l, transition := .switching target, request := none } ∧ t.pfe.run = none
          ∧ t.cap.port = if l = .standby then .normal else s.cap.port)
      ∧ (s.lvl.request = none → t.lvl.transition = .steady
          ∧ (l ≠ .standby → t.cap.port = s.cap.port)
          ∧ (l = .standby → s.nothingStaged → s.cap.read = none → s.dsp.state ≠ .reading → t.cap.port = .selfRefresh)
          ∧ (l = .standby → ¬ (s.nothingStaged ∧ s.cap.read = none ∧ s.dsp.state ≠ .reading) → t.cap.port = .entering)
          ∧ (l = .standby ∨ s.lvl.exhausted = true →
              t.pfe.run = none ∧ t.lvl.count = s.lvl.count ∧ t.lvl.exhausted = s.lvl.exhausted)
          ∧ (l ≠ .standby → s.lvl.exhausted = false → ∀ n,
              (l = .full ∧ n = s.lvl.count)
                ∨ (l = .economy ∧ n % 4 = 0 ∧ s.lvl.count ≤ n ∧ n < s.lvl.count + 4) →
              (n ≤ 2 ^ 48 - 1 → t.lvl.count = n ∧ t.lvl.exhausted = false
                ∧ t.pfe.run = some ⟨n, if l = .full then 1 else 4, 0, 0⟩)
              ∧ (2 ^ 48 - 1 < n → t.lvl.count = 2 ^ 48 - 1 ∧ t.lvl.exhausted = true ∧ t.pfe.run = none)))

/-! ## The calibration unit -/

/-- R30, R31, R38, R87, R90, R107: CALIBRATE is refused LEVEL or BUSY, or it is accepted: the parameters clamped and stored, the run at
SETTLING with its results cleared, every RUNNING context suspended, its engine left as at a gap (what is left of a CLOCKED,
FLASH or TWO_WIRE engine beyond the partial unit is the model's choice, assumption logs 30 and 48). CALIBRATION_ABORT ends an active run with outcome
ABORTED and no result, and resumes its contexts; on an idle CAL it changes nothing. -/
def Obligations.CalibrateBeginsAndAbortEndsTheRun : Prop :=
  (∀ (s : State) (channels : Lines) (seed tolerance : Nat), s.admits →
    (s.lvl.exhausted = true → exec (.calibrate .enough channels seed tolerance) s = .next (s.answered .level))
    ∧ (s.lvl.exhausted = false → (∃ i, s.captures i) ∨ s.switches ∨ s.calibrates →
        exec (.calibrate .enough channels seed tolerance) s = .next (s.answered .busy))
    ∧ (s.lvl.exhausted = false → s.noCapture → ¬ s.switches → ¬ s.calibrates → ∃ t,
        exec (.calibrate .enough channels seed tolerance) s = .next t
        ∧ t = { s with cal := t.cal, dec := { s.dec with contexts := t.dec.contexts },
                       cmd := { s.cmd with frame := .response, response := some ⟨.accepted, .none⟩ } }
        ∧ t.cal.state = .settling ∧ t.cal.channels = channels
        ∧ t.cal.seed = (if seed = 0 then 1 else min seed 32767) ∧ t.cal.tolerance = min tolerance 1023
        ∧ t.cal.runLevel = some s.lvl.level ∧ t.cal.counted = 0 ∧ t.cal.pattern = BitVec.ofNat 15 t.cal.seed
        ∧ t.cal.outcome = .none ∧ (∀ c : Chan, t.cal.results[c] = .notSelected)
        ∧ (∀ (c : Chan) (i : Fin 16), t.cal.mismatches[c][i] = 0)
        ∧ ∀ i : CtxId,
          (s.dec.contexts[i].state = .running →
            ∃ c : Context, s.dec.contexts[i].takesGap c ∧ t.dec.contexts[i] = { c with state := .suspended .calibration })
          ∧ (s.dec.contexts[i].state ≠ .running → t.dec.contexts[i] = s.dec.contexts[i])))
  ∧ (∀ s : State, s.admits →
    (s.cal.state = .idle → exec .calibrationAbort s = .next (s.answered .ok))
    ∧ (s.calibrates → ∃ contexts : Vector Context 16,
        exec .calibrationAbort s = .next ({ s with
            cal := { s.cal with state := .idle, driven := false, outcome := .aborted }
            dec := { s.dec with contexts := contexts }
            cmd := { s.cmd with pending := s.cmd.pending ||| BitVec.twoPow 14 11 } }.answered .ok)
        ∧ ∀ i : CtxId, contexts[i] = if s.dec.contexts[i].state = .suspended .calibration
            then { s.dec.contexts[i] with state := .running, afterGap := true, fresh := true }
            else s.dec.contexts[i]))

/-- R31 to R37: a sample counts one pattern step, advances the pattern register at every fourth step but step 0, drives the
chip of its step on the CAL output, enters MEASURING with step 1,024, counts none after step 17,422, and compares for every
selected channel and lag the filtered values that have arrived by it with the reference value of their comparison index;
MEASURING is entered once 1,024 pattern steps are counted; once step 17,422 has arrived for
every channel the completion enters each selected channel's best lag, writes the PASS offsets into the active front-end
context and resumes the contexts. (The events as steps of their own are the model's choice, assumption log 15.) -/
def Obligations.CalibrationEntersMeasuringAndCompletes : Prop :=
  (∀ s : State, s.cal.state = .settling → 1024 ≤ s.cal.counted →
    exec .calMeasuringEntry s = .next { s with cal := { s.cal with state := .measuring } })
  ∧ (∀ (s : State) (probes : Vector Int 32) (r : Run) (n : Nat), s.pfe.run = some r → s.lvl.exhausted = false →
    s.lvl.request = none → (s.cal.state = .measuring → ∃ c : Chan, s.cal.compared[c] ≤ 17422) → n = s.cal.counted →
    ∃ t, exec (.sampleStep probes) s = .next t
      ∧ (s.cal.state = .idle → t.cal = s.cal)
      ∧ (s.calibrates →
        t.cal = { s.cal with counted := t.cal.counted, driven := t.cal.driven, pattern := t.cal.pattern,
                             state := t.cal.state, mismatches := t.cal.mismatches, compared := t.cal.compared }
        ∧ (17422 < n → t.cal.counted = n ∧ t.cal.driven = s.cal.driven ∧ t.cal.pattern = s.cal.pattern
            ∧ t.cal.state = s.cal.state)
        ∧ (n ≤ 17422 → t.cal.counted = n + 1 ∧ t.cal.driven = true
            ∧ (n = 0 ∨ n % 4 ≠ 0 → t.cal.pattern = s.cal.pattern)
            ∧ (n ≠ 0 → n % 4 = 0 → advances s.cal.pattern t.cal.pattern)
            ∧ t.cal.state = if 1024 ≤ n then .measuring else s.cal.state)
        ∧ ∀ reg : Nat → BitVec 15, patternOf s.cal.seed reg →
          (n ≤ 17422 → s.cal.pattern = reg ((n - 1) / 4) → t.cal.output = (reg (n / 4)).getLsbD 14)
          ∧ (t.cal.state = .settling → t.cal.mismatches = s.cal.mismatches ∧ t.cal.compared = s.cal.compared)
          ∧ (t.cal.state = .measuring → ∀ (c : Chan) (from_ arrived : Nat), from_ = max s.cal.compared[c] 1024 →
              arrived = min ((match t.pfe.filters[c].openRun with
                | some run => run.start
                | none => r.taken + 1) - s.cal.base) (min t.cal.counted 17423) →
            t.cal.compared[c] = max s.cal.compared[c] arrived
            ∧ (s.cal.channels.getLsbD c.val = false → t.cal.mismatches[c] = s.cal.mismatches[c])
            ∧ (s.cal.channels.getLsbD c.val = true → ∀ (i : Fin 16) (differs : Nat → Bool),
              (∀ p, differs p = true ↔ differsAt reg p
                (t.pfe.filters[c].history.getLsbD (r.taken - (p + s.cal.base))) ((i.val : Int) - 8)) →
              t.cal.mismatches[c][i]
                = s.cal.mismatches[c][i] + (List.range' from_ (arrived - from_)).countP differs))))
  ∧ ∀ s : State, s.cal.state = .measuring → (∀ c : Chan, 17422 < s.cal.compared[c]) →
    ∃ (results : Vector CalResult 32) (contexts : Vector Context 16) (pfe : Pfe),
      exec .calibrationComplete s = .next { s with
          pfe := pfe
          cal := { s.cal with state := .idle, driven := false, outcome := .complete, results := results }
          dec := { s.dec with contexts := contexts }
          cmd := { s.cmd with pending := s.cmd.pending ||| BitVec.twoPow 14 11 } }
      ∧ (∀ c : Chan, s.cal.channels.getLsbD c.val = false → results[c] = .notSelected)
      ∧ (∀ c : Chan, s.cal.channels.getLsbD c.val = true → ∃ j : Fin 16,
          (∀ i : Fin 16, s.cal.mismatches[c][j] ≤ s.cal.mismatches[c][i])
          ∧ (∀ i : Fin 16, i ≠ j → s.cal.mismatches[c][i] = s.cal.mismatches[c][j] →
              ((j.val : Int) - 8).natAbs < ((i.val : Int) - 8).natAbs
                ∨ (((j.val : Int) - 8).natAbs = ((i.val : Int) - 8).natAbs ∧ j.val < 8))
          ∧ results[c] = if s.cal.mismatches[c][j] ≤ s.cal.tolerance
              then .pass ((j.val : Int) - 8) s.cal.mismatches[c][j] else .fail s.cal.mismatches[c][j])
      ∧ (s.pfe.active = none → pfe = s.pfe)
      ∧ (∀ id, s.pfe.active = some id → ∃ f : FrontEnd, pfe = s.pfe.setFrontEnd id f
          ∧ f.widths = (s.pfe.frontEnd id).widths
          ∧ ∀ c : Chan, f.offsets[c] = match results[c] with
              | .pass offset _ => offset
              | .fail _ | .notSelected => (s.pfe.frontEnd id).offsets[c])
      ∧ ∀ i : CtxId, contexts[i] = if s.dec.contexts[i].state = .suspended .calibration
          then { s.dec.contexts[i] with state := .running, afterGap := true, fresh := true }
          else s.dec.contexts[i]

/-! ## Capture memory and segments -/

/-- R46: POOL_THRESHOLD_SET stores the clamped threshold and compares it with the pool count at once. -/
def Obligations.PoolThresholdSetComparesAtOnce : Prop :=
  ∀ (s : State) (threshold : Nat), s.admits → ∃ (armed : Bool) (pending : BitVec 14),
    exec (.poolThresholdSet .enough threshold) s = .next ({ s with
        cap := { s.cap with poolThreshold := min threshold 32768, poolArmed := armed }
        cmd := { s.cmd with pending := pending } }.answered .ok)
    ∧ (s.cap.pool.count < min threshold 32768 → armed = false
        ∧ pending = if s.cap.poolArmed then s.cmd.pending ||| BitVec.twoPow 14 4 else s.cmd.pending)
    ∧ (min threshold 32768 ≤ s.cap.pool.count → armed = true ∧ pending = s.cmd.pending)

/-- R58: SEGMENT_PREPARE stores the clamped parameters and primes a VACANT or PRIMED segment; in the other states it is
WRONG_STATE, and a segment id of 8 or more is BAD_PARAM (R57). -/
def Obligations.SegmentPrepareClampsAndPrimes : Prop :=
  ∀ (s : State) (b : Byte) (mask : Lines) (budget : Nat) (target : BitVec 32) (limit annotationBudget : Nat), s.admits →
    (8 ≤ b.toNat → exec (.segmentPrepare .enough b mask budget target limit annotationBudget) s
        = .next (s.answered .badParam))
    ∧ ∀ id : SegId, b.toNat = id.val →
      (s.cap.segments[id].state ≠ .vacant → s.cap.segments[id].state ≠ .primed →
        exec (.segmentPrepare .enough b mask budget target limit annotationBudget) s
          = .next (s.answered .wrongState))
      ∧ (s.cap.segments[id].state = .vacant ∨ s.cap.segments[id].state = .primed →
        ∃ segments : Vector Segment 8,
          exec (.segmentPrepare .enough b mask budget target limit annotationBudget) s
            = .next ({ s with cap := { s.cap with segments := segments } }.answered .ok)
          ∧ (∀ j : SegId, j ≠ id → segments[j] = s.cap.segments[j])
          ∧ segments[id] = { state := .primed, mask := mask, budget := min (max budget 1) 32767,
                             target := target.toNat,
                             limit := min (max limit (min (max budget 1) 32767 + 1)) 32768,
                             annotationBudget := min (max annotationBudget 1) 64 })

/-- R60, R61 with R44, R46, R49, R152: the refusals of SEGMENT_START, the first that applies, each leaving every block
unchanged; an accepted one takes the pool's first two pages, stages the START entry with the first header, sets the
segment to PRE_TRIGGER and the sequencer RUNNING at stage 0; fires and records still on their way are marked as an
earlier capture's, so that CAP and the annotation writer take them no more (R66, R70; that a fire is discarded at its arrival
and that the records stay on the path are the model's choices, assumption logs 11 and 12). (That the last fire sent is kept is read from R152 by
inference, assumption log 35; the fields of the PRIMED segment that are not named are kept as SEGMENT_PREPARE left them,
where R61 gives them the values of Table 5-1.) -/
def Obligations.SegmentStartIsRefusedOrBegins : Prop :=
  (∀ (s : State) (b : Byte), s.admits →
    (8 ≤ b.toNat → exec (.segmentStart .enough b) s = .next (s.answered .badParam))
    ∧ ∀ id : SegId, b.toNat = id.val →
      (s.cap.segments[id].state = .vacant → exec (.segmentStart .enough b) s = .next (s.answered .notFound))
      ∧ (s.cap.segments[id].state ≠ .vacant → s.cap.segments[id].state ≠ .primed →
          exec (.segmentStart .enough b) s = .next (s.answered .wrongState))
      ∧ (s.cap.segments[id].state = .primed →
        ((∃ i, s.captures i) ∨ (∃ i : SegId, s.cap.segments[i].drainPending = true) →
          exec (.segmentStart .enough b) s = .next (s.answered .busy))
        ∧ (s.noCapture → (∀ i : SegId, s.cap.segments[i].drainPending = false) →
          (s.switches ∨ s.lvl.exhausted = true ∨ (∀ r, s.pfe.run = some r → r.formed = 0) →
            exec (.segmentStart .enough b) s = .next (s.answered .level))
          ∧ (¬ s.switches → s.lvl.exhausted = false → (∃ r, s.pfe.run = some r ∧ r.formed ≠ 0) →
            (s.calibrates → exec (.segmentStart .enough b) s = .next (s.answered .busy))
            ∧ (¬ s.calibrates → s.cap.pool.count < 2 →
              exec (.segmentStart .enough b) s = .next (s.answered .full))))))
  ∧ (∀ (s : State) (b : Byte) (id : SegId) (r : Run) (p q : Nat), s.admits → s.memoryCanonical → b.toNat = id.val →
    s.cap.segments[id].state = .primed → s.noCapture → (∀ i : SegId, s.cap.segments[i].drainPending = false) →
    ¬ s.switches → s.lvl.exhausted = false → s.pfe.run = some r → r.formed ≠ 0 → ¬ s.calibrates →
    2 ≤ s.cap.pool.count → s.cap.pool.head = some p → (PageMap.get s.cap.pages p).next = some q → p ≠ q →
    ∃ t, exec (.segmentStart .enough b) s = .next t
      ∧ t.cap.segments[id] = { s.cap.segments[id] with
          state := .preTrigger, level := some s.lvl.level, startTick := some s.pfe.stamp,
          records := ⟨some p, some p, 1⟩, annotations := ⟨some q, some q, 1⟩, written := 1 }
      ∧ (∀ j : SegId, j ≠ id → t.cap.segments[j] = s.cap.segments[j])
      ∧ t.cap.pool = (if s.cap.pool.count = 2 then {} else
          ⟨(PageMap.get s.cap.pages q).next, s.cap.pool.tail, s.cap.pool.count - 2⟩)
      ∧ PageMap.get t.cap.pages p = ⟨.records id, none⟩ ∧ PageMap.get t.cap.pages q = ⟨.annotations id, none⟩
      ∧ (∀ x, x ≠ p → x ≠ q → PageMap.get t.cap.pages x = PageMap.get s.cap.pages x)
      ∧ t.cap.encoder = ⟨.encoding id, s.pfe.lines &&& s.cap.segments[id].mask, 0⟩
      ∧ t.cap.staged = s.cap.staged ++ [⟨p, 0, ⟨.start, 0, s.pfe.lines &&& s.cap.segments[id].mask⟩,
          some ⟨0, s.pfe.lines &&& s.cap.segments[id].mask⟩⟩]
      ∧ t.cap.stagedAnnotations = s.cap.stagedAnnotations ∧ t.cap.dram = s.cap.dram
      ∧ t.cap.poolThreshold = s.cap.poolThreshold
      ∧ t.trg.state = .running ∧ t.trg.outstanding = false ∧ t.trg.stage = 0 ∧ t.trg.entryTick = s.pfe.stamp
      ∧ t.trg.time = s.pfe.stamp ∧ (∀ (i : StageId) (j : BranchId), t.trg.counters[i][j] = 0)
      ∧ (∀ u : UnitId, t.trg.patterns[u] = {}) ∧ t.trg.lastFire = s.trg.lastFire ∧ t.trg.units = s.trg.units
      ∧ t.trg.branches = s.trg.branches
      ∧ (s.cap.poolArmed = decide (s.cap.poolThreshold ≤ s.cap.pool.count) →
          t.cap.poolArmed = decide (s.cap.poolThreshold ≤ s.cap.pool.count - 2)
          ∧ t.cmd = { s.cmd with
              frame := .response, response := some ⟨.accepted, .none⟩,
              pending := if s.cap.poolThreshold ≤ s.cap.pool.count ∧ s.cap.pool.count - 2 < s.cap.poolThreshold
                then s.cmd.pending ||| BitVec.twoPow 14 4 else s.cmd.pending })
      ∧ t.cmd.response = some ⟨.accepted, .none⟩ ∧ t.pfe = s.pfe ∧ t.lvl = s.lvl ∧ t.cal = s.cal ∧ t.dsp = s.dsp
      ∧ t.dec = { s.dec with path := s.dec.path.map fun moment => moment.map fun item => { item with toSegment := none } }
      ∧ t.cap.fires = s.cap.fires.map fun f => { f with live := false })

/-- R44, R46, R47, R50 to R54, R62, R63, R67, R68, R70: the transition encoder at a conditioned sample. An equal masked state stores
nothing; a change stores CHANGE, EXTEND before it for a long interval; too few free places begin DROPPING, which passes
samples over until 2,048 are staged and then stores a DROPOUT, counted. A page request is allocated or, in PRE_TRIGGER,
rotates; refused, the segment seals with nothing stored. Reaching the target seals COMPLETE after the store. An entry
takes the next number, its slot, and the header of a page it opens; an allocation that brings the pool below its threshold
raises POOL_LOW once. (A DROPOUT refused its page counts its episode at
the seal: the model's choice, assumption log 38.) -/
def Obligations.EncoderStoresEntriesAndAsksForPages : Prop :=
  (∀ (s : State) (stamp : Nat) (lines : Lines), s.cap.encoder.state = .idle → s.encodeSample stamp lines = s)
  ∧ (∀ (s : State) (stamp : Nat) (lines : Lines) (id : SegId) (g : Segment) (start : Nat) (dropping : Bool)
      (kind : EntryKind) (entries : List Entry),
    let e := s.cap.encoder
    let state := lines &&& g.mask
    let d := stamp - start - e.lastTick
    let needsPage := 510 < (g.written - 1) % 510 + 1 + entries.length
    s.captures id → s.cap.segments[id] = g → g.startTick = some start → g.records.count ≠ 0 → g.written ≠ 0 →
    g.retirePending = false →
    (dropping = false ∧ e.state = .encoding id ∧ kind = .change)
      ∨ (dropping = true ∧ e.state = .dropping id ∧ kind = .dropout) →
    entries = (if d < 2 ^ 24 then [⟨kind, d, state⟩]
      else [⟨.extend, d / 2 ^ 24, e.lastState⟩, ⟨kind, d % 2 ^ 24, state⟩]) →
    (dropping = false → state = e.lastState → s.encodeSample stamp lines = s)
    ∧ (dropping = false → state ≠ e.lastState → 4096 < s.cap.staged.length + entries.length →
        s.encodeSample stamp lines = { s with cap := { s.cap with encoder := { e with state := .dropping id } } })
    ∧ (dropping = true → 2048 < s.cap.staged.length → s.encodeSample stamp lines = s)
    ∧ ((dropping = false ∧ state ≠ e.lastState ∧ s.cap.staged.length + entries.length ≤ 4096)
        ∨ (dropping = true ∧ s.cap.staged.length ≤ 2048) →
      (∀ reason, needsPage →
        (g.state = .preTrigger ∧ g.records.count < g.budget ∧ g.records.count < 2 ∧ s.cap.pool.count = 0
            ∧ reason = .poolExhausted)
          ∨ (g.state = .postTrigger ∧ g.limit ≤ g.records.count ∧ reason = .limitReached)
          ∨ (g.state = .postTrigger ∧ g.records.count < g.limit ∧ s.cap.pool.count = 0 ∧ reason = .poolExhausted) →
        ∃ t, s.encodeSample stamp lines = t ∧ t.cap.staged = s.cap.staged ∧ t.cap.encoder = { e with state := .idle }
          ∧ t.cap.pool = s.cap.pool ∧ t.cap.pages = s.cap.pages
          ∧ t.cap.segments[id] = { g with
              state := .sealed, sealReason := some reason
              dropouts := if dropping then min (g.dropouts + 1) (2 ^ 32 - 1) else g.dropouts
              drainPending := decide (s.cap.staged ≠ [] ∨ s.cap.stagedAnnotations ≠ []) }
          ∧ t.trg = { s.trg with state := .idle, outstanding := false, raiseDue := [] })
      ∧ (¬ needsPage ∨ (g.state = .preTrigger
            ∧ (s.cap.pool.count ≠ 0 ∨ g.budget ≤ g.records.count ∨ 2 ≤ g.records.count))
          ∨ (g.state = .postTrigger ∧ g.records.count < g.limit ∧ s.cap.pool.count ≠ 0) →
        ∃ u : State,
          (dropping = false → u = entries.foldl (fun s x => s.placeEntry id x) s)
          ∧ (dropping = true → ∃ v : State, v = entries.foldl (fun s x => s.placeEntry id x) s
            ∧ u = { v with cap := { v.cap with
                encoder := { v.cap.encoder with state := .encoding id }
                segments := v.cap.segments.set id { v.cap.segments[id] with
                  dropouts := min (v.cap.segments[id].dropouts + 1) (2 ^ 32 - 1) } } })
          ∧ (u.cap.segments[id].state = .postTrigger ∧ u.cap.segments[id].target ≤ u.cap.segments[id].postCount →
              (s.encodeSample stamp lines).cap.segments[id].state = .sealed
              ∧ (s.encodeSample stamp lines).cap.segments[id].sealReason = some .complete
              ∧ (s.encodeSample stamp lines).cap.segments[id].written = u.cap.segments[id].written
              ∧ (s.encodeSample stamp lines).cap.staged = u.cap.staged
              ∧ (s.encodeSample stamp lines).cap.encoder.state = .idle
              ∧ (s.encodeSample stamp lines).trg.state = .idle)
          ∧ (¬ (u.cap.segments[id].state = .postTrigger
                ∧ u.cap.segments[id].target ≤ u.cap.segments[id].postCount) → s.encodeSample stamp lines = u))))
  ∧ ∀ (s : State) (id : SegId) (g : Segment) (x : Entry) (tick tail : Nat) (after : Segment),
    s.cap.segments[id] = g → g.records.count ≠ 0 → g.records.tail = some tail → g.written ≠ 0 → x.kind ≠ .start →
    tick = s.cap.encoder.lastTick + (if x.kind = .extend then x.delta * 2 ^ 24 else x.delta) →
    after = { g with
      written := g.written + 1
      lastTick := tick
      postCount := after.postCount } →
    (g.state = .postTrigger ∧ x.kind ≠ .extend ∧ (∃ n, g.triggerTick = some n ∧ n ≤ tick) →
      after.postCount = min (g.postCount + 1) (2 ^ 32 - 1)) →
    (¬ (g.state = .postTrigger ∧ x.kind ≠ .extend ∧ ∃ n, g.triggerTick = some n ∧ n ≤ tick) →
      after.postCount = g.postCount) →
    (g.written % 510 ≠ 0 → s.placeEntry id x = { s with cap := { s.cap with
        staged := s.cap.staged ++ [⟨tail, g.written % 510, x, none⟩]
        encoder := { s.cap.encoder with lastTick := tick, lastState := x.state }
        segments := s.cap.segments.set id after } })
    ∧ (g.written % 510 = 0 → ∀ header : PageHeader, header = ⟨s.cap.encoder.lastTick, s.cap.encoder.lastState⟩ →
      (∀ p, s.memoryCanonical → s.cap.pool.count ≠ 0 → s.cap.pool.head = some p → p ≠ tail →
        (g.state = .preTrigger ∧ g.records.count < g.budget) ∨ (g.state = .postTrigger ∧ g.records.count < g.limit) →
        ∃ t, s.placeEntry id x = t ∧ t.cap.staged = s.cap.staged ++ [⟨p, 0, x, some header⟩]
          ∧ t.cap.encoder = { s.cap.encoder with lastTick := tick, lastState := x.state }
          ∧ t.cap.segments[id] = { after with records := ⟨g.records.head, some p, g.records.count + 1⟩ }
          ∧ (∀ j : SegId, j ≠ id → t.cap.segments[j] = s.cap.segments[j])
          ∧ s.takesPage p t ∧ t.cmd = { s.cmd with pending := t.cmd.pending }
          ∧ PageMap.get t.cap.pages p = ⟨.records id, none⟩
          ∧ PageMap.get t.cap.pages tail = ⟨(PageMap.get s.cap.pages tail).owner, some p⟩
          ∧ (∀ q, q ≠ p → q ≠ tail → PageMap.get t.cap.pages q = PageMap.get s.cap.pages q)
          ∧ t.cap.dram = s.cap.dram)
      ∧ (g.state = .preTrigger → g.records.count = 1 → g.budget ≤ 1 → g.records.head = some tail →
        s.placeEntry id x = { s with cap := { s.cap with
          staged := s.cap.staged ++ [⟨tail, 0, x, some header⟩]
          encoder := { s.cap.encoder with lastTick := tick, lastState := x.state }
          segments := s.cap.segments.set id { after with
            firstRetained := g.firstRetained + 510, firstRetainedTick := s.cap.encoder.lastTick } } })
      ∧ ∀ h n, s.memoryCanonical → g.state = .preTrigger → 2 ≤ g.records.count →
        g.budget ≤ g.records.count ∨ s.cap.pool.count = 0 → g.records.head = some h → h ≠ tail →
        (PageMap.get s.cap.pages h).next = some n →
        ∃ t, s.placeEntry id x = t ∧ t.cap.staged = s.cap.staged ++ [⟨h, 0, x, some header⟩]
          ∧ t.cap.encoder = { s.cap.encoder with lastTick := tick, lastState := x.state }
          ∧ t.cap.segments[id] = { after with
              records := ⟨some n, some h, g.records.count⟩
              firstRetained := g.firstRetained + 510
              firstRetainedTick := (servedHeader s.cap.served n).baseTick }
          ∧ (∀ j : SegId, j ≠ id → t.cap.segments[j] = s.cap.segments[j]) ∧ t.cap.pool = s.cap.pool
          ∧ t.cap.poolArmed = s.cap.poolArmed ∧ t.cmd = s.cmd
          ∧ PageMap.get t.cap.pages h = ⟨(PageMap.get s.cap.pages h).owner, none⟩
          ∧ PageMap.get t.cap.pages tail = ⟨(PageMap.get s.cap.pages tail).owner, some h⟩
          ∧ t.cap.dram = s.cap.dram)

/-- R72 with R70, R71, R54, R25: SEGMENT_STOP seals the capturing segment STOPPED, sets the sequencer IDLE, completes
the seal at once when nothing is staged, and releases a pending level request; with no segment capturing it is
WRONG_STATE. -/
def Obligations.SegmentStopSealsTheCapture : Prop :=
  ∀ s : State, s.admits →
    (s.noCapture → exec .segmentStop s = .next (s.answered .wrongState))
    ∧ ∀ id : SegId, s.capturesOnly id → s.cap.segments[id].retirePending = false → ∃ t,
      exec .segmentStop s = .next t
      ∧ (s.lvl.request = none → t.lvl = s.lvl ∧ t.pfe = s.pfe ∧ t.dec = s.dec ∧ t.cal = s.cal ∧ t.dsp = s.dsp
          ∧ t.cap = { s.cap with encoder := { s.cap.encoder with state := .idle }, segments := t.cap.segments }
          ∧ (∀ j : SegId, j ≠ id → t.cap.segments[j] = s.cap.segments[j])
          ∧ t.cap.segments[id] = { s.cap.segments[id] with
              state := .sealed, sealReason := some .stopped
              dropouts := t.cap.segments[id].dropouts
              drainPending := decide (s.cap.staged ≠ [] ∨ s.cap.stagedAnnotations ≠ []) }
          ∧ (s.cap.encoder.state = .encoding id → t.cap.segments[id].dropouts = s.cap.segments[id].dropouts)
          ∧ (s.cap.encoder.state = .dropping id →
              t.cap.segments[id].dropouts = min (s.cap.segments[id].dropouts + 1) (2 ^ 32 - 1))
          ∧ t.trg = { s.trg with state := .idle, outstanding := false, raiseDue := [] }
          ∧ t.cmd = { s.cmd with
              frame := .response, response := some ⟨.accepted, .none⟩,
              pending := if s.cap.staged = [] ∧ s.cap.stagedAnnotations = []
                then s.cmd.pending ||| BitVec.twoPow 14 0 else s.cmd.pending })
      ∧ ∀ target, s.lvl.request = some target → s.lvl.transition = .steady →
          t.lvl = { s.lvl with request := none, transition := .switching target } ∧ t.pfe.run = none
          ∧ t.cap.segments[id].state = .sealed ∧ t.cap.segments[id].sealReason = some .stopped
          ∧ t.trg.state = .idle ∧ t.cap.dram = s.cap.dram

/-- R74 with R25, R45, R46, R54: SEGMENT_ABORT discards what is staged, unwritten, and sets encoder and sequencer IDLE, an
encoder that was DROPPING counting its episode; with no pin the chains return to the pool and the segment is VACANT, with
one it is RETIRING, a read or refresh in flight goes on, and the entries discarded, from the first of each FIFO on, are
not served to it; a pending level request is released; with no segment capturing it is WRONG_STATE. (That the counts of
a pinned segment stand while the discarded entries are no longer served is the model's choice, assumption log 17. The
statements on reads and refreshes say what is served after the abort.) -/
def Obligations.SegmentAbortEndsTheCapture : Prop :=
  ∀ s : State, s.admits →
    (s.noCapture → exec .segmentAbort s = .next (s.answered .wrongState))
    ∧ ∀ id : SegId, s.capturesOnly id → ∃ t, exec .segmentAbort s = .next t
      ∧ t.cap.encoder = { s.cap.encoder with state := .idle } ∧ t.cap.staged = [] ∧ t.cap.stagedAnnotations = []
      ∧ t.cap.dram = s.cap.dram ∧ (∀ j : SegId, j ≠ id → t.cap.segments[j] = s.cap.segments[j])
      ∧ t.cal = s.cal ∧ t.dsp = s.dsp ∧ t.cap.read = s.cap.read
      ∧ (s.lvl.request = none → t.pfe = s.pfe ∧ t.lvl = s.lvl ∧ t.dec = s.dec ∧ t.cap.port = s.cap.port
          ∧ t.trg = { s.trg with state := .idle, outstanding := false, raiseDue := [] })
      ∧ (∀ target, s.lvl.request = some target → s.lvl.transition = .steady →
          t.lvl = { s.lvl with request := none, transition := .switching target } ∧ t.pfe.run = none
          ∧ t.trg.state = .idle)
      ∧ (s.cap.segments[id].pins = 0 → s.vacated id t ∧ t.cmd.response = some ⟨.ok, .none⟩)
      ∧ (s.cap.segments[id].pins ≠ 0 →
          t.cmd.frame = .response ∧ t.cmd.response = some ⟨.accepted, .none⟩
          ∧ (s.lvl.request = none → t.cmd.pending = s.cmd.pending)
          ∧ t.cap.segments[id] = { s.cap.segments[id] with
              state := .retiring, retirePending := true
              dropouts := if s.cap.encoder.state = .dropping id
                then min (s.cap.segments[id].dropouts + 1) (2 ^ 32 - 1) else t.cap.segments[id].dropouts
              discarded := some (s.cap.segments[id].written - s.cap.staged.length,
                s.cap.segments[id].annotationsStored - s.cap.stagedAnnotations.length) }
          ∧ (s.cap.encoder.state = .encoding id → t.cap.segments[id].dropouts = s.cap.segments[id].dropouts)
          ∧ t.cap.pool = s.cap.pool ∧ t.cap.pages = s.cap.pages)

/-- R76 with R45, R46: SEGMENT_RETIRE is answered by the first case of its table. -/
def Obligations.SegmentRetireFollowsItsTable : Prop :=
  ∀ (s : State) (b : Byte), s.admits →
    (8 ≤ b.toNat → exec (.segmentRetire .enough b) s = .next (s.answered .badParam))
    ∧ ∀ id : SegId, b.toNat = id.val →
      let g := s.cap.segments[id]
      (g.state = .vacant → exec (.segmentRetire .enough b) s = .next (s.answered .notFound))
      ∧ (g.state = .preTrigger ∨ g.state = .postTrigger ∨ g.state = .retiring
            ∨ (g.state = .sealed ∧ g.retirePending = true) →
          exec (.segmentRetire .enough b) s = .next (s.answered .wrongState))
      ∧ (g.state = .sealed → g.retirePending = false → g.drainPending = true → ∃ segments : Vector Segment 8,
          exec (.segmentRetire .enough b) s
            = .next ({ s with cap := { s.cap with segments := segments } }.answered .accepted)
          ∧ segments[id] = { g with retirePending := true }
          ∧ ∀ j : SegId, j ≠ id → segments[j] = s.cap.segments[j])
      ∧ (g.state = .sealed → g.retirePending = false → g.drainPending = false → g.pins ≠ 0 →
          ∃ segments : Vector Segment 8,
            exec (.segmentRetire .enough b) s
              = .next ({ s with cap := { s.cap with segments := segments } }.answered .accepted)
            ∧ segments[id] = { g with retirePending := true, state := .retiring }
            ∧ ∀ j : SegId, j ≠ id → segments[j] = s.cap.segments[j])
      ∧ (g.state = .primed
            ∨ (g.state = .sealed ∧ g.retirePending = false ∧ g.drainPending = false ∧ g.pins = 0) → ∃ t,
          exec (.segmentRetire .enough b) s = .next t
          ∧ t = { s with
              cap := { s.cap with segments := t.cap.segments, pages := t.cap.pages, pool := t.cap.pool,
                                  poolArmed := t.cap.poolArmed }
              cmd := { s.cmd with frame := .response, response := some ⟨.ok, .none⟩, pending := t.cmd.pending } }
          ∧ s.vacated id t ∧ t.cmd.pending.getLsbD 3 = true
          ∧ (g.records = {} → g.annotations = {} → t.cmd.pending = s.cmd.pending ||| BitVec.twoPow 14 3))

/-- R75, R78, R79: SEGMENT_READ and ANNOTATION_READ take a pin where it is granted and fix their range; refused, they
are NOT_FOUND. R180: with a read in flight the request waits, whatever its answer will be (held in the frame, the model's
form of it: assumption log 9). -/
def Obligations.ReadsTakeAPinAndFixTheirRange : Prop :=
  ∀ (s : State) (b : Byte) (start : BitVec 48) (offset : BitVec 32) (count : Nat),
    (s.admits → s.cap.read = none →
      (8 ≤ b.toNat → exec (.segmentRead .enough b start count) s = .next (s.answered .badParam)
        ∧ exec (.annotationRead .enough b offset count) s = .next (s.answered .badParam))
      ∧ ∀ id : SegId, b.toNat = id.val →
        (¬ ((s.captures id ∨ s.cap.segments[id].state = .sealed) ∧ s.cap.segments[id].retirePending = false) →
          exec (.segmentRead .enough b start count) s = .next (s.answered .notFound)
          ∧ exec (.annotationRead .enough b offset count) s = .next (s.answered .notFound))
        ∧ (s.captures id ∨ s.cap.segments[id].state = .sealed → s.cap.segments[id].retirePending = false →
          ∃ segments : Vector Segment 8, (∀ j : SegId, j ≠ id → segments[j] = s.cap.segments[j])
            ∧ segments[id] = { s.cap.segments[id] with pins := s.cap.segments[id].pins + 1 }
            ∧ exec (.segmentRead .enough b start count) s = .next { s with
                cap := { s.cap with
                  segments := segments
                  read := some ⟨.entries, id, max start.toNat s.cap.segments[id].firstRetained, min count 64,
                    decide (start.toNat < s.cap.segments[id].firstRetained), [], [], true⟩ }
                cmd := { s.cmd with frame := .response, response := none, held := none } }
            ∧ exec (.annotationRead .enough b offset count) s = .next { s with
                cap := { s.cap with
                  segments := segments
                  read := some ⟨.annotations, id, s.cap.segments[id].firstAnnotation + offset.toNat, min count 32,
                    false, [], [], true⟩ }
                cmd := { s.cmd with frame := .response, response := none, held := none } }))
    ∧ ∀ fit : Fit, s.takesRequests → s.cap.read ≠ none →
      exec (.segmentRead fit b start count) s
        = .next { s with cmd := { s.cmd with held := some ⟨.entries, fit, b, start.toNat, count⟩ } }
      ∧ exec (.annotationRead fit b offset count) s
        = .next { s with cmd := { s.cmd with held := some ⟨.annotations, fit, b, offset.toNat, count⟩ } }

/-- R78, R79, R75, R47, R48, R52, R55, R63: a read in flight takes its next entry or annotation, passes over one that a rotation has removed, and
with nothing more to take forms its response into the frame that is still open and releases its pin; of a segment aborted
under it, it takes none of what was discarded (R74). R180: a read held behind it is taken then, and answered or begun. (A
position passed over does not count toward the read's count, read by inference, assumption log 24; the bound is the count at
each take, the model's choice, assumption log 39, and the counts of an aborted segment stand, assumption log 17. The last
pin of a RETIRING segment is in the statement on deferred retires.) What it takes is what stands at the slots of the chain's
pages, staged last or drained: an entry with its sequence number, kind, state and the tick that the base tick of its page or
the entry before it gives; an annotation as stored. (In states where what is staged lies in pages of its segment, an
invariant that every step keeps.) -/
def Obligations.ReadsTakeEntriesAndFormResponses : Prop :=
  (∀ (s : State) (r : ReadInFlight) (g : Segment) (written stored : Nat), s.cap.read = some r →
    s.cap.segments[r.segment] = g → (written, stored) = g.discarded.getD (g.written, g.annotationsStored) →
    (r.kind = .entries → 0 < r.remaining → r.next < written →
      (r.next < g.firstRetained → exec .segmentReadEntryTake s
          = .next { s with cap := { s.cap with read := some { r with next := r.next + 1, rotatedAway := true } } })
      ∧ ∀ e, g.firstRetained ≤ r.next → (s.cap.retainedEntries g)[r.next - g.firstRetained]? = some e →
          exec .segmentReadEntryTake s = .next { s with cap := { s.cap with read := some { r with
            next := r.next + 1, remaining := r.remaining - 1, entries := r.entries ++ [e] } } })
    ∧ (r.kind = .annotations → 0 < r.remaining → r.next < stored →
      (r.next < g.firstAnnotation → exec .annotationReadEntryTake s
          = .next { s with cap := { s.cap with read := some { r with next := r.next + 1, rotatedAway := true } } })
      ∧ ∀ a, g.firstAnnotation ≤ r.next → s.cap.annotationAt g r.next = some a →
          exec .annotationReadEntryTake s = .next { s with cap := { s.cap with read := some { r with
            next := r.next + 1, remaining := r.remaining - 1, annotations := r.annotations ++ [(r.next, a)] } } })
    ∧ ∀ (c : Instr) (last : Nat) (data : ResponseData),
      (r.kind = .entries ∧ c = .segmentReadResponseFormed ∧ last = written
          ∧ data = .entries g.state g.written g.firstRetained r.rotatedAway r.entries)
        ∨ (r.kind = .annotations ∧ c = .annotationReadResponseFormed ∧ last = stored
          ∧ data = .annotations g.firstAnnotation g.annotationsStored g.annotationsDropped r.rotatedAway
              r.annotations) →
      r.remaining = 0 ∨ last ≤ r.next → ¬ (g.state = .retiring ∧ g.pins ≤ 1) →
      ∃ (segments : Vector Segment 8) (port : PortState) (u : State), u = { s with
          cap := { s.cap with segments := segments, read := none, port := port }
          cmd := if r.frameOpen then { s.cmd with frame := .response, response := some ⟨.ok, data⟩ } else s.cmd }
        ∧ segments[r.segment] = { g with pins := g.pins - 1 }
        ∧ (∀ j : SegId, j ≠ r.segment → segments[j] = s.cap.segments[j])
        ∧ (s.cap.port = .entering → s.nothingStaged → s.dsp.state ≠ .reading → port = .selfRefresh)
        ∧ (¬ (s.cap.port = .entering ∧ s.nothingStaged ∧ s.dsp.state ≠ .reading) → port = s.cap.port)
        ∧ (s.cmd.held = none → exec c s = .next u)
        ∧ ∀ (h : HeldRead) (v : State), s.cmd.held = some h → v = { u with cmd := { u.cmd with held := none } } →
          (s.restsInStandby → exec c s = .next (v.answered .level))
          ∧ (¬ s.restsInStandby → h.fit = .short ∨ 8 ≤ h.segment.toNat → exec c s = .next (v.answered .badParam))
          ∧ (¬ s.restsInStandby → h.fit = .enough → ∀ id : SegId, h.segment.toNat = id.val →
            (¬ ((v.captures id ∨ segments[id].state = .sealed) ∧ segments[id].retirePending = false) →
              exec c s = .next (v.answered .notFound))
            ∧ (v.captures id ∨ segments[id].state = .sealed → segments[id].retirePending = false →
              exec c s = .next { v with
                cap := { v.cap with
                  segments := segments.set id { segments[id] with pins := segments[id].pins + 1 }
                  read := some (match h.kind with
                    | .entries => ⟨.entries, id, max h.start segments[id].firstRetained, min h.count 64,
                        decide (h.start < segments[id].firstRetained), [], [], true⟩
                    | .annotations => ⟨.annotations, id, segments[id].firstAnnotation + h.start, min h.count 32,
                        false, [], [], true⟩) }
                cmd := { v.cmd with frame := .response, response := none } })))
  -- what CAP serves
  ∧ (∀ (s : State) (id : SegId) (g : Segment) (pages : List Nat) (fill : Nat), s.memoryCanonical → s.stagedSound →
    s.cap.segments[id] = g → g.records.holds s.cap.pages (.records id) pages → pages ≠ [] → g.written ≠ 0 →
    fill = (g.written - 1) % 510 + 1 →
    (s.cap.retainedEntries g).length = 510 * (pages.length - 1) + fill
    ∧ (∀ (p : Nat) (h : PageHeader), p ∈ pages → s.cap.standsHeader p h → h.baseTick < 2 ^ 48 →
      servedHeader s.cap.served p = h)
    ∧ ∀ (i p : Nat) (x : Entry), i < 510 * (pages.length - 1) + fill → pages[i / 510]? = some p →
      s.cap.standsEntry p (i % 510) x → x.delta < 2 ^ 24 →
      ∃ e, (s.cap.retainedEntries g)[i]? = some e ∧ e.sequence = g.firstRetained + i ∧ e.kind = x.kind ∧ e.state = x.state
        ∧ (∀ h, i % 510 = 0 → s.cap.standsHeader p h → h.baseTick < 2 ^ 48 → e.tick = x.tickAfter h.baseTick)
        ∧ ∀ f, i % 510 ≠ 0 → (s.cap.retainedEntries g)[i - 1]? = some f → e.tick = x.tickAfter f.tick)
  ∧ ∀ (s : State) (id : SegId) (g : Segment) (pages : List Nat), s.memoryCanonical → s.stagedSound →
    s.cap.segments[id] = g → g.annotations.holds s.cap.pages (.annotations id) pages →
    (∀ (index p : Nat) (a : Annotation), g.firstAnnotation ≤ index →
      pages[(index - g.firstAnnotation) / 256]? = some p → s.cap.standsAnnotation p (index % 256) a →
      a.startTick < 2 ^ 48 → a.duration < 2 ^ 32 → a.length ≤ 255 → s.cap.annotationAt g index = some a)
    ∧ (∀ index, pages.length ≤ (index - g.firstAnnotation) / 256 → s.cap.annotationAt g index = none)
    ∧ ∀ (last : Nat) (f : Nat → Annotation),
      (∀ i, i < last - g.firstAnnotation → s.cap.annotationAt g (g.firstAnnotation + i) = some (f i)) →
      s.cap.retainedAnnotations g last
        = (List.range (last - g.firstAnnotation)).map fun i => (g.firstAnnotation + i, f i)

/-- R77 with R71, R74, R45, R46: a deferred retire completes at the pin release that ends a RETIRING segment's last pin (the
response of a read formed, a refresh send completed; an aborted segment among them) or at a seal completion with
retire-pending set: the chains return to the pool, the segment is VACANT and SEGMENT_RETIRED is raised. A seal completion
that finds a pin left makes the segment RETIRING. R27: what they end lets a waiting DRAM into self-refresh. (The
model's choices: a read of an aborted segment is served nothing from the first discarded entry on and returns the counts
that stand, assumption log 17; a read is bounded by the count as it stands at each take, assumption log 39. A read that
waits behind the one that completes is left out.) -/
def Obligations.DeferredRetireCompletes : Prop :=
  (∀ (s : State) (r : ReadInFlight) (g : Segment) (c : Instr) (last : Nat) (data : ResponseData),
    s.cap.read = some r → s.cap.segments[r.segment] = g → g.state = .retiring → g.pins ≤ 1 → s.cmd.held = none →
    (r.kind = .entries ∧ c = .segmentReadResponseFormed
        ∧ last = (match g.discarded with
          | some d => d.1
          | none => g.written)
        ∧ data = .entries .retiring g.written g.firstRetained r.rotatedAway r.entries)
      ∨ (r.kind = .annotations ∧ c = .annotationReadResponseFormed
        ∧ last = (match g.discarded with
          | some d => d.2
          | none => g.annotationsStored)
        ∧ data = .annotations g.firstAnnotation g.annotationsStored g.annotationsDropped r.rotatedAway
            r.annotations) →
    r.remaining = 0 ∨ last ≤ r.next →
    ∃ t, exec c s = .next t ∧ s.vacated r.segment t ∧ t.cap.read = none
      ∧ t.cap.port = (if s.cap.port = .entering ∧ s.cap.staged = [] ∧ s.cap.stagedAnnotations = []
          ∧ s.dsp.state ≠ .reading then .selfRefresh else s.cap.port)
      ∧ t.cmd.pending.getLsbD 3 = true
      ∧ t.cmd = { s.cmd with
          pending := t.cmd.pending
          frame := if r.frameOpen then .response else s.cmd.frame
          response := if r.frameOpen then some ⟨.ok, data⟩ else s.cmd.response }
      ∧ t.cap.dram = s.cap.dram ∧ t.pfe = s.pfe ∧ t.lvl = s.lvl ∧ t.cal = s.cal ∧ t.dec = s.dec ∧ t.trg = s.trg
      ∧ t.dsp = s.dsp)
  ∧ (∀ (s : State) (id : SegId), s.dsp.state = .sending → s.dsp.active.segment = some id →
    s.cap.segments[id].state = .retiring → s.cap.segments[id].pins ≤ 1 →
    ∃ t, exec .refreshSendComplete s = .next t ∧ t.cap.segments[id] = {} ∧ t.cmd.pending.getLsbD 3 = true
      ∧ t.cmd.pending.getLsbD 13 = true ∧ t.dsp.pending = false ∧ t.cap.dram = s.cap.dram
      ∧ (s.dsp.pending = false → s.vacated id t ∧ t.dsp = { s.dsp with outcome := .drawn, state := .idle }
          ∧ t.cmd = { s.cmd with pending := t.cmd.pending } ∧ t.trg = s.trg ∧ t.dec = s.dec))
  ∧ ∀ (s : State) (id : SegId), s.cap.staged.length + s.cap.stagedAnnotations.length = 1 →
    s.cap.segments[id].drainPending = true → (∀ j : SegId, s.cap.segments[j].drainPending = true → j = id) →
    s.cap.segments[id].retirePending = true →
    ∃ t, exec .drainCompletion s = .next t ∧ t.nothingStaged ∧ t.cmd.pending.getLsbD 0 = true
      ∧ t.cap.port = (if s.cap.port = .entering ∧ s.cap.read = none ∧ s.dsp.state ≠ .reading then .selfRefresh
          else s.cap.port)
      ∧ t.cmd = { s.cmd with pending := t.cmd.pending } ∧ t.trg = s.trg ∧ t.dec = s.dec ∧ t.dsp = s.dsp
      ∧ (s.cap.segments[id].pins = 0 → s.vacated id t ∧ t.cmd.pending.getLsbD 3 = true)
      ∧ (s.cap.segments[id].pins ≠ 0 →
          t.cap.segments[id] = { s.cap.segments[id] with drainPending := false, state := .retiring }
          ∧ (∀ j : SegId, j ≠ id → t.cap.segments[j] = s.cap.segments[j])
          ∧ t.cap.pool = s.cap.pool ∧ t.cap.pages = s.cap.pages
          ∧ t.cmd.pending = s.cmd.pending ||| BitVec.twoPow 14 0)

/-- R65, R66, R67: a fire that reaches a segment in PRE_TRIGGER is accepted: its tick made relative and clipped, the
post-trigger count counted, the sequencer DONE, TRIGGER_FIRED raised, the segment sealed at once at its target; any
other fire is discarded. (The model's choices, assumption log 11: which fire on its way CAP takes first is the command's
operand; a fire of a capture that has ended, marked by live = false, is discarded when it arrives, even when a later
segment is in PRE_TRIGGER by then. R65 speaks of the fire of the capture it reaches.) R25: where the fire seals the segment,
a pending level request is released after it: the run ends and a gap begins. (The model's choices there: a conditioned
latency of 24 steps, the order of the consumers, a run's first sample that expires no quiet timer, and what is left of a
CLOCKED, FLASH or TWO_WIRE engine, assumption logs 1, 10, 20, 30 and 48. A request is pending only while a segment captures or a transition is in progress, an invariant that every
step keeps.) -/
def Obligations.FireIsAcceptedInPreTriggerOnly : Prop :=
  ∀ (s : State) (index : Nat) (f : Fire), s.cap.fires[index]? = some f →
    (s.lvl.request = none ∨ s.switches ∨ ¬ s.noCapture →
      s.noCapture ∨ f.live = false ∨ (∃ id, s.capturesOnly id ∧ s.cap.segments[id].state = .postTrigger) →
      exec (.fireAccept index) s = .next { s with cap := { s.cap with fires := s.cap.fires.eraseIdx index } })
    ∧ ∀ (id : SegId) (start tick n : Nat), s.capturesOnly id → s.cap.segments[id].state = .preTrigger → f.live = true →
      s.cap.segments[id].retirePending = false → s.cap.segments[id].startTick = some start →
      tick = (if f.tick < start + s.cap.segments[id].firstRetainedTick then s.cap.segments[id].firstRetainedTick
        else f.tick - start) →
      n = min ((s.cap.retainedEntries s.cap.segments[id]).countP fun e =>
        decide ((e.kind = .change ∨ e.kind = .dropout) ∧ tick ≤ e.tick)) (2 ^ 32 - 1) →
      ∃ u t, exec (.fireAccept index) s = .next t
        ∧ (s.lvl.request = none ∨ s.switches ∨ n < s.cap.segments[id].target → t = u)
        ∧ (∀ l, s.lvl.request = some l → ¬ s.switches → s.cap.segments[id].target ≤ n → u.beginsTransition l t)
        ∧ u.cap.segments[id].triggerTick = some tick ∧ u.cap.segments[id].postCount = n
        ∧ u.cap.segments[id].clipped = decide (f.tick < start + s.cap.segments[id].firstRetainedTick)
        ∧ u.cap.segments[id].forced = f.forced ∧ u.cmd.pending.getLsbD 1 = true
        ∧ u.cap.fires = s.cap.fires.eraseIdx index ∧ u.cap.dram = s.cap.dram
        ∧ u.pfe = s.pfe ∧ u.lvl = s.lvl ∧ u.cal = s.cal ∧ u.dec = s.dec ∧ u.dsp = s.dsp
        ∧ (n < s.cap.segments[id].target → u.cap.segments[id].state = .postTrigger
            ∧ u.trg = { s.trg with state := .done, outstanding := false, raiseDue := [] }
            ∧ u.cap.staged = s.cap.staged ∧ u.cap.encoder = s.cap.encoder
            ∧ u.cmd = { s.cmd with pending := s.cmd.pending ||| BitVec.twoPow 14 1 })
        ∧ (s.cap.segments[id].target ≤ n →
            u.cap.segments[id].state = .sealed ∧ u.cap.segments[id].sealReason = some .complete
            ∧ u.trg = { s.trg with state := .idle, outstanding := false, raiseDue := [] }
            ∧ u.cap.encoder = { s.cap.encoder with state := .idle })

/-- R52, R71: one drain completion writes the oldest entry of a staging FIFO (the two in turn when both hold some: the turn
is the model's form, assumption log 13) to its slot, the header of a page it opens before it, and no other byte of DRAM;
the one that empties both completes the seal. With nothing staged nothing happens (the model's choice, assumption log 6).
R27: with the DRAM waiting to go into self-refresh, the last one lets it. A seal completion with retire-pending set is in
the statement on deferred retires. -/
def Obligations.DrainCompletionWritesOneEntry : Prop :=
  (∀ (s : State) (e : StagedEntry) (rest : List StagedEntry), s.memoryCanonical → s.cap.staged = e :: rest →
    s.cap.stagedAnnotations = [] ∨ s.cap.turn = .transition →
    ∃ t, exec .drainCompletion s = .next t ∧ t.cap.staged = rest
      ∧ t.cap.stagedAnnotations = s.cap.stagedAnnotations ∧ t.cap.turn = .annotation
      ∧ (∀ k, k < 8 → some (Memory.read t.cap.dram (entryAddress e.page e.slot + k)) = e.entry.encode[k]?)
      ∧ (∀ h k, e.header = some h → k < 16 →
          some (Memory.read t.cap.dram (headerAddress e.page + k)) = h.encode[k]?)
      ∧ (∀ a, ¬ (entryAddress e.page e.slot ≤ a ∧ a < entryAddress e.page e.slot + 8) →
          e.header = none ∨ ¬ (headerAddress e.page ≤ a ∧ a < headerAddress e.page + 16) →
          Memory.read t.cap.dram a = Memory.read s.cap.dram a)
      ∧ (rest ≠ [] ∨ s.cap.stagedAnnotations ≠ [] → t.cap.segments = s.cap.segments ∧ t.cmd = s.cmd)
      ∧ (rest = [] → s.cap.stagedAnnotations = [] → ∀ id : SegId, s.cap.segments[id].drainPending = true →
          (∀ j : SegId, s.cap.segments[j].drainPending = true → j = id) → s.cap.segments[id].retirePending = false →
          t.cap.segments[id] = { s.cap.segments[id] with drainPending := false }
          ∧ t.cmd = { s.cmd with pending := s.cmd.pending ||| BitVec.twoPow 14 0 })
      ∧ t.cap.port = (if s.cap.port = .entering ∧ rest = [] ∧ s.cap.stagedAnnotations = [] ∧ s.cap.read = none
          ∧ s.dsp.state ≠ .reading then .selfRefresh else s.cap.port)
      ∧ t.pfe = s.pfe ∧ t.lvl = s.lvl ∧ t.cal = s.cal ∧ t.dec = s.dec ∧ t.trg = s.trg ∧ t.dsp = s.dsp)
  ∧ (∀ (s : State) (x : StagedAnnotation) (rest : List StagedAnnotation), s.memoryCanonical →
    s.cap.stagedAnnotations = x :: rest →
    s.cap.staged = [] ∨ s.cap.turn = .annotation →
    ∃ t, exec .drainCompletion s = .next t ∧ t.cap.staged = s.cap.staged ∧ t.cap.stagedAnnotations = rest
      ∧ t.cap.turn = .transition
      ∧ (∀ k, k < 16 → some (Memory.read t.cap.dram (annotationAddress x.page x.slot + k)) = x.annotation.encode[k]?)
      ∧ (∀ a, ¬ (annotationAddress x.page x.slot ≤ a ∧ a < annotationAddress x.page x.slot + 16) →
          Memory.read t.cap.dram a = Memory.read s.cap.dram a)
      ∧ (rest ≠ [] ∨ s.cap.staged ≠ [] → t.cap.segments = s.cap.segments ∧ t.cmd = s.cmd)
      ∧ (rest = [] → s.cap.staged = [] → ∀ id : SegId, s.cap.segments[id].drainPending = true →
          (∀ j : SegId, s.cap.segments[j].drainPending = true → j = id) → s.cap.segments[id].retirePending = false →
          t.cap.segments[id] = { s.cap.segments[id] with drainPending := false }
          ∧ t.cmd = { s.cmd with pending := s.cmd.pending ||| BitVec.twoPow 14 0 })
      ∧ t.cap.port = (if s.cap.port = .entering ∧ rest = [] ∧ s.cap.staged = [] ∧ s.cap.read = none
          ∧ s.dsp.state ≠ .reading then .selfRefresh else s.cap.port)
      ∧ t.pfe = s.pfe ∧ t.lvl = s.lvl ∧ t.cal = s.cal ∧ t.dec = s.dec ∧ t.trg = s.trg ∧ t.dsp = s.dsp)
  ∧ ∀ s : State, s.nothingStaged → exec .drainCompletion s = .next s

/-- Tables 13-1 to 13-5, R178, R179, R185: an entry, a page header and an annotation that fit their fields read back from
their bytes as they were, and every layout has its length; a complete request frame is read as the request of its code,
with the parameter bytes it declares, and one that is not complete as none; the codes outside 0x01 to 0x2E are unknown;
too few parameter bytes make a request short and surplus bytes change nothing of it (for FLASH_SET_LOAD its own statement
says so); numbers and levels are one byte and sets bit fields, in requests and in responses, and an armed
descriptor's opcode is its one byte in CONTEXT_STATUS (R187); the bytes returned are 0xFF
filler, the ready marker, status, data length and data, then filler again; a bare status has data length 0, and RECORDS_TAKE
returns its queue state, occupancy, lost count and at most 16 records (R98), each in the form of Tables 13-5 and 13-6 (R186).
(How many filler bytes come first, the places of the fields, and the forms that chapter 13
does not give, are free values, assumption log 14.) -/
def Obligations.LayoutsReadBackAndFramesDecode : Prop :=
  (∀ e : Entry, e.delta < 2 ^ 24 → e.encode.length = 8 ∧ Entry.decode e.encode = e)
  ∧ (∀ h : PageHeader, h.baseTick < 2 ^ 48 → h.encode.length = 16 ∧ PageHeader.decode h.encode = h)
  ∧ (∀ a : Annotation, a.startTick < 2 ^ 48 → a.duration < 2 ^ 32 → a.length ≤ 255 →
      a.encode.length = 16 ∧ Annotation.decode a.encode = a)
  ∧ (∀ (r : Record) (at_ : Nat → Byte), (∀ k, at_ k = r.encode.getD k 0#8) → r.encode.length = 32
      ∧ (at_ 0).toNat = r.context.val + 16 * recordKindCode r.kind + (if r.flags.getLsbD 24 then 128 else 0)
      ∧ (∀ k, k < 16 → (at_ (1 + k / 8)).getLsbD (k % 8) = r.flags.getLsbD k)
      ∧ (r.kind ≠ .flashOp → ∀ k, k < 8 → (at_ 3).getLsbD k = r.flags.getLsbD (16 + k))
      ∧ (r.kind = .flashOp → at_ 3 = r.modeByte.getD 0#8)
      ∧ (∀ k, k < 6 → at_ (5 + k) = (leBytes 6 r.startTick).getD k 0#8 ∧ at_ (11 + k) = (leBytes 6 r.endTick).getD k 0#8)
      ∧ (∀ k, k < 2 → at_ (17 + k) = (leBytes 2 r.length).getD k 0#8)
      ∧ (∀ k, k < 4 → at_ (19 + k) = r.head.getD k 0#8)
      ∧ (r.kind = .character ∨ r.kind = .brk ∨ r.kind = .idle →
          at_ 4 = 0#8 ∧ ∀ k, k < 9 → at_ (23 + k) = 0#8)
      ∧ (r.kind = .word → (at_ 4 = if r.inWord = none then 0#8 else 1#8)
        ∧ (∀ k, k < 4 → at_ (23 + k) = (leBytes 4 (r.inWord.getD 0#32).toNat).getD k 0#8)
        ∧ ∀ k, k < 5 → at_ (27 + k) = 0#8)
      ∧ (r.kind = .flashOp →
        (at_ 4).toNat % 16 = (match r.effect with
          | none => 15
          | some e => effectCode e)
        ∧ ((at_ 4).getLsbD 4 = true ↔ r.opcode ≠ none) ∧ ((at_ 4).getLsbD 5 = true ↔ r.modeByte ≠ none)
        ∧ (at_ 4).toNat / 64 = (if r.address = none then 0 else if r.addressBytes = 4 then 2 else 1)
        ∧ at_ 23 = r.opcode.getD 0#8
        ∧ (∀ k, k < 4 → at_ (24 + k) = (leBytes 4 (r.address.getD 0)).getD k 0#8)
        ∧ (r.flags.getLsbD 15 = false → ∀ k, k < 4 → at_ (28 + k) = (leBytes 4 (r.endAddress.getD 0)).getD k 0#8)
        ∧ (r.flags.getLsbD 15 = true → ∀ k, k < 4 →
            at_ (28 + k) = (leBytes 4 (min (r.busyDuration.getD 0) (2 ^ 32 - 1))).getD k 0#8))
      ∧ (r.kind = .message →
        ((at_ 4).getLsbD 0 = true ↔ r.address ≠ none)
        ∧ (r.ack = none → (at_ 4).toNat / 2 = 0)
        ∧ (∀ a, r.ack = some a → ((at_ 4).getLsbD 1 = true ↔ a.addressAck = false)
          ∧ ((at_ 4).getLsbD 2 = true ↔ a.firstNak ≠ none)
          ∧ (at_ 4).toNat / 8 = (match a.lastAck with
            | none => 0
            | some true => 1
            | some false => 2)
          ∧ ∀ k, k < 2 → at_ (24 + k) = (leBytes 2 (min (a.firstNak.getD 0) 65535)).getD k 0#8)
        ∧ (at_ 23).toNat % 128 = r.address.getD 0 % 128 ∧ ((at_ 23).getLsbD 7 = true ↔ r.isRead = some true)
        ∧ ∀ k, k < 6 → at_ (26 + k) = 0#8)
      ∧ (r.kind = .gap → at_ 4 = 0#8 ∧ (∀ k, k < 4 → at_ (23 + k) = (leBytes 4 (r.lost.getD 0)).getD k 0#8)
        ∧ ∀ k, k < 5 → at_ (27 + k) = 0#8))
  ∧ (∀ (code : Byte) (params : List Byte),
      (1 ≤ code.toNat ∧ code.toNat ≤ 0x2E → requestCode (requestOf code params) = some code.toNat)
      ∧ (code.toNat = 0 ∨ 0x2E < code.toNat → requestOf code params = .unknownRequest code))
  ∧ (∀ (code low high : Byte) (params surplus : List Byte),
      (params.length = low.toNat + 256 * high.toNat →
        decodeFrame (code :: low :: high :: (params ++ surplus)) = some (requestOf code params))
      ∧ (params.length < low.toNat + 256 * high.toNat → decodeFrame (code :: low :: high :: params) = none))
  ∧ (∀ bytes : List Byte, bytes.length < 3 → decodeFrame bytes = none)
  -- requests: surplus and missing bytes
  ∧ (∀ (code : Byte) (params surplus : List Byte), code ≠ 0x1D#8 → parameterFit (requestOf code params) ≠ some .short →
      requestOf code (params ++ surplus) = requestOf code params)
  ∧ (∀ (code : Byte) (params : List Byte), parameterFit (requestOf code params) ≠ none →
      (parameterFit (requestOf code params) = some .enough ∨ parameterFit (requestOf code params) = some .short)
      ∧ parameterFit (requestOf code []) = some .short)
  ∧ (∀ (code : Byte) (params : List Byte), code.toNat = 0x02 ∨ code.toNat = 0x0F → params.length < 6 →
      parameterFit (requestOf code params) = some .short)
  ∧ (∀ (code : Byte) (params : List Byte), code.toNat = 0x0A ∨ code.toNat = 0x24 → params.length < 5 →
      parameterFit (requestOf code params) = some .short)
  ∧ (∀ (code : Byte) (params : List Byte), code.toNat = 0x01 ∨ code.toNat = 0x03 ∨ code.toNat = 0x15 ∨ code.toNat = 0x16
      ∨ code.toNat = 0x19 ∨ code.toNat = 0x23 → params.length < (if code.toNat = 0x03 then 3 else 2) →
      parameterFit (requestOf code params) = some .short)
  ∧ (∀ params : List Byte, (params.length < 4 → parameterFit (requestOf 0x07#8 params) = some .short)
      ∧ (params.length < 2 → parameterFit (requestOf 0x2C#8 params) = some .short))
  -- requests: forms
  ∧ (∀ (b : Byte) (more : List Byte), requestOf 0x08#8 (b :: more) = .setLevel .enough b
      ∧ requestOf 0x04#8 (b :: more) = .frontEndRead .enough b ∧ requestOf 0x10#8 (b :: more) = .segmentStatus .enough b
      ∧ requestOf 0x11#8 (b :: more) = .segmentStart .enough b ∧ requestOf 0x14#8 (b :: more) = .segmentRetire .enough b
      ∧ requestOf 0x17#8 (b :: more) = .contextOpen .enough b ∧ requestOf 0x18#8 (b :: more) = .contextClose .enough b
      ∧ requestOf 0x1A#8 (b :: more) = .contextStart .enough b ∧ requestOf 0x1B#8 (b :: more) = .contextStop .enough b
      ∧ requestOf 0x1C#8 (b :: more) = .contextStatus .enough b
      ∧ requestOf 0x1E#8 (b :: more) = .flashModelClear .enough b
      ∧ requestOf 0x1D#8 (b :: more) = .flashSetLoad (b :: more))
  ∧ (∀ (a b c d : Byte) (more : List Byte), ∃ (channels : Lines) (kinds : BitVec 16),
      requestOf 0x07#8 (a :: b :: c :: d :: more) = .monitorRead .enough channels
      ∧ requestOf 0x2C#8 (a :: b :: more) = .noticesMask .enough kinds
      ∧ (∀ n, n < 32 → channels.getLsbD n = ([a, b, c, d].getD (n / 8) 0#8).getLsbD (n % 8))
      ∧ ∀ n, n < 16 → kinds.getLsbD n = ([a, b].getD (n / 8) 0#8).getLsbD (n % 8))
  ∧ (∀ (params : List Byte) (pod code level pods : Byte) (width : Nat),
      (requestOf 0x01#8 params = .thresholdSet .enough pod code → pod ∈ params)
      ∧ (requestOf 0x03#8 params = .glitchWidthSet .enough level pods width → level ∈ params ∧ pods ∈ params))
  ∧ (∀ (params : List Byte) (unit n stage branch : Byte) (compare : RecordCompare) (p : BranchParams) (v : ViewParams),
      (requestOf 0x23#8 params = .matchUnitSet .enough unit (.record (.id n) compare) → unit ∈ params ∧ n ∈ params)
      ∧ (requestOf 0x24#8 params = .branchSet .enough stage branch p →
          stage ∈ params ∧ branch ∈ params ∧ p.unit ∈ params ∧ p.next ∈ params)
      ∧ (requestOf 0x28#8 params = .viewSet .enough v →
          (∀ b, v.segment = some b → b ∈ params) ∧ ∀ b, .annotation b ∈ v.rows → b ∈ params))
  -- responses
  ∧ (∀ (pending kinds : BitVec 14) (lock error : BitVec 16) (glitch activity : Lines),
      (∃ fields : List (List Byte), fields.Perm [leBytes 2 pending.toNat, leBytes 2 lock.toNat, leBytes 2 error.toNat,
          leBytes 4 glitch.toNat, leBytes 4 activity.toNat]
        ∧ (ResponseData.notices pending lock error glitch activity).bytes = fields.flatten)
      ∧ ∃ fields : List (List Byte), fields.Perm [leBytes 2 kinds.toNat, leBytes 2 pending.toNat]
        ∧ (ResponseData.mask kinds pending).bytes = fields.flatten)
  ∧ (∀ (isOpen : Bool) (occupancy lost : Nat) (taken : List Record),
      (ResponseData.records isOpen occupancy lost taken).bytes
        = (if isOpen then 0#8 else 1#8) :: (leBytes 2 occupancy ++ leBytes 4 lost ++ [BitVec.ofNat 8 taken.length]
          ++ (taken.map Record.encode).flatten))
  ∧ (∀ (units : Vector MatchUnit 16) (branches : Vector (Vector Branch 4) 8), ∃ fields : List (List Byte),
      (ResponseData.program units branches).bytes = fields.flatten.take 65535
      ∧ (∀ (i : UnitId) (ctx : CtxId) compare, units[i] = .record (some ctx) compare → [BitVec.ofNat 8 ctx.val] ∈ fields)
      ∧ ∀ (i : StageId) (j : BranchId), [BitVec.ofNat 8 branches[i][j].unit.val] ∈ fields
        ∧ [BitVec.ofNat 8 branches[i][j].next.val] ∈ fields)
  ∧ (∀ (first stored dropped : Nat) (rotatedAway : Bool) (taken : List (Nat × Annotation)), ∃ fields : List (List Byte),
      (ResponseData.annotations first stored dropped rotatedAway taken).bytes = fields.flatten.take 65535
      ∧ ∀ a ∈ taken, [BitVec.ofNat 8 a.2.context.val] ∈ fields)
  ∧ (∀ (report : ContextReport) (m : FlashModel) (opcode : Byte) (resync : Bool) (phase : Option TransferPhase),
      report.engine = .flash m (some opcode) resync phase → ∃ fields : List (List Byte),
        (ResponseData.context report).bytes = fields.flatten.take 65535 ∧ [opcode] ∈ fields)
  ∧ (∀ n v k : Nat, k < 8 * n → ((leBytes n v).getD (k / 8) 0#8).getLsbD (k % 8) = v.testBit k)
  ∧ ∀ (c : Cmd) (fillers k : Nat),
      (c.response = none → c.returnedByte fillers k = 0xFF#8)
      ∧ ∀ (r : Response) (data : List Byte), c.response = some r → data = r.data.bytes →
        (∀ isOpen occupancy lost taken, r.data = .records isOpen occupancy lost taken → taken.length ≤ 16) →
        (r.data = .none → data = []) ∧ data.length ≤ 65535
        ∧ (k < fillers → c.returnedByte fillers k = 0xFF#8) ∧ c.returnedByte fillers fillers = 0xA5#8
        ∧ c.returnedByte fillers (fillers + 1) = r.status.code
        ∧ (c.returnedByte fillers (fillers + 2)).toNat + 256 * (c.returnedByte fillers (fillers + 3)).toNat = data.length
        ∧ (∀ b, data[k]? = some b → c.returnedByte fillers (fillers + 4 + k) = b)
        ∧ (fillers + 4 + data.length ≤ k → c.returnedByte fillers k = 0xFF#8)

/-! ## The decode controller -/

/-- R81 with R80: CONTEXT_OPEN gives a FREE context the values of Table 6-2 and makes it IDLE, CONTEXT_CLOSE makes an IDLE
one FREE; in the other states each is refused and changes nothing (R80 gives NOT_FOUND and BAD_PARAM). The notices' detail
sets are left as they are. (What the model holds in a FREE context, the values of CONTEXT_OPEN, is its choice, assumption
log 26.) -/
def Obligations.ContextOpenAndClose : Prop :=
  ∀ (s : State) (b : Byte), s.admits →
    (16 ≤ b.toNat → exec (.contextOpen .enough b) s = .next (s.answered .badParam)
      ∧ exec (.contextClose .enough b) s = .next (s.answered .badParam))
    ∧ ∀ id : CtxId, b.toNat = id.val →
      (s.dec.contexts[id].state = .free → ∃ contexts : Vector Context 16,
        exec (.contextOpen .enough b) s
          = .next ({ s with dec := { s.dec with contexts := contexts } }.answered .ok)
        ∧ contexts[id] = { state := .idle } ∧ (∀ j : CtxId, j ≠ id → contexts[j] = s.dec.contexts[j])
        ∧ ∀ d : Context, contexts[id] = d →
          d.protocol = none ∧ d.lanes = ⟨none, none, none, none, none, none, none, none, none⟩
          ∧ d.report = false ∧ d.annotate = false ∧ d.good = 0 ∧ d.errors = 0 ∧ d.suppressed = 0
          ∧ d.errorThreshold = 100 ∧ d.armed = true ∧ d.afterGap = false
          ∧ d.asyncSettings = ⟨8, .none, 1, .normal, false, none, 10, .track, 444444, 1024, 268435455⟩
          ∧ d.clockedSettings = ⟨.rising, .activeLow, 8, .msbFirst, false, 2000⟩
          ∧ d.flashSettings = ⟨.a, 8, 0, 1⟩ ∧ d.twoWireSettings = ⟨[], 1000, 2000000, 5000000, 1000⟩
          ∧ d.flashEngine.model = ⟨false, false, 0, none, none, false, false, none⟩
          ∧ d.flashEngine.phase = .waiting ∧ d.clockedEngine.phase = .ready ∧ d.clockedEngine.outBits = []
          ∧ d.asyncEngine.phase = .huntSync ∧ d.asyncEngine.goodRun = 0 ∧ d.asyncEngine.badRun = 0
          ∧ d.asyncEngine.intervals = [] ∧ d.asyncEngine.frame = none ∧ d.asyncEngine.idleArmed = false
          ∧ d.twoWireEngine.state = .busFree ∧ d.twoWireEngine.bytes = [] ∧ d.twoWireEngine.assembly = []
          ∧ d.twoWireEngine.hold = .none ∧ d.twoWireEngine.lastStretch = 0)
      ∧ (s.dec.contexts[id].state ≠ .free → exec (.contextOpen .enough b) s = .next (s.answered .wrongState))
      ∧ (s.dec.contexts[id].state = .idle → ∃ contexts : Vector Context 16,
        exec (.contextClose .enough b) s
          = .next ({ s with dec := { s.dec with contexts := contexts } }.answered .ok)
        ∧ contexts[id] = {}
        ∧ ∀ j : CtxId, j ≠ id → contexts[j] = s.dec.contexts[j])
      ∧ (s.dec.contexts[id].state = .free → exec (.contextClose .enough b) s = .next (s.answered .notFound))
      ∧ ((∃ reason, s.dec.contexts[id].state = .suspended reason) ∨ s.dec.contexts[id].state = .running →
        exec (.contextClose .enough b) s = .next (s.answered .wrongState))

/-- R82 with R94 and Tables 6-4, 7-1, 8-1, 8-4, 9-1: CONTEXT_CONFIGURE replaces every field it carries on an IDLE
context, with its settings clamped, and compares the new error threshold at once; the refusals change nothing. An optional
lane may be none; a channel of 32 or more, a channel named twice, a missing required lane and a setting outside its list or
range are refused. (That the context's state is tested before the parameters is the model's choice, assumption log 40.) -/
def Obligations.ContextConfigureClampsAndRefuses : Prop :=
  (∀ (s : State) (b : Byte) (params : ConfigureParams), s.admits →
    (16 ≤ b.toNat → exec (.contextConfigure .enough b params) s = .next (s.answered .badParam))
    ∧ ∀ (id : CtxId) (c : Context), b.toNat = id.val → s.dec.contexts[id] = c →
      (c.state = .free → exec (.contextConfigure .enough b params) s = .next (s.answered .notFound))
      ∧ (c.state ≠ .free → c.state ≠ .idle →
          exec (.contextConfigure .enough b params) s = .next (s.answered .wrongState))
      ∧ (c.state = .idle → acceptProtocol params.protocol = none →
          exec (.contextConfigure .enough b params) s = .next (s.answered .badParam))
      ∧ (c.state = .idle → ∀ k, acceptProtocol params.protocol = some k → ∃ t : State,
          exec (.contextConfigure .enough b params) s = .next t
          ∧ t = { s with
              dec := { s.dec with contexts := t.dec.contexts }
              cmd := { s.cmd with frame := .response, response := some ⟨.ok, .none⟩, pending := t.cmd.pending,
                                  errorThreshold := t.cmd.errorThreshold } }
          ∧ (∀ j : CtxId, j ≠ id → t.dec.contexts[j] = s.dec.contexts[j])
          ∧ t.dec.contexts[id] = { c with
              protocol := some k.protocol, lanes := k.lanes, report := params.report, annotate := params.annotate
              errorThreshold := min (max params.errorThreshold 1) 65535
              armed := decide (c.errors < min (max params.errorThreshold 1) 65535)
              asyncSettings := k.async.getD c.asyncSettings, clockedSettings := k.clocked.getD c.clockedSettings
              flashSettings := k.flash.getD c.flashSettings, twoWireSettings := k.twoWire.getD c.twoWireSettings
              asyncEngine := t.dec.contexts[id].asyncEngine, flashEngine := t.dec.contexts[id].flashEngine }
          ∧ (k.protocol = .flash → t.dec.contexts[id].flashEngine = c.flashEngine)
          ∧ (c.protocol = some .flash → k.protocol ≠ .flash → t.dec.contexts[id].flashEngine.model = {})
          ∧ (if c.armed = true ∧ min (max params.errorThreshold 1) 65535 ≤ c.errors
              then t.cmd.pending = s.cmd.pending ||| BitVec.twoPow 14 8
                ∧ t.cmd.errorThreshold = s.cmd.errorThreshold ||| BitVec.twoPow 16 id.val
              else t.cmd.pending = s.cmd.pending ∧ t.cmd.errorThreshold = s.cmd.errorThreshold)))
  ∧ (∀ (x : Byte) (data : Chan) (p : AsyncParams) (parity : Parity) (polarity : Polarity) (mode : TrackerMode),
      x.toNat = data.val → p.parity = some parity → p.polarity = some polarity → p.mode = some mode →
      clamp 1024 268435455 p.lower ≤ clamp 1024 268435455 p.upper →
      (∀ a, p.filterAddress = some a → p.addressMark = true ∧ a < 2 ^ clamp 5 9 p.dataBits) →
      acceptProtocol (.async (some x) p) = some {
        protocol := .async, lanes := { data := some data }
        async := some ⟨clamp 5 9 p.dataBits, parity, clamp 1 2 p.stopBits, polarity, p.addressMark, p.filterAddress,
          clamp 1 255 p.idleLength, mode, clamp 1024 268435455 p.nominal, clamp 1024 268435455 p.lower,
          clamp 1024 268435455 p.upper⟩ })
  ∧ (∀ (x y : Byte) (givenSelect givenIn : Option Byte) (clock out : Chan) (select inn : Option Chan) (p : ClockedParams),
      x.toNat = clock.val → y.toNat = out.val → givenSelect.map BitVec.toNat = select.map Fin.val →
      givenIn.map BitVec.toNat = inn.map Fin.val →
      (∀ edge polarity order idle, ([some clock, some out, select, inn].filterMap id).Nodup → p.edge = some edge →
        p.selectPolarity = some polarity → p.bitOrder = some order → p.idleLevel = some idle →
        acceptProtocol (.clocked (some x) (some y) givenSelect givenIn p) = some {
          protocol := .clocked, lanes := { clock := some clock, out := some out, select := select, inn := inn }
          clocked := some ⟨edge, polarity, clamp 4 32 p.wordLength, order, idle, clamp 1 16777215 p.gapTimeout⟩ })
      ∧ (¬ ([some clock, some out, select, inn].filterMap id).Nodup →
        acceptProtocol (.clocked (some x) (some y) givenSelect givenIn p) = none))
  ∧ (∀ (w x y z : Byte) (given2 given3 : Option Byte) (clock select d0 d1 : Chan) (d2 d3 : Option Chan) (p : FlashParams),
      w.toNat = clock.val → x.toNat = select.val → y.toNat = d0.val → z.toNat = d1.val →
      given2.map BitVec.toNat = d2.map Fin.val → given3.map BitVec.toNat = d3.map Fin.val →
      (∀ set, ([some clock, some select, some d0, some d1, d2, d3].filterMap id).Nodup → p.set = some set →
        p.busyBit ≤ 7 → p.enableBit ≤ 7 →
        acceptProtocol (.flash (some w) (some x) (some y) (some z) given2 given3 p) = some {
          protocol := .flash, lanes := { clock := some clock, select := some select, d0 := some d0, d1 := some d1,
                                         d2 := d2, d3 := d3 }
          flash := some ⟨set, clamp 4 12 p.pageExponent, p.busyBit, p.enableBit⟩ })
      ∧ (¬ ([some clock, some select, some d0, some d1, d2, d3].filterMap id).Nodup →
        acceptProtocol (.flash (some w) (some x) (some y) (some z) given2 given3 p) = none))
  ∧ (∀ (x y : Byte) (clock data : Chan) (p : TwoWireParams), x.toNat = clock.val → y.toNat = data.val →
      clock ≠ data → p.filter.length ≤ 4 → (∀ e ∈ p.filter, e.1 ≤ 127 ∧ e.2 ≤ 127) →
      acceptProtocol (.twoWire (some x) (some y) p) = some {
        protocol := .twoWire, lanes := { clock := some clock, data := some data }
        twoWire := some ⟨p.filter.map fun e => (BitVec.ofNat 7 e.1, BitVec.ofNat 7 e.2),
          clamp 1 16777215 p.clockLow, min p.stretchLimit (2 ^ 32 - 1), clamp 1 (2 ^ 32 - 1) p.stuckLimit,
          clamp 1 16777215 p.busFree⟩ })
  ∧ acceptProtocol .unknown = none
  ∧ (∀ p, acceptProtocol (.async none p) = none)
  ∧ (∀ (x : Byte) p, 32 ≤ x.toNat → acceptProtocol (.async (some x) p) = none)
  ∧ (∀ (x : LaneParam) (p : AsyncParams), clamp 1024 268435455 p.upper < clamp 1024 268435455 p.lower →
      acceptProtocol (.async x p) = none)
  ∧ (∀ (x : Byte) p, acceptProtocol (.twoWire none (some x) p) = none ∧ acceptProtocol (.twoWire (some x) none p) = none
      ∧ acceptProtocol (.twoWire (some x) (some x) p) = none)
  ∧ (∀ (x y : LaneParam) (p : TwoWireParams), 4 < p.filter.length → acceptProtocol (.twoWire x y p) = none)
  ∧ (∀ x y z p, acceptProtocol (.clocked none x y z p) = none ∧ acceptProtocol (.clocked x none y z p) = none)
  ∧ (∀ w x y z v p, acceptProtocol (.flash none w x y z v p) = none ∧ acceptProtocol (.flash w none x y z v p) = none
      ∧ acceptProtocol (.flash w x none y z v p) = none ∧ acceptProtocol (.flash w x y none z v p) = none)
  -- a channel of 32 or more
  ∧ (∀ (b : Byte) (u v w x y : LaneParam) (p : ClockedParams) (q : FlashParams) (r : TwoWireParams), 32 ≤ b.toNat →
      (acceptProtocol (.clocked (some b) u v w p) = none ∧ acceptProtocol (.clocked u (some b) v w p) = none
        ∧ acceptProtocol (.clocked u v (some b) w p) = none ∧ acceptProtocol (.clocked u v w (some b) p) = none)
      ∧ (acceptProtocol (.flash (some b) u v w x y q) = none ∧ acceptProtocol (.flash u (some b) v w x y q) = none
        ∧ acceptProtocol (.flash u v (some b) w x y q) = none ∧ acceptProtocol (.flash u v w (some b) x y q) = none
        ∧ acceptProtocol (.flash u v w x (some b) y q) = none ∧ acceptProtocol (.flash u v w x y (some b) q) = none)
      ∧ acceptProtocol (.twoWire (some b) u r) = none ∧ acceptProtocol (.twoWire u (some b) r) = none)
  -- a setting outside its list or range
  ∧ (∀ (x : LaneParam) (p : AsyncParams), p.parity = none ∨ p.polarity = none ∨ p.mode = none
        ∨ (∃ a, p.filterAddress = some a ∧ (p.addressMark = false ∨ 2 ^ clamp 5 9 p.dataBits ≤ a)) →
      acceptProtocol (.async x p) = none)
  ∧ (∀ (w x y z : LaneParam) (p : ClockedParams), p.edge = none ∨ p.selectPolarity = none ∨ p.bitOrder = none
        ∨ p.idleLevel = none → acceptProtocol (.clocked w x y z p) = none)
  ∧ (∀ (u v w x y z : LaneParam) (p : FlashParams), p.set = none ∨ 7 < p.busyBit ∨ 7 < p.enableBit →
      acceptProtocol (.flash u v w x y z p) = none)
  ∧ ∀ (x y : LaneParam) (p : TwoWireParams), (∃ e ∈ p.filter, 127 < e.1 ∨ 127 < e.2) →
      acceptProtocol (.twoWire x y p) = none

/-- R84 with R41, R89 and R103: CONTEXT_START of an IDLE, configured context initialises its engine, sets AFTER_GAP
pending as the gap flag stands, and enters the first state of the rule's table that applies. (That until the first
sample it reads a TWO_WIRE engine is BUS_FREE, a FLASH engine waits and a CLOCKED engine is READY is the model's choice,
assumption log 49.) -/
def Obligations.ContextStartEntersTheStateOfItsTable : Prop :=
  ∀ (s : State) (b : Byte), s.admits →
    (16 ≤ b.toNat → exec (.contextStart .enough b) s = .next (s.answered .badParam))
    ∧ ∀ (id : CtxId) (c : Context), b.toNat = id.val → s.dec.contexts[id] = c →
      (c.state = .free → exec (.contextStart .enough b) s = .next (s.answered .notFound))
      ∧ (c.state ≠ .free → c.state ≠ .idle ∨ c.protocol = none →
          exec (.contextStart .enough b) s = .next (s.answered .wrongState))
      ∧ (c.state = .idle → c.protocol ≠ none → ∃ d : Context,
          exec (.contextStart .enough b) s
            = .next ({ s with dec := { s.dec with contexts := s.dec.contexts.set id d } }.answered .ok)
          ∧ d = { c with state := d.state, afterGap := s.dec.gap, asyncEngine := d.asyncEngine,
                         clockedEngine := d.clockedEngine, flashEngine := d.flashEngine,
                         twoWireEngine := d.twoWireEngine, fresh := d.fresh, started := d.started }
          ∧ (s.dec.level = .standby → d.state = .suspended .standby)
          ∧ (s.dec.level = .economy → c.protocol = some .async → c.asyncSettings.upper < 4096 →
              d.state = .suspended .rateUnsupported)
          ∧ (s.dec.level = .full
                ∨ (s.dec.level = .economy ∧ ¬ (c.protocol = some .async ∧ c.asyncSettings.upper < 4096)) →
              d.state = if s.cal.state = .idle then .running else .suspended .calibration)
          ∧ (c.protocol = some .async → d.asyncEngine = {
              tracker := if c.asyncSettings.mode = .auto then .acquire else .wide
              period := min (max c.asyncSettings.nominal
                (if s.dec.level = .economy then max c.asyncSettings.lower 4096 else c.asyncSettings.lower))
                c.asyncSettings.upper })
          ∧ (c.protocol = some .clocked → d.clockedEngine = {})
          ∧ (c.protocol = some .flash → d.flashEngine = { model := c.flashEngine.model })
          ∧ (c.protocol = some .twoWire → d.twoWireEngine = {}))

/-- R85, R86: CONTEXT_STOP makes a RUNNING or SUSPENDED context IDLE with its partial unit discarded and no record;
CONTEXT_STATUS returns the context's fields and engine state and clears its three counters. (The model's choices: a stopped
ASYNC context keeps its tracker and period, and the other engines are left as at a gap, assumption log 30; no engine state
without a protocol, assumption log 31; generic bytes and an undecodable command as phases of their own, assumption log 43;
no hold origin while the hold class is NONE, assumption log 47; the class NONE in WAIT_FREE, assumption log 55.) -/
def Obligations.ContextStopAndStatus : Prop :=
  ∀ (s : State) (b : Byte), s.admits →
    (16 ≤ b.toNat → exec (.contextStop .enough b) s = .next (s.answered .badParam)
      ∧ exec (.contextStatus .enough b) s = .next (s.answered .badParam))
    ∧ ∀ (id : CtxId) (c : Context), b.toNat = id.val → s.dec.contexts[id] = c →
      (c.state = .free → exec (.contextStop .enough b) s = .next (s.answered .notFound)
        ∧ exec (.contextStatus .enough b) s = .next (s.answered .notFound))
      ∧ (c.state = .idle → exec (.contextStop .enough b) s = .next (s.answered .wrongState))
      ∧ (c.state = .running ∨ (∃ reason, c.state = .suspended reason) → ∃ d : Context,
          exec (.contextStop .enough b) s
            = .next ({ s with dec := { s.dec with contexts := s.dec.contexts.set id d } }.answered .ok)
          ∧ d = { c with state := .idle, afterGap := false, asyncEngine := d.asyncEngine,
                         clockedEngine := d.clockedEngine, flashEngine := d.flashEngine,
                         twoWireEngine := d.twoWireEngine, fresh := d.fresh }
          ∧ (c.protocol = some .async → d.asyncEngine.phase ≠ .frame ∧ d.asyncEngine.phase ≠ .breakWait
              ∧ d.asyncEngine.tracker = c.asyncEngine.tracker ∧ d.asyncEngine.period = c.asyncEngine.period)
          ∧ (c.protocol = some .clocked → d.clockedEngine.outBits = [] ∧ d.clockedEngine.phase = .ready)
          ∧ (c.protocol = some .flash → d.flashEngine.phase = .waiting)
          ∧ d.flashEngine.model = c.flashEngine.model
          ∧ (c.protocol = some .twoWire → d.twoWireEngine.bytes = [] ∧ d.twoWireEngine.state ≠ .address
              ∧ d.twoWireEngine.state ≠ .data))
      ∧ (c.state ≠ .free → ∃ engine : EngineReport,
          exec (.contextStatus .enough b) s = .next ({ s with dec := { s.dec with
              contexts := s.dec.contexts.set id
                { c with good := 0, errors := 0, suppressed := 0, armed := true } } }.answered .ok
            (.context ⟨c.state, c.protocol, c.lanes, c.report, c.annotate, c.errorThreshold, c.afterGap, c.good,
              c.errors, c.suppressed, c.asyncSettings, c.clockedSettings, c.flashSettings, c.twoWireSettings, engine⟩))
          ∧ (c.protocol = none → engine = .none)
          ∧ (c.protocol = some .async → engine = .async c.asyncSettings.mode
              c.asyncEngine.tracker c.asyncEngine.period (decide (c.asyncEngine.tracker = .narrow))
              c.asyncEngine.goodRun c.asyncEngine.badRun c.asyncEngine.intervals.length c.asyncEngine.phase
              c.asyncEngine.idleArmed c.asyncEngine.pass)
          ∧ (c.protocol = some .clocked → engine = .clocked c.clockedEngine.phase c.clockedEngine.outBits.length)
          ∧ (c.protocol = some .flash → ∃ armedOpcode resync phase, engine = .flash c.flashEngine.model armedOpcode
              resync phase
            ∧ (c.flashEngine.model.continuation = none → armedOpcode = none)
            ∧ (∀ d, c.flashEngine.model.continuation = some d → armedOpcode = some d.opcode)
            ∧ (resync = true ↔ c.flashEngine.phase = .resync)
            ∧ (∀ t, c.flashEngine.phase = .transfer t → phase = some t.phase)
            ∧ (c.flashEngine.phase = .waiting ∨ c.flashEngine.phase = .resync → phase = none))
          ∧ (c.protocol = some .twoWire → engine = .twoWire c.twoWireEngine.state c.twoWireEngine.assembly.length
              (min c.twoWireEngine.bytes.length 65535) c.twoWireEngine.stretch c.twoWireEngine.hold
              (match c.twoWireEngine.hold with
                | .none => none
                | .clockLow | .dataLowClockHigh => some c.twoWireEngine.holdOrigin)
              c.twoWireEngine.freeOrigin c.twoWireEngine.lastStretch))

/-- R127, R132, R187: FLASH_SET_LOAD replaces a set by the descriptors given, or is refused: BAD_PARAM for a set name, a
count, a descriptor byte outside Table 8-5 or a repeated opcode, BUSY while a RUNNING FLASH context names the set;
FLASH_MODEL_CLEAR sets a stopped FLASH context's model to the values of Table 8-8. (That a RUNNING context of another
protocol is answered BUSY and not WRONG_STATE is the model's choice, assumption log 46: R132 gives no order.) -/
def Obligations.FlashSetLoadAndModelClear : Prop :=
  (∀ (s : State) (name : SetName) (set : Byte) (rows : List (List Byte)) (ds : List Descriptor) (surplus : List Byte),
    s.admits → set.toNat = (match name with
      | .a => 0
      | .b => 1) →
    List.Forall₂ (fun row d => descriptorOf row = some d) rows ds → rows.length ≤ 32 →
    (¬ (ds.map (·.opcode)).Nodup →
      exec (.flashSetLoad (set :: BitVec.ofNat 8 rows.length :: (rows.flatten ++ surplus))) s
        = .next (s.answered .badParam))
    ∧ ((ds.map (·.opcode)).Nodup →
      (∃ i : CtxId, s.dec.contexts[i].state = .running ∧ s.dec.contexts[i].protocol = some .flash
        ∧ s.dec.contexts[i].flashSettings.set = name) →
      exec (.flashSetLoad (set :: BitVec.ofNat 8 rows.length :: (rows.flatten ++ surplus))) s
        = .next (s.answered .busy))
    ∧ ((ds.map (·.opcode)).Nodup →
      (∀ i : CtxId, s.dec.contexts[i].state = .running → s.dec.contexts[i].protocol = some .flash →
        s.dec.contexts[i].flashSettings.set ≠ name) →
      exec (.flashSetLoad (set :: BitVec.ofNat 8 rows.length :: (rows.flatten ++ surplus))) s
        = .next ({ s with dec := (match name with
            | .a => { s.dec with setA := ds }
            | .b => { s.dec with setB := ds }) }.answered .ok)))
  ∧ (∀ (s : State) (set count : Byte) (rest : List Byte), s.admits → 2 ≤ set.toNat ∨ 32 < count.toNat →
    exec (.flashSetLoad (set :: count :: rest)) s = .next (s.answered .badParam))
  ∧ (∀ (opcode ab aw mode dummy dir dw eff : Byte) (direction : DataDirection) (effect : EffectClass),
    ab.toNat = 0 ∨ ab.toNat = 3 ∨ ab.toNat = 4 → aw.toNat = 1 ∨ aw.toNat = 2 ∨ aw.toNat = 4 → dummy.toNat ≤ 15 →
    dir.toNat = (match direction with
      | .none => 0
      | .fromTarget => 1
      | .toTarget => 2) →
    dw.toNat = 1 ∨ dw.toNat = 2 ∨ dw.toNat = 4 → eff.toNat = effectCode effect →
    descriptorOf [opcode, ab, aw, mode, dummy, dir, dw, eff] = some ⟨opcode, ab.toNat, aw.toNat, mode.getLsbD 0,
      mode.extractLsb' 4 4, dummy.toNat, direction, dw.toNat, effect⟩)
  ∧ (∀ (s : State) (set opcode ab aw mode dummy dir dw eff : Byte) (count : Nat) (before after : List Byte), s.admits →
    (ab.toNat ≠ 0 ∧ ab.toNat ≠ 3 ∧ ab.toNat ≠ 4) ∨ (aw.toNat ≠ 1 ∧ aw.toNat ≠ 2 ∧ aw.toNat ≠ 4) ∨ 15 < dummy.toNat
      ∨ 2 < dir.toNat ∨ (dw.toNat ≠ 1 ∧ dw.toNat ≠ 2 ∧ dw.toNat ≠ 4) ∨ 11 < eff.toNat →
    descriptorOf [opcode, ab, aw, mode, dummy, dir, dw, eff] = none
    ∧ (count ≤ 32 → before.length % 8 = 0 → before.length + 8 ≤ 8 * count →
      exec (.flashSetLoad (set :: BitVec.ofNat 8 count
        :: (before ++ [opcode, ab, aw, mode, dummy, dir, dw, eff] ++ after))) s = .next (s.answered .badParam)))
  ∧ ∀ (s : State) (b : Byte), s.admits →
    (16 ≤ b.toNat → exec (.flashModelClear .enough b) s = .next (s.answered .badParam))
    ∧ ∀ (id : CtxId) (c : Context), b.toNat = id.val → s.dec.contexts[id] = c →
      (c.state = .free → exec (.flashModelClear .enough b) s = .next (s.answered .notFound))
      ∧ (c.state = .running → exec (.flashModelClear .enough b) s = .next (s.answered .busy))
      ∧ (c.state ≠ .free → c.state ≠ .running → c.protocol ≠ some .flash →
          exec (.flashModelClear .enough b) s = .next (s.answered .wrongState))
      ∧ (c.state ≠ .free → c.state ≠ .running → c.protocol = some .flash →
          exec (.flashModelClear .enough b) s = .next ({ s with dec := { s.dec with
              contexts := s.dec.contexts.set id { c with flashEngine := { c.flashEngine with
                model := ⟨false, false, 0, none, none, false, false, none⟩ } } } }.answered .ok))

/-- R98: RECORDS_TAKE removes the oldest min(count, 16, occupancy) records and returns them, oldest first, with the
queue's state, the occupancy after it and the lost count; a removal below the threshold re-arms QUEUE_LEVEL, and a
CLOSED queue stays CLOSED with its lost count. -/
def Obligations.RecordsTakeRemovesTheOldest : Prop :=
  ∀ (s : State) (count : Nat), s.admits → ∃ (taken rest : List Record) (armed : Bool),
    s.dec.queue = taken ++ rest ∧ taken.length = min (min count 16) s.dec.queue.length
    ∧ exec (.recordsTake .enough count) s = .next ({ s with dec := { s.dec with queue := rest, armed := armed } }.answered
        .ok (.records s.dec.isOpen rest.length s.dec.lost taken))
    ∧ (rest.length < s.dec.threshold → armed = true)
    ∧ (s.dec.threshold ≤ rest.length → armed = s.dec.armed)

/-- R99: QUEUE_THRESHOLD_SET stores the clamped threshold and compares it with the occupancy at once; QUEUE_STATUS
returns the queue's state, the lost span absent when the lost count is 0, and changes nothing; power-on sets 256, RESET
keeps the threshold, and after either the queue is empty and the flag set. -/
def Obligations.QueueThresholdAndStatus : Prop :=
  (∀ (s : State) (threshold : Nat), s.admits → ∃ (armed : Bool) (pending : BitVec 14),
    exec (.queueThresholdSet .enough threshold) s = .next ({ s with
        dec := { s.dec with threshold := min (max threshold 1) 512, armed := armed }
        cmd := { s.cmd with pending := pending } }.answered .ok)
    ∧ (min (max threshold 1) 512 ≤ s.dec.queue.length → armed = false
        ∧ pending = if s.dec.armed then s.cmd.pending ||| BitVec.twoPow 14 5 else s.cmd.pending)
    ∧ (s.dec.queue.length < min (max threshold 1) 512 → armed = true ∧ pending = s.cmd.pending))
  ∧ (∀ s : State, s.admits → exec .queueStatus s = .next (s.answered .ok
      (.queue s.dec.queue.length s.dec.isOpen s.dec.lost s.dec.span s.dec.threshold s.dec.armed)))
  ∧ (∀ s : State, s.inRange → s.dec.lost = 0 → s.dec.span = none)
  ∧ (State.reset.dec.threshold = 256 ∧ State.reset.dec.queue = [] ∧ State.reset.dec.armed = true)
  ∧ ∀ s : State, s.takesRequests → ∃ t, exec .reset s = .next t ∧ t.dec.threshold = s.dec.threshold
      ∧ t.dec.queue = [] ∧ t.dec.armed = true

/-- R100: QUEUE_ACK_GAP on a CLOSED queue with room appends the GAP record of the lost span, which QUEUE_LEVEL tests,
and opens the queue; with the queue OPEN it changes nothing, and CLOSED and full it is FULL. -/
def Obligations.QueueAckGapAppendsTheGap : Prop :=
  ∀ s : State, s.admits →
    (s.dec.isOpen = true → exec .queueAckGap s = .next (s.answered .ok))
    ∧ (s.dec.isOpen = false → 512 ≤ s.dec.queue.length → exec .queueAckGap s = .next (s.answered .full))
    ∧ ∀ x : LostSpan, s.dec.isOpen = false → s.dec.queue.length < 512 → s.dec.span = some x →
      ∃ (gap : Record) (armed : Bool) (pending : BitVec 14),
        gap.context = x.context ∧ gap.kind = .gap ∧ gap.startTick = x.startTick ∧ gap.endTick = x.endTick
        ∧ gap.flags = 0#32 ∧ gap.length = 0 ∧ gap.head = [] ∧ gap.lost = some s.dec.lost
        ∧ exec .queueAckGap s = .next ({ s with
            dec := { s.dec with queue := s.dec.queue ++ [gap], lost := 0, span := none, isOpen := true, armed := armed }
            cmd := { s.cmd with pending := pending } }.answered .ok)
        ∧ (s.dec.threshold ≤ s.dec.queue.length + 1 → armed = false
            ∧ pending = if s.dec.armed then s.cmd.pending ||| BitVec.twoPow 14 5 else s.cmd.pending)
        ∧ (s.dec.queue.length + 1 < s.dec.threshold → armed = true ∧ pending = s.cmd.pending)

/-- R95, R97, R155, R158, R160, R161: the record path passes on a record of the oldest moment, its first of a context, to the
consumers it was offered to: the queue, where it is appended, or dropped with the queue closed or closing, and the
sequencer, which evaluates it as one event with the record's end tick, unless it is not RUNNING or a fire is outstanding.
The annotation writer has a statement of its own. (The model's choices: which of a moment's records comes first is the
command's operand, assumption log 12; an empty path leaves the state as it is, assumption log 6.) -/
def Obligations.RecordPathDeliversToQueueAndSequencer : Prop :=
  (∀ (s : State) (ctx : CtxId), s.dec.path = [] → exec (.recordPathDelivery ctx) s = .next s)
  ∧ ∀ (s : State) (ctx : CtxId) (before after : List PathItem) (i : PathItem) (rest : List (List PathItem)),
    s.dec.path = (before ++ i :: after) :: rest → i.record.context = ctx →
    (∀ j ∈ before, j.record.context ≠ ctx) →
    ∃ t, exec (.recordPathDelivery ctx) s = .next t
      ∧ t.dec.path = (if before ++ after = [] then rest else (before ++ after) :: rest)
      ∧ t.dec.contexts = s.dec.contexts ∧ t.dec.threshold = s.dec.threshold ∧ t.pfe = s.pfe ∧ t.lvl = s.lvl
      ∧ t.cal = s.cal ∧ t.dsp = s.dsp ∧ t.cap.dram = s.cap.dram ∧ t.cap.staged = s.cap.staged
      ∧ (i.toQueue = false → t.dec.queue = s.dec.queue ∧ t.dec.isOpen = s.dec.isOpen ∧ t.dec.lost = s.dec.lost)
      ∧ (i.toTrigger = false ∨ s.trg.state ≠ .running ∨ s.trg.outstanding = true →
          t.trg = s.trg ∧ t.cap.fires = s.cap.fires)
      ∧ (i.toTrigger = true → s.trg.state = .running → s.trg.outstanding = false → ∃ (sent : List Fire) (notice : Bool),
          s.trg.takesEvent (fun u => s.trg.units[u].matchesRecord i.record = true) i.record.endTick t.trg sent notice
          ∧ t.cap.fires = s.cap.fires ++ sent ∧ (notice = true → t.cmd.pending.getLsbD 2 = true))
      ∧ (i.toSegment = none → t.cap.segments = s.cap.segments ∧ t.cap.stagedAnnotations = s.cap.stagedAnnotations)
      ∧ (i.toQueue = true → s.dec.isOpen = true → s.dec.queue.length < 512 →
          t.dec.queue = s.dec.queue ++ [i.record] ∧ t.dec.isOpen = true ∧ t.dec.lost = s.dec.lost
          ∧ t.dec.span = s.dec.span
          ∧ t.dec.armed = decide (s.dec.queue.length + 1 < s.dec.threshold)
          ∧ (s.dec.armed = true → s.dec.threshold ≤ s.dec.queue.length + 1 → t.cmd.pending.getLsbD 5 = true))
      ∧ (i.toQueue = true → s.dec.isOpen = true → 512 ≤ s.dec.queue.length →
          t.dec.queue = s.dec.queue ∧ t.dec.isOpen = false ∧ t.dec.lost = 1
          ∧ t.dec.span = some ⟨ctx, i.record.startTick, i.record.endTick⟩ ∧ t.cmd.pending.getLsbD 6 = true)
      ∧ ∀ x, i.toQueue = true → s.dec.isOpen = false → s.dec.span = some x →
          t.dec.queue = s.dec.queue ∧ t.dec.isOpen = false ∧ t.dec.lost = min (s.dec.lost + 1) (2 ^ 32 - 1)
          ∧ t.dec.span = some ⟨x.context, min x.startTick i.record.startTick, max x.endTick i.record.endTick⟩

/-- R44, R46, R55, R56, R64, R69: a record that the path delivers to the annotation writer of a capturing segment is stored with
the fields of Table 4-7 in the tail page, with a page requested first when slot 255 is stored (allocated, in PRE_TRIGGER
rotated instead, or refused), or it is dropped: the FIFO full, the stored count saturated, the page refused. An allocation that brings the pool below its threshold raises
POOL_LOW once. -/
def Obligations.AnnotationWriterStoresOrDrops : Prop :=
  ∀ (s : State) (ctx : CtxId) (before after : List PathItem) (i : PathItem) (rest : List (List PathItem)) (id : SegId)
    (g : Segment) (start tail : Nat) (a : Annotation),
    s.dec.path = (before ++ i :: after) :: rest → i.record.context = ctx → (∀ j ∈ before, j.record.context ≠ ctx) →
    i.toSegment = some id → s.captures id → s.cap.segments[id] = g → g.startTick = some start →
    g.annotations.tail = some tail → g.annotations.count ≠ 0 → s.memoryCanonical →
    a = { startTick := if i.record.startTick < start then 0 else i.record.startTick - start
          duration := min ((i.record.endTick - start) - (i.record.startTick - start)) (2 ^ 32 - 1)
          context := ctx
          kind := i.record.kind
          flags := i.record.flags.extractLsb' 0 16
          clipped := decide (i.record.startTick < start)
          firstByte := if i.record.length = 0 then 0#8 else i.record.head.headD 0#8
          length := min i.record.length 255 } →
    ∃ t, exec (.recordPathDelivery ctx) s = .next t
      ∧ (∀ j : SegId, j ≠ id → t.cap.segments[j] = s.cap.segments[j])
      ∧ t.cap.staged = s.cap.staged ∧ t.cap.encoder = s.cap.encoder ∧ t.cap.dram = s.cap.dram
      ∧ (t.cap.pool = s.cap.pool → t.cap.poolArmed = s.cap.poolArmed)
      ∧ (64 ≤ s.cap.stagedAnnotations.length ∨ g.annotationsStored = 2 ^ 32 - 1
          ∨ (g.annotationsStored ≠ 0 ∧ g.annotationsStored % 256 = 0
            ∧ ((g.state = .preTrigger ∧ g.annotations.count < g.annotationBudget ∧ g.annotations.count < 2
                ∧ s.cap.pool.count = 0)
              ∨ (g.state = .postTrigger ∧ (g.annotationBudget ≤ g.annotations.count ∨ s.cap.pool.count = 0)))) →
          t.cap.segments[id] = { g with annotationsDropped := min (g.annotationsDropped + 1) (2 ^ 32 - 1) }
          ∧ t.cap.stagedAnnotations = s.cap.stagedAnnotations ∧ t.cap.pool = s.cap.pool
          ∧ t.cap.pages = s.cap.pages)
      ∧ (s.cap.stagedAnnotations.length < 64 → g.annotationsStored ≠ 2 ^ 32 - 1 →
        (g.annotationsStored = 0 ∨ g.annotationsStored % 256 ≠ 0 →
          t.cap.segments[id] = { g with annotationsStored := min (g.annotationsStored + 1) (2 ^ 32 - 1) }
          ∧ t.cap.stagedAnnotations = s.cap.stagedAnnotations ++ [⟨tail, g.annotationsStored % 256, a⟩]
          ∧ t.cap.pool = s.cap.pool ∧ t.cap.pages = s.cap.pages)
        ∧ (g.annotationsStored ≠ 0 → g.annotationsStored % 256 = 0 →
          (∀ p, g.annotations.count < g.annotationBudget → s.cap.pool.count ≠ 0 → s.cap.pool.head = some p → p ≠ tail →
            t.cap.segments[id] = { g with
                annotations := ⟨g.annotations.head, some p, g.annotations.count + 1⟩
                annotationsStored := min (g.annotationsStored + 1) (2 ^ 32 - 1) }
            ∧ t.cap.stagedAnnotations = s.cap.stagedAnnotations ++ [⟨p, 0, a⟩]
            ∧ s.takesPage p t
            ∧ PageMap.get t.cap.pages p = ⟨.annotations id, none⟩
            ∧ PageMap.get t.cap.pages tail = ⟨(PageMap.get s.cap.pages tail).owner, some p⟩
            ∧ ∀ q, q ≠ p → q ≠ tail → PageMap.get t.cap.pages q = PageMap.get s.cap.pages q)
          ∧ (g.state = .preTrigger → g.annotationBudget ≤ g.annotations.count ∨ s.cap.pool.count = 0 →
            (g.annotations.count = 1 → g.annotationBudget ≤ 1 →
              t.cap.segments[id] = { g with
                  firstAnnotation := g.firstAnnotation + 256
                  annotationsStored := min (g.annotationsStored + 1) (2 ^ 32 - 1) }
              ∧ t.cap.stagedAnnotations = s.cap.stagedAnnotations ++ [⟨tail, 0, a⟩]
              ∧ t.cap.pool = s.cap.pool ∧ t.cap.pages = s.cap.pages)
            ∧ ∀ h n, 2 ≤ g.annotations.count → g.annotations.head = some h → h ≠ tail →
              (PageMap.get s.cap.pages h).next = some n →
              t.cap.segments[id] = { g with
                  annotations := ⟨some n, some h, g.annotations.count⟩
                  firstAnnotation := g.firstAnnotation + 256
                  annotationsStored := min (g.annotationsStored + 1) (2 ^ 32 - 1) }
              ∧ t.cap.stagedAnnotations = s.cap.stagedAnnotations ++ [⟨h, 0, a⟩] ∧ t.cap.pool = s.cap.pool
              ∧ PageMap.get t.cap.pages h = ⟨(PageMap.get s.cap.pages h).owner, none⟩
              ∧ PageMap.get t.cap.pages tail = ⟨(PageMap.get s.cap.pages tail).owner, some h⟩)))

/-- R113, R123, R124, R148, R149, R94, R95: the four protocol timers. With a conditioned sample to come that reaches the
expiry, IDLE_TIMER_EXPIRY emits an IDLE record, WORD_GAP_TIMER_EXPIRY the partial word, STUCK_TIMER_EXPIRY a MESSAGE with
BUS_STUCK, and BUS_FREE_TIMER_EXPIRY leaves WAIT_FREE. (The model's choices: the events are taken just ahead of that
sample, assumption log 4; a stuck expiry with no message open leaves the last message stretch as it was, assumption
log 29; stretch sum and data count are 0 once a message has ended, assumption log 48; no hold class is kept in WAIT_FREE,
assumption log 55.) -/
def Obligations.ProtocolTimersExpire : Prop :=
  ∀ (s : State) (r : Run) (id : CtxId) (c : Context), s.pfe.run = some r → 24 ≤ r.taken → s.dec.contexts[id] = c →
    c.state = .running →
    (∀ m origin, c.protocol = some .async → c.asyncEngine.phase = .huntSync ∨ c.asyncEngine.phase = .huntNext →
      c.asyncEngine.markSince = some m → c.asyncEngine.idleArmed = true → c.asyncEngine.tracker ≠ .acquire →
      origin = max m (c.asyncEngine.lastCharacter.getD 0) → origin ≤ r.nextStamp →
      c.asyncSettings.idleLength * c.asyncEngine.period ≤ 256 * (r.nextStamp - origin) →
      ∃ (d : Context) (path : List (List PathItem)),
        exec (.idleTimerExpiry id) s = .next { s with dec := { s.dec with
            contexts := s.dec.contexts.set id d, path := path } }
        ∧ d = { c with asyncEngine := { c.asyncEngine with idleArmed := false }
                       good := min (c.good + 1) (2 ^ 32 - 1), afterGap := false }
        ∧ s.offers c { context := id, kind := .idle, startTick := origin, endTick := r.nextStamp,
                       flags := if c.afterGap then BitVec.twoPow 32 3 else 0#32, length := 0, head := [] } path)
    ∧ (∀ expiry, c.protocol = some .clocked → c.clockedEngine.gapTimer = some expiry → expiry ≤ r.nextStamp →
      c.clockedEngine.outBits ≠ [] →
      ∃ (d : Context) (path : List (List PathItem)) (word : Record) (cmd : Cmd),
        exec (.wordGapTimerExpiry id) s = .next { s with
            dec := { s.dec with contexts := s.dec.contexts.set id d, path := path }, cmd := cmd }
        ∧ d = { c with
            clockedEngine := { c.clockedEngine with phase := .ready, outBits := [], inBits := [], skew := false,
                                                    phasePending := false, gapTimer := none }
            good := d.good, errors := d.errors, armed := d.armed, afterGap := false }
        ∧ s.counts id c d (c.clockedEngine.skew || c.clockedEngine.phasePending) cmd
        ∧ word.context = id ∧ word.kind = .word ∧ word.startTick = c.clockedEngine.startTick
        ∧ word.endTick = r.nextStamp ∧ word.length = min ((c.clockedEngine.outBits.length + 7) / 8) 65535
        ∧ (c.clockedEngine.outBits.length ≤ 32 → ∀ j k, j < word.length → k < 8 →
            (word.head.getD j 0#8).getLsbD k = (match c.clockedSettings.bitOrder with
              | .msbFirst => c.clockedEngine.outBits.reverse
              | .lsbFirst => c.clockedEngine.outBits).getD (8 * j + k) false)
        ∧ (c.lanes.inn = none → word.inWord = none)
        ∧ (c.lanes.inn ≠ none → ∃ v : BitVec 32, word.inWord = some v
          ∧ ∀ k, k < 32 → v.getLsbD k = (match c.clockedSettings.bitOrder with
            | .msbFirst => c.clockedEngine.inBits.reverse
            | .lsbFirst => c.clockedEngine.inBits).getD k false)
        ∧ word.flags.getLsbD 23 = true ∧ word.flags.getLsbD 5 = c.clockedEngine.skew
        ∧ word.flags.getLsbD 6 = c.clockedEngine.phasePending ∧ word.flags.getLsbD 3 = c.afterGap
        ∧ s.offers c word path)
    ∧ (c.protocol = some .twoWire → c.twoWireEngine.hold ≠ .none →
      c.twoWireEngine.holdOrigin + c.twoWireSettings.stuckLimit ≤ r.nextStamp →
      (c.twoWireEngine.state = .busFree →
        ∃ (d : Context) (path : List (List PathItem)) (message : Record) (cmd : Cmd),
          exec (.stuckTimerExpiry id) s = .next { s with
              dec := { s.dec with contexts := s.dec.contexts.set id d, path := path }, cmd := cmd }
          ∧ d = { c with
              twoWireEngine := { c.twoWireEngine with state := .waitFree, hold := .none, freeOrigin := none }
              errors := d.errors, armed := d.armed, afterGap := false }
          ∧ s.counts id c d true cmd
          ∧ message.context = id ∧ message.kind = .message ∧ message.startTick = c.twoWireEngine.holdOrigin
          ∧ message.endTick = r.nextStamp ∧ message.length = 0 ∧ message.address = none
          ∧ message.flags.getLsbD 19 = true ∧ s.offers c message path)
      ∧ (c.twoWireEngine.state = .address ∨ c.twoWireEngine.state = .data → ∃ d : Context,
          d.twoWireEngine.state = .waitFree ∧ d.twoWireEngine.hold = .none ∧ d.twoWireEngine.freeOrigin = none
          ∧ d.twoWireEngine.bytes = [] ∧ d.twoWireEngine.lastStretch = c.twoWireEngine.stretch
          ∧ (passesFilter c.twoWireSettings.filter c.twoWireEngine.address = false →
              exec (.stuckTimerExpiry id) s
                = .next { s with dec := { s.dec with contexts := s.dec.contexts.set id d } }
              ∧ d = { c with twoWireEngine := d.twoWireEngine, suppressed := min (c.suppressed + 1) 65535 })
          ∧ (passesFilter c.twoWireSettings.filter c.twoWireEngine.address = true →
              ∃ (path : List (List PathItem)) (message : Record) (cmd : Cmd),
                exec (.stuckTimerExpiry id) s = .next { s with
                    dec := { s.dec with contexts := s.dec.contexts.set id d, path := path }, cmd := cmd }
                ∧ d = { c with twoWireEngine := d.twoWireEngine, errors := d.errors, armed := d.armed,
                               afterGap := false }
                ∧ s.counts id c d true cmd
                ∧ message.context = id ∧ message.kind = .message
                ∧ message.startTick = c.twoWireEngine.startTick ∧ message.endTick = r.nextStamp
                ∧ message.length = min c.twoWireEngine.bytes.length 65535
                ∧ message.address = c.twoWireEngine.address.map BitVec.toNat
                ∧ message.flags.getLsbD 19 = true ∧ message.flags.getLsbD 20 = false
                ∧ s.offers c message path)))
    ∧ (∀ origin, c.protocol = some .twoWire → c.twoWireEngine.state = .waitFree →
      c.twoWireEngine.freeOrigin = some origin → origin + c.twoWireSettings.busFree ≤ r.nextStamp →
      exec (.busFreeTimerExpiry id) s = .next { s with dec := { s.dec with
          contexts := s.dec.contexts.set id { c with twoWireEngine :=
            { c.twoWireEngine with state := .busFree, hold := .none, freeOrigin := none } } } })

/-- R101 to R117: the asynchronous engine: the first sample after a gap, acquisition and its estimate, hunting and start
edges, tracking edges, the three samples of a bit, false starts, BREAK, CHARACTER with its flags and the multidrop filter,
verdicts and lock; a sample takes a due idle expiry, the lane's change, then the bits that are due. (The model's choices:
the changes of a frame whose verdict returns to ACQUIRE are dropped, assumption log 41, and the receiver phase is then
HUNT_SYNC with no mark-since, assumption log 45; an idle expiry past at a frame's end is taken at the next sample,
assumption log 42.) -/
def Obligations.AsyncEngineFollowsItsRules : Prop :=
  ∀ (e : AsyncEngine) (s : AsyncSettings) (ctx : CtxId) (level : Level) (t : Nat) (mark : Bool),
    let low := if level = .economy then max s.lower 4096 else s.lower
    let clamped := fun p => min (max p low) s.upper
    -- the sample
    (∀ (lanes : Lanes) (x : Reading) (d : Chan), lanes.data = some d →
      (x.lines.getLsbD d.val = decide (s.polarity = .normal) ↔ mark = true) → x.stamp = t →
      (x.fresh = true → e.sample s lanes ctx level x = ({ e with markSince := if mark then some t else none }, []))
      ∧ (x.fresh = false → ∃ (i c b : AsyncEngine) (oi oc ob : List Emission), e.expireIdle s ctx t = (i, oi)
        ∧ (x.changed.getLsbD d.val = false → c = i ∧ oc = [])
        ∧ (x.changed.getLsbD d.val = true → i.takeChange s ctx level t mark = (c, oc))
        ∧ (c.nextBit s ctx level x.step t = none → b = c ∧ ob = [])
        ∧ (∀ b1 o1, c.nextBit s ctx level x.step t = some (b1, o1) → b1.nextBit s ctx level x.step t = none →
            b = b1 ∧ ob = o1)
        ∧ AsyncEngine.evaluateBits s ctx level x.step t 64 c = (b, ob)
        ∧ e.sample s lanes ctx level x = (b, oi ++ oc ++ ob)))
    -- acquisition
    ∧ (e.tracker = .acquire → ∀ kept : List Nat,
      kept = (match e.lastChange with
        | some t0 => if s.upper < 256 * (t - t0) ∨ 256 * (t - t0) < low then e.intervals else e.intervals ++ [t - t0]
        | none => e.intervals) →
      (kept.length < 16 → e.takeChange s ctx level t mark = ({ e with intervals := kept, lastChange := some t }, []))
      ∧ ∀ m bits, kept.length = 16 → m ∈ kept → (∀ i ∈ kept, m ≤ i) →
        bits = (kept.map fun i => (2 * i + m) / (2 * m)).sum →
        e.takeChange s ctx level t mark = ({ e with
          tracker := .wide, period := clamped ((512 * kept.sum + bits) / (2 * bits)), goodRun := 0, badRun := 0
          intervals := [], lastChange := none, phase := .huntSync
          markSince := if mark then some t else none }, []))
    -- hunting
    ∧ (e.tracker ≠ .acquire → e.phase = .huntSync →
      (mark = true → e.takeChange s ctx level t mark = ({ e with markSince := some t }, []))
      ∧ (∀ m, mark = false → e.markSince = some m → s.frameLength * e.period ≤ 256 * (t - m) →
        e.takeChange s ctx level t mark = ({ e with phase := .frame, frame := some { start := t }, markSince := none }, []))
      ∧ (mark = false → (∀ m, e.markSince = some m → 256 * (t - m) < s.frameLength * e.period) →
        e.takeChange s ctx level t mark = ({ e with markSince := none }, [])))
    ∧ (e.tracker ≠ .acquire → e.phase = .huntNext → e.takeChange s ctx level t mark = (if mark
        then { e with markSince := some t }
        else { e with phase := .frame, frame := some { start := t }, markSince := none }, []))
    -- a break that ends
    ∧ (∀ f : AsyncFrame, e.tracker ≠ .acquire → e.phase = .breakWait → e.frame = some f →
      (mark = false → e.takeChange s ctx level t mark = (e, []))
      ∧ (mark = true → ∃ r : Record,
        e.takeChange s ctx level t mark
          = ({ e with phase := .huntSync, markSince := some t, frame := none }, [.record r])
        ∧ r.context = ctx ∧ r.kind = .brk ∧ r.startTick = f.start ∧ r.endTick = t ∧ r.flags = 0#32 ∧ r.length = 0))
    -- a tracking edge
    ∧ (∀ (f : AsyncFrame) (j : Nat) (err : Int), e.tracker ≠ .acquire → e.phase = .frame → e.frame = some f →
      f.start < t → j = (2 * (256 * t - 256 * f.start) + e.period) / (2 * e.period) →
      err = 256 * (t : Int) - 256 * f.start - j * e.period →
      (256 * f.start + e.period * (2 * (s.frameLength - 1) + 1) / 2 ≤ 256 * t ∨ j = 0 ∨ s.frameLength ≤ j →
        e.takeChange s ctx level t mark
          = ({ e with frame := some { f with changes := f.changes ++ [(t, mark)] } }, []))
      ∧ (256 * t < 256 * f.start + e.period * (2 * (s.frameLength - 1) + 1) / 2 → j ≠ 0 → j < s.frameLength →
        e.takeChange s ctx level t mark = ({ e with
          period := if s.mode = .fixed then e.period else clamped
            (e.period + Int.tdiv err (j * (if e.tracker = .narrow then 64 else 8))).toNat
          frame := some { f with
            edgesGood := f.edgesGood && decide (4 * err.natAbs ≤ e.period)
            changes := f.changes ++ [(t, mark)] } }, [])))
    -- the bits of a frame
    ∧ (∀ (f : AsyncFrame) (step tick d : Nat) (a b c v : Bool), e.phase = .frame → e.frame = some f →
      tick = (256 * f.start + e.period * (2 * f.bits.length + 1) / 2) / 256 → d = max step (e.period / 4096) →
      a = f.valueAt (tick - d) → b = f.valueAt tick → c = f.valueAt (tick + d) →
      (v = true ↔ a = true ∧ b = true ∨ a = true ∧ c = true ∨ b = true ∧ c = true) →
      (t < tick + d → e.nextBit s ctx level step t = none)
      ∧ ∀ f' : AsyncFrame, f' = { f with
            bits := f.bits ++ [v], noise := f.noise || !(decide (a = b) && decide (b = c)) } → tick + d ≤ t →
        (f.bits = [] → v = true → e.nextBit s ctx level step t = some (e.falseStart s ctx level f'))
        ∧ (f.bits ≠ [] ∨ v = false → f.bits.length + 1 < s.frameLength →
            e.nextBit s ctx level step t = some ({ e with frame := some f' }, []))
        ∧ (f.bits ≠ [] ∨ v = false → f.bits.length + 1 = s.frameLength →
            e.nextBit s ctx level step t = some (e.endFrame s ctx level f')))
    -- a false start
    ∧ (∀ (f : AsyncFrame) (q : AsyncEngine) (moved : List Emission),
      ({ e with phase := .huntSync, markSince := none, frame := none } : AsyncEngine).verdict s false = (q, moved) →
      (q.tracker = .acquire → e.falseStart s ctx level f = (q, moved))
      ∧ (q.tracker ≠ .acquire → e.falseStart s ctx level f = ((q.takeChanges s ctx level f.changes).1,
          moved ++ (q.takeChanges s ctx level f.changes).2)))
    -- the end of a frame
    ∧ (∀ (f : AsyncFrame) (last : Nat) (later : List (Nat × Bool)), f.bits.length = s.frameLength →
      last = 256 * f.start + e.period * (2 * (s.frameLength - 1) + 1) / 2 →
      later = f.changes.filter (fun c => decide (last ≤ 256 * c.1)) →
      ((∀ b ∈ f.bits, b = false) → e.endFrame s ctx level f
        = ({ e with phase := .breakWait, frame := some f } : AsyncEngine).takeChanges s ctx level later)
      ∧ ((∃ b ∈ f.bits, b = true) →
        ∃ (r : Record) (framing parity markBit errored pass emitted : Bool) (since : Option Nat) (q : AsyncEngine)
          (moved : List Emission),
        r.context = ctx ∧ r.kind = .character ∧ r.startTick = f.start ∧ r.endTick = last / 256
        ∧ (framing = true ↔ ∃ b ∈ f.bits.drop (s.frameLength - s.stopBits), b = false)
        ∧ (parity = true ↔
            (s.parity = .even ∧ ((f.bits.drop 1).take (s.frameLength - 1 - s.stopBits)).count true % 2 = 1)
            ∨ (s.parity = .odd ∧ ((f.bits.drop 1).take (s.frameLength - 1 - s.stopBits)).count true % 2 = 0))
        ∧ markBit = (s.addressMark && f.bits.getD (1 + s.dataBits) false)
        ∧ errored = (f.noise || framing || parity)
        ∧ (∀ k, k < 32 → r.flags.getLsbD k = (if k = 0 then f.noise else if k = 1 then framing else if k = 2 then parity
            else if k = 22 then markBit else false))
        ∧ r.length = (if s.dataBits = 9 then 2 else 1)
        ∧ (s.dataBits ≤ 9 → ∀ k, k < 8 → (r.head.getD 0 0#8).getLsbD k
              = (decide (k < s.dataBits) && f.bits.getD (1 + k) false)
            ∧ (r.head.getD 1 0#8).getLsbD k
              = (decide (s.dataBits = 9 ∧ k = 0) && f.bits.getD 9 false))
        ∧ (s.filterAddress = none → emitted = true ∧ pass = e.pass)
        ∧ (∀ address value, s.filterAddress = some address →
            (∀ k, value.testBit k = (decide (k < s.dataBits) && f.bits.getD (1 + k) false)) →
            (errored = true → emitted = true ∧ pass = if markBit then false else e.pass)
            ∧ (errored = false → markBit = true → emitted = decide (value = address) ∧ pass = emitted)
            ∧ (errored = false → markBit = false → emitted = e.pass ∧ pass = e.pass))
        ∧ ({ e with
            phase := .huntNext, frame := none, pass, markSince := since, idleArmed := e.idleArmed || emitted
            lastCharacter := if emitted then some (last / 256) else e.lastCharacter } : AsyncEngine).verdict s
              (!errored && f.edgesGood) = (q, moved)
        ∧ (f.changes.filter (fun c => decide (256 * c.1 < last)) = [] → since = none)
        ∧ (∀ cs u m, f.changes.filter (fun c => decide (256 * c.1 < last)) = cs ++ [(u, m)] →
            since = if m then some u else none)
        ∧ (q.tracker = .acquire → e.endFrame s ctx level f
            = (q, (if emitted then [.record r] else [.suppressed]) ++ moved))
        ∧ (q.tracker ≠ .acquire → e.endFrame s ctx level f = ((q.takeChanges s ctx level later).1,
            (if emitted then [.record r] else [.suppressed]) ++ moved ++ (q.takeChanges s ctx level later).2))))
    -- verdicts
    ∧ (∀ good : Bool,
      (e.tracker = .acquire ∨ (e.tracker = .wide ∧ good = true ∧ e.goodRun < 7)
          ∨ (e.tracker = .wide ∧ good = false ∧ (e.badRun < 15 ∨ s.mode ≠ .auto)) ∨ (e.tracker = .narrow ∧ good = true)
          ∨ (e.tracker = .narrow ∧ good = false ∧ e.badRun < 3) →
        e.verdict s good = ({ e with
          goodRun := if good then min (e.goodRun + 1) 8 else 0
          badRun := if good then 0 else min (e.badRun + 1) 16 }, []))
      ∧ (e.tracker = .wide → good = true → 7 ≤ e.goodRun →
        e.verdict s good = ({ e with tracker := .narrow, goodRun := 0, badRun := 0 }, [.lockChange]))
      ∧ (e.tracker = .narrow → good = false → 3 ≤ e.badRun →
        e.verdict s good = ({ e with tracker := .wide, goodRun := 0, badRun := 0 }, [.lockChange]))
      ∧ (e.tracker = .wide → good = false → 15 ≤ e.badRun → s.mode = .auto →
        e.verdict s good = ({ e with
          tracker := .acquire, goodRun := 0, badRun := 0, intervals := [], lastChange := none, phase := .huntSync
          markSince := none, idleArmed := false }, [])))

/-- R120 to R125: the clocked engine: the first sample after a gap; with a select, its assertion, its deassertion and the
edges admitted between them; without one, the gap timer, whose expiry is taken before the sample's edge; a bit joins the
word, and a complete word, or a word ended early as PARTIAL, is a WORD record with its bits in the set order. (That the first sample
after a start, a gap or a resumption carries no sampling edge without a select either, also where the clock changes at it, and
that a select which becomes asserted at it is RESYNC, is the model's reading of R125 against R122 and R124, assumption log
53.) -/
def Obligations.ClockedEngineFollowsItsRules : Prop :=
  ∀ (e : ClockedEngine) (s : ClockedSettings) (lanes : Lanes) (ctx : CtxId) (x : Reading) (clock out : Chan),
    lanes.clock = some clock → lanes.out = some out →
    let edge := x.changed.getLsbD clock.val = true ∧ (x.lines.getLsbD clock.val = true ↔ s.edge = .rising)
    let ended := { e with phase := .ready, outBits := [], inBits := [], skew := false, phasePending := false
                          gapTimer := none }
    -- the bit of an admitted edge
    (∀ (moved : Bool) (bit inBit : Bool) (d : ClockedEngine), bit = x.lines.getLsbD out.val →
      (∀ c, lanes.inn = some c → inBit = x.lines.getLsbD c.val) → (lanes.inn = none → inBit = false) →
      (moved = true ↔ x.changed.getLsbD out.val = true ∨ ∃ c, lanes.inn = some c ∧ x.changed.getLsbD c.val = true) →
      d = { e with
        phase := .word, startTick := if e.outBits = [] then x.stamp else e.startTick, skew := e.skew || moved
        outBits := e.outBits ++ [bit], inBits := e.inBits ++ [inBit]
        gapTimer := if lanes.select = none then some (x.stamp + s.gapTimeout) else none } →
      (e.outBits.length + 1 < s.wordLength → e.takeBit s lanes ctx x = (d, []))
      ∧ (s.wordLength ≤ e.outBits.length + 1 →
          e.takeBit s lanes ctx x = (d.ended, [.record (d.word s lanes ctx x.stamp false)])))
    ∧ e.ended = ended
    -- with a select
    ∧ (∀ (c : Chan) (asserted : Bool), lanes.select = some c →
      (x.lines.getLsbD c.val = decide (s.selectPolarity = .activeHigh) ↔ asserted = true) →
      (x.fresh = true → e.sample s lanes ctx x
        = ({ phase := if asserted then .resync else .ready, selected := asserted }, []))
      ∧ (x.fresh = false → asserted = true → e.selected = false → e.sample s lanes ctx x
        = ({ ended with
            phasePending := decide (x.lines.getLsbD clock.val ≠ s.idleLevel), selected := true }, []))
      ∧ (x.fresh = false → asserted = false → e.selected = true → e.sample s lanes ctx x
        = ({ ended with selected := false },
            if e.outBits = [] then [] else [.record (e.word s lanes ctx x.stamp true)]))
      ∧ (x.fresh = false → asserted = false → e.selected = false → e.sample s lanes ctx x = (e, []))
      ∧ (x.fresh = false → asserted = true → e.selected = true →
        (e.phase = .resync ∨ ¬ edge → e.sample s lanes ctx x = (e, []))
        ∧ (e.phase ≠ .resync → edge → e.sample s lanes ctx x = e.takeBit s lanes ctx x)))
    -- without one
    ∧ (lanes.select = none →
      (x.fresh = true → e.sample s lanes ctx x = ({}, []))
      ∧ (x.fresh = false → (∀ expiry, e.gapTimer = some expiry → x.stamp < expiry) → e.sample s lanes ctx x
        = if x.changed.getLsbD clock.val = true ∧ x.lines.getLsbD clock.val = decide (s.edge = .rising)
            then e.takeBit s lanes ctx x else (e, []))
      ∧ ∀ expiry, x.fresh = false → e.gapTimer = some expiry → expiry ≤ x.stamp → e.outBits ≠ [] →
        (¬ edge → e.sample s lanes ctx x = (ended, [.record (e.word s lanes ctx x.stamp true)]))
        ∧ (edge → e.sample s lanes ctx x = ((ended.takeBit s lanes ctx x).1,
            .record (e.word s lanes ctx x.stamp true) :: (ended.takeBit s lanes ctx x).2)))
    -- the record
    ∧ ∀ (endTick : Nat) (partialWord : Bool) (w : Record), w = e.word s lanes ctx endTick partialWord →
      e.outBits.length ≤ 32 → e.inBits.length = e.outBits.length →
      w.context = ctx ∧ w.kind = .word ∧ w.startTick = e.startTick ∧ w.endTick = endTick
      ∧ w.length = (e.outBits.length + 7) / 8 ∧ w.head.length = w.length
      ∧ (∀ k, k < 32 → w.flags.getLsbD k = (if k = 5 then e.skew else if k = 6 then e.phasePending
          else if k = 23 then partialWord else false))
      ∧ (∀ j k, j < w.length → k < 8 → (w.head.getD j 0#8).getLsbD k = (match s.bitOrder with
          | .msbFirst => e.outBits.reverse
          | .lsbFirst => e.outBits).getD (8 * j + k) false)
      ∧ (lanes.inn = none → w.inWord = none)
      ∧ (lanes.inn ≠ none → ∃ v : BitVec 32, w.inWord = some v ∧ ∀ k, k < 32 → v.getLsbD k = (match s.bitOrder with
          | .msbFirst => e.inBits.reverse
          | .lsbFirst => e.inBits).getD k false)

/-- R126, R128 to R138: the flash engine and the target model: RESYNC, the assertion with or without an armed
continuation, transfer clocks phase by phase with the byte order of Table 8-6 and LANES_MISSING, the deassertion with the
way the transfer ended, the model's first case that holds, the mode verdict, the class effects, status bytes, the end
address, and the FLASH_OP record. (A wide command byte that cannot be decoded makes a transfer neither complete nor
truncated even when it ends within that byte: read from R130 by inference, assumption log 25. That a select which falls at
the first sample read after a start, a gap or a resumption is RESYNC, also where CONTEXT_START comes in the midst of a run, is
the model's reading of R138 against R128, assumption log 57.) -/
def Obligations.FlashEngineFollowsItsRules : Prop :=
  -- samples
  (∀ (e : FlashEngine) (s : FlashSettings) (lanes : Lanes) (set : List Descriptor) (ctx : CtxId) (x : Reading)
      (clock select : Chan), lanes.clock = some clock → lanes.select = some select →
    let low := x.lines.getLsbD select.val = false
    let high := x.lines.getLsbD select.val = true
    let rising := x.changed.getLsbD clock.val = true ∧ x.lines.getLsbD clock.val = true
    (x.fresh = true → low → e.sample s lanes set ctx x = ({ e with phase := .resync, selected := true }, []))
    ∧ (x.fresh = true → high → e.sample s lanes set ctx x = ({ e with phase := .waiting, selected := false }, []))
    ∧ (x.fresh = false → high → e.selected = false → e.sample s lanes set ctx x = (e, []))
    ∧ (x.fresh = false → low → e.selected = false → ∃ t : Transfer,
        e.sample s lanes set ctx x = ({ e with phase := .transfer t, selected := true }, [])
        ∧ t.startTick = x.stamp ∧ t.clocks = 0 ∧ t.total = 0 ∧ t.bits = [] ∧ t.bytes = [] ∧ t.unknown = false
        ∧ t.address = none ∧ t.modeByte = none
        ∧ (e.model.continuation = none → t.elided = false ∧ t.phase = .command ∧ t.opcode = none
            ∧ t.descriptor = none
            ∧ (t.lanesMissing = true ↔ e.model.wide = true ∧ (lanes.d2 = none ∨ lanes.d3 = none)))
        ∧ (∀ d, e.model.continuation = some d → t.elided = true ∧ t.opcode = some d.opcode ∧ t.descriptor = some d
            ∧ t.phase = (if d.addressBytes ≠ 0 then .address else if d.hasMode then .mode
                else if d.dummy ≠ 0 then .dummy else if d.direction = .none then .surplus else .data)
            ∧ (t.lanesMissing = true ↔ (((t.phase = .address ∨ t.phase = .mode) ∧ d.addressWidth = 4)
                ∨ (t.phase = .data ∧ d.dataWidth = 4)) ∧ (lanes.d2 = none ∨ lanes.d3 = none))))
    ∧ (x.fresh = false → low → e.selected = true →
      (¬ rising ∨ e.phase = .waiting ∨ e.phase = .resync → e.sample s lanes set ctx x = (e, []))
      ∧ ∀ t, rising → e.phase = .transfer t →
        e.sample s lanes set ctx x = ({ e with phase := .transfer (t.clock e.model.wide lanes set x) }, []))
    ∧ (x.fresh = false → high → e.selected = true →
      (e.phase = .waiting ∨ e.phase = .resync ∨ (∃ t, e.phase = .transfer t ∧ t.total = 0) →
        e.sample s lanes set ctx x = ({ e with phase := .waiting, selected := false }, []))
      ∧ ∀ t, e.phase = .transfer t → t.total ≠ 0 → ∃ (effect : ModelEffect) (r : Record),
        effect = e.model.apply s t x.stamp
        ∧ e.sample s lanes set ctx x
          = ({ e with phase := .waiting, selected := false, model := effect.model }, [.record r])
        ∧ r.context = ctx ∧ r.kind = .flashOp ∧ r.startTick = t.startTick ∧ r.endTick = x.stamp
        ∧ r.opcode = t.opcode ∧ r.address = t.address ∧ r.modeByte = t.modeByte
        ∧ r.effect = t.descriptor.map (·.effect) ∧ r.busyDuration = effect.busyDuration
        ∧ r.length = min t.bytes.length 65535 ∧ r.head = (t.bytes.take 4).map (·.1)
        ∧ (r.flags.getLsbD 8 = true ↔ t.elided = true) ∧ (r.flags.getLsbD 7 = true ↔ t.unknown = true)
        ∧ (r.flags.getLsbD 14 = true ↔ t.lanesMissing = true)
        ∧ (r.flags.getLsbD 4 = true ↔ t.ending e.model.wide = .truncated)
        ∧ (r.flags.getLsbD 9 = true ↔ (RecordFlag.withoutEnable, true) ∈ effect.flags)
        ∧ (r.flags.getLsbD 10 = true ↔ (RecordFlag.whileBusy, true) ∈ effect.flags)
        ∧ (r.flags.getLsbD 11 = true ↔ (RecordFlag.ignoredPoweredDown, true) ∈ effect.flags)
        ∧ (r.flags.getLsbD 15 = true ↔ effect.busyDuration ≠ none)
        ∧ (∀ k, k < 32 → k < 4 ∨ k = 5 ∨ k = 6 ∨ (15 < k ∧ k ≠ 24) → r.flags.getLsbD k = false)
        ∧ (r.flags.getLsbD 24 = true ↔ 65535 < t.bytes.length)
        ∧ (t.bytes = [] ∨ t.address = none ∨ t.descriptor = none → r.endAddress = none
            ∧ r.flags.getLsbD 12 = false ∧ r.flags.getLsbD 13 = false)
        ∧ ∀ a n d, t.address = some a → t.descriptor = some d → t.bytes.length = n → n ≠ 0 →
          (∀ w, d.effect = .read → e.model.wrap = some w →
            r.endAddress = some (a - a % w + (a % w + n - 1) % w) ∧ (r.flags.getLsbD 13 = true ↔ w < a % w + n))
          ∧ (d.effect = .programPage → r.endAddress = some
              (a - a % 2 ^ s.pageExponent + (a % 2 ^ s.pageExponent + n - 1) % 2 ^ s.pageExponent)
            ∧ (r.flags.getLsbD 12 = true ↔ 2 ^ s.pageExponent < a % 2 ^ s.pageExponent + n))
          ∧ ((d.effect = .read ∧ e.model.wrap = none) ∨ (d.effect ≠ .read ∧ d.effect ≠ .programPage) →
            r.endAddress = some ((a + n - 1) % 2 ^ (8 * d.addressBytes)))))
  -- transfer clocks
  ∧ (∀ (t : Transfer) (wide : Bool) (lanes : Lanes) (set : List Descriptor) (x : Reading) (d0 : Chan) (b : Bool),
    lanes.d0 = some d0 → b = x.lines.getLsbD d0.val →
    let unbound := lanes.d2 = none ∨ lanes.d3 = none
    (∀ (clocks : Nat) (bits : List Bool), t.phase = .command → t.lanesMissing = false →
      (wide = false ∧ clocks = 8 ∧ bits = t.bits ++ [b])
        ∨ (wide = true ∧ clocks = 2 ∧ bits = t.bits ++ [x.value lanes.d3, x.value lanes.d2, x.value lanes.d1, b]) →
      (t.clocks + 1 < clocks → t.clock wide lanes set x
        = { t with clocks := t.clocks + 1, total := t.total + 1, bits := bits })
      ∧ ∀ opcode : Byte, t.clocks + 1 = clocks → bits.length = 8 →
        (∀ k, k < 8 → opcode.getLsbD k = bits.getD (7 - k) false) →
        ((∀ d ∈ set, d.opcode ≠ opcode) → t.clock wide lanes set x
          = { t with clocks := 0, total := t.total + 1, bits := [], phase := .generic, opcode := some opcode
                     unknown := true })
        ∧ ∀ d before after, set = before ++ d :: after → d.opcode = opcode → (∀ c ∈ before, c.opcode ≠ opcode) →
          ∃ (missing : Bool) (phase : TransferPhase), t.clock wide lanes set x
            = { t with clocks := 0, total := t.total + 1, bits := [], opcode := some opcode, descriptor := some d
                       lanesMissing := missing, phase := phase }
          ∧ phase = (if d.addressBytes ≠ 0 then .address else if d.hasMode then .mode
              else if d.dummy ≠ 0 then .dummy else if d.direction = .none then .surplus else .data)
          ∧ (missing = true ↔ (((phase = .address ∨ phase = .mode) ∧ d.addressWidth = 4)
              ∨ (phase = .data ∧ d.dataWidth = 4)) ∧ unbound))
    -- a wide command byte with an unbound lane
    ∧ (t.phase = .command → wide = true → t.lanesMissing = true →
      (t.clocks + 1 < 2 → t.clock wide lanes set x = { t with clocks := t.clocks + 1, total := t.total + 1 })
      ∧ (t.clocks + 1 = 2 → t.clock wide lanes set x
        = { t with clocks := 0, total := t.total + 1, bits := [], phase := .undecoded }))
    -- a phase that is not decoded
    ∧ (∀ (d : Descriptor) (width : Nat), t.descriptor = some d → t.lanesMissing = true →
      width = (if t.phase = .data then d.dataWidth else d.addressWidth) → width = 1 ∨ width = 2 ∨ width = 4 →
      (t.phase = .address →
        (width * (t.clocks + 1) < 8 * d.addressBytes → t.clock wide lanes set x
          = { t with clocks := t.clocks + 1, total := t.total + 1 })
        ∧ (width * (t.clocks + 1) = 8 * d.addressBytes → t.clock wide lanes set x = { t with
            clocks := 0, total := t.total + 1, bits := [], address := none
            phase := if d.hasMode then .mode else if d.dummy ≠ 0 then .dummy
              else if d.direction = .none then .surplus else .data }))
      ∧ (t.phase = .mode →
        (width * (t.clocks + 1) < 8 → t.clock wide lanes set x
          = { t with clocks := t.clocks + 1, total := t.total + 1 })
        ∧ (width * (t.clocks + 1) = 8 → t.clock wide lanes set x = { t with
            clocks := 0, total := t.total + 1, bits := [], modeByte := none
            phase := if d.dummy ≠ 0 then .dummy else if d.direction = .none then .surplus else .data }))
      ∧ (t.phase = .data → ∃ bits : List Bool, t.clock wide lanes set x
          = { t with clocks := t.clocks + 1, total := t.total + 1, bits := bits }))
    -- a decoded phase
    ∧ (∀ (d : Descriptor) (width : Nat) (bits : List Bool), t.descriptor = some d → t.lanesMissing = false →
      width = (if t.phase = .data then d.dataWidth else d.addressWidth) → width = 1 ∨ width = 2 ∨ width = 4 →
      bits = t.bits ++ (if width = 4 then [x.value lanes.d3, x.value lanes.d2, x.value lanes.d1, b]
        else if width = 2 then [x.value lanes.d1, b]
        else if t.phase = .data ∧ d.direction = .fromTarget then [x.value lanes.d1] else [b]) →
      (t.phase = .address →
        (width * (t.clocks + 1) < 8 * d.addressBytes → t.clock wide lanes set x
          = { t with clocks := t.clocks + 1, total := t.total + 1, bits })
        ∧ (width * (t.clocks + 1) = 8 * d.addressBytes → ∃ (phase : TransferPhase) (missing : Bool),
          t.clock wide lanes set x = { t with
            clocks := 0, total := t.total + 1, bits := [], address := some (bitsMsb bits), phase
            lanesMissing := missing }
          ∧ phase = (if d.hasMode then .mode else if d.dummy ≠ 0 then .dummy
              else if d.direction = .none then .surplus else .data)
          ∧ (missing = true ↔ ((phase = .mode ∧ d.addressWidth = 4) ∨ (phase = .data ∧ d.dataWidth = 4)) ∧ unbound)))
      ∧ (t.phase = .mode →
        (width * (t.clocks + 1) < 8 → t.clock wide lanes set x
          = { t with clocks := t.clocks + 1, total := t.total + 1, bits })
        ∧ (width * (t.clocks + 1) = 8 → ∃ (phase : TransferPhase) (missing : Bool),
          t.clock wide lanes set x = { t with
            clocks := 0, total := t.total + 1, bits := [], modeByte := some (BitVec.ofNat 8 (bitsMsb bits)), phase
            lanesMissing := missing }
          ∧ phase = (if d.dummy ≠ 0 then .dummy else if d.direction = .none then .surplus else .data)
          ∧ (missing = true ↔ phase = .data ∧ d.dataWidth = 4 ∧ unbound)))
      ∧ (t.phase = .data → t.clock wide lanes set x = { t with
          clocks := t.clocks + 1, total := t.total + 1
          bits := if width * (t.clocks + 1) % 8 = 0 then [] else bits
          bytes := if width * (t.clocks + 1) % 8 = 0 then t.bytes ++ [(BitVec.ofNat 8 (bitsMsb bits), x.stamp)]
            else t.bytes }))
    ∧ (∀ d, t.phase = .dummy → t.descriptor = some d →
      (t.clocks + 1 < d.dummy → t.clock wide lanes set x = { t with clocks := t.clocks + 1, total := t.total + 1 })
      ∧ (t.clocks + 1 = d.dummy → ∃ missing : Bool, t.clock wide lanes set x = { t with
          clocks := 0, total := t.total + 1, bits := [], lanesMissing := missing
          phase := if d.direction = .none then .surplus else .data }
        ∧ (missing = true ↔ t.lanesMissing = true ∨ (d.direction ≠ .none ∧ d.dataWidth = 4 ∧ unbound))))
    ∧ (t.phase = .surplus ∨ t.phase = .undecoded → t.clock wide lanes set x
        = { t with clocks := t.clocks + 1, total := t.total + 1 })
    ∧ (t.phase = .generic → t.lanesMissing = false → t.clock wide lanes set x = { t with
        clocks := t.clocks + 1, total := t.total + 1
        bits := if (t.clocks + 1) % 8 = 0 then [] else t.bits ++ [b]
        bytes := if (t.clocks + 1) % 8 = 0 then t.bytes ++ [(BitVec.ofNat 8 (bitsMsb (t.bits ++ [b])), x.stamp)]
          else t.bytes })
    ∧ (t.phase = .surplus ∨ (t.phase = .data ∧ ∃ d, t.descriptor = some d ∧ t.clocks % (8 / d.dataWidth) = 0
          ∧ (d.dataWidth = 1 ∨ d.dataWidth = 2 ∨ d.dataWidth = 4))
        ∨ (t.phase = .generic ∧ t.clocks % 8 = 0) → t.ending wide = .complete)
    ∧ (t.phase = .address ∨ t.phase = .mode ∨ t.phase = .dummy ∨ (t.phase = .command ∧ t.lanesMissing = false)
        ∨ (t.phase = .data ∧ ∃ d, t.descriptor = some d ∧ t.clocks % (8 / d.dataWidth) ≠ 0
          ∧ (d.dataWidth = 1 ∨ d.dataWidth = 2 ∨ d.dataWidth = 4))
        ∨ (t.phase = .generic ∧ t.clocks % 8 ≠ 0) → t.ending wide = .truncated)
    ∧ (t.phase = .undecoded ∨ (t.phase = .command ∧ t.lanesMissing = true) → t.ending wide = .undecided))
  -- the model
  ∧ ∀ (m : FlashModel) (s : FlashSettings) (t : Transfer) (endTick : Nat),
    (t.ending m.wide = .truncated →
      m.apply s t endTick = { model := { m with continuation := none }, flags := [(.truncated, true)] })
    ∧ (t.ending m.wide = .undecided → m.apply s t endTick = { model := m })
    ∧ (t.ending m.wide = .complete →
      (m.poweredDown = true → (∀ d, t.descriptor = some d → d.effect ≠ .powerUp) →
        m.apply s t endTick = { model := m, flags := [(.ignoredPoweredDown, true)] })
      ∧ (m.poweredDown = false → t.descriptor = none → m.apply s t endTick = { model := m })
      ∧ ∀ d, t.descriptor = some d → m.poweredDown = false ∨ d.effect = .powerUp →
        (m.busy = true → d.effect ≠ .statusRead →
          m.apply s t endTick = { model := m, flags := [(.whileBusy, true)] })
        ∧ ∀ v : FlashModel, m.busy = false ∨ d.effect = .statusRead →
          (∀ b, t.modeByte = some b → d.hasMode = true → b.extractLsb' 4 4 = d.continueCode →
            v = { m with continuation := some d }) →
          (t.modeByte = none ∨ d.hasMode = false ∨ (∃ b, t.modeByte = some b ∧ b.extractLsb' 4 4 ≠ d.continueCode) →
            v = { m with continuation := none }) →
          (d.effect = .enable → m.apply s t endTick = { model := { v with enable := true } })
          ∧ (d.effect = .disable → m.apply s t endTick = { model := { v with enable := false } })
          ∧ (d.effect = .programPage ∨ d.effect = .modify → m.apply s t endTick = if m.enable = true
              then { model := { v with busy := true, busySince := endTick } }
              else { model := v, flags := [(.withoutEnable, true)] })
          ∧ (d.effect = .wrapSet → t.bytes = [] → m.apply s t endTick = { model := v })
          ∧ (∀ b rest, d.effect = .wrapSet → t.bytes = b :: rest → m.apply s t endTick = { model := { v with
              wrap := if b.1.getLsbD 2 = true then some (8 * 2 ^ (b.1.toNat % 4)) else none } })
          ∧ (d.effect = .powerDown →
              m.apply s t endTick = { model := { v with poweredDown := true, continuation := none } })
          ∧ (d.effect = .powerUp → m.apply s t endTick = { model := { v with poweredDown := false } })
          ∧ (d.effect = .wideOn → m.apply s t endTick = { model := { v with wide := true } })
          ∧ (d.effect = .wideOff → m.apply s t endTick = { model := { v with wide := false } })
          ∧ (d.effect = .read ∨ d.effect = .other → m.apply s t endTick = { model := v })
          ∧ (d.effect = .statusRead → m.apply s t endTick =
              { model := (v.statusRead s t.bytes none).1, busyDuration := (v.statusRead s t.bytes none).2
                flags := [(.busyEnded, (v.statusRead s t.bytes none).2.isSome)] }))
    ∧ m.statusRead s [] none = (m, none)
    ∧ ∀ (b : Byte) (tick : Nat) (rest : List (Byte × Nat)) (fixed : Option Nat), m.statusRead s ((b, tick) :: rest) fixed
      = ({ m with
            busy := b.getLsbD s.busyBit, enable := b.getLsbD s.enableBit, lastStatus := some b
            busySince := if m.busy = false ∧ b.getLsbD s.busyBit = true then tick else m.busySince }
          : FlashModel).statusRead s rest
        (if m.busy = true ∧ b.getLsbD s.busyBit = false then some (fixed.getD (tick - m.busySince)) else fixed)

/-- R141 to R150: the two-wire engine: the first sample after a gap, line events by the values of two successive samples,
messages opened and ended, bits provisional at a clock rise and confirmed at a clock fall, nine bits to a byte, the
MESSAGE record with its acknowledge detail and flags, the address filter, clock stretch, the hold class and the free
origin; a stuck or free expiry at a sample comes before its line event. (Readings and choices of the model: the stretch is
what passes the larger of the nominal clock-low time and one sample step, R147 with section 2.2 of the scope file,
assumption log 28; stretch sum and data count are 0 once a message has ended, assumption log 48; the first sample after a
start, a gap or a resumption carries no line event, assumption log 52; a stuck expiry with no message open leaves the last
message stretch, assumption log 29; a clean message with no complete byte sets STRETCH_EXCESS above the limit, assumption
log 54; no hold class is kept in WAIT_FREE, assumption log 55.) -/
def Obligations.TwoWireEngineFollowsItsRules : Prop :=
  ∀ (e : TwoWireEngine) (s : TwoWireSettings) (lanes : Lanes) (ctx : CtxId) (x : Reading) (c d : Chan)
    (clock data : Bool), lanes.clock = some c → lanes.data = some d → clock = x.lines.getLsbD c.val →
    data = x.lines.getLsbD d.val →
    let opened := { e with state := .address, startTick := x.stamp, assembly := [], provisional := none, address := none
                           isRead := false, addressAck := false, bytes := [], stretch := 0, lastFall := none }
    let closed := { opened with state := .busFree, startTick := 0, lastStretch := e.stretch }
    let aborted := !e.assembly.isEmpty
    let out : List Emission := if passesFilter s.filter e.address then [.record (e.message s ctx x.stamp aborted false)]
      else [.suppressed]
    let held := fun (q : TwoWireEngine) =>
      if clock = false ∧ q.hold ≠ .clockLow then { q with hold := .clockLow, holdOrigin := x.stamp }
      else if clock = true ∧ data = false ∧ q.hold ≠ .dataLowClockHigh then
        { q with hold := .dataLowClockHigh, holdOrigin := x.stamp }
      else if clock = true ∧ data = true ∧ q.hold ≠ .none then { q with hold := .none, holdOrigin := x.stamp }
      else q
    let inMessage := e.state = .address ∨ e.state = .data
    let after := fun (q : TwoWireEngine) (o : List Emission) =>
      e.sample s lanes ctx x = ({ held q with clock, data }, o)
    -- the first sample
    (x.fresh = true → e.sample s lanes ctx x = ({ e with
      state := if clock = true ∧ data = true then .busFree else .waitFree, hold := .none, freeOrigin := none, clock
      data }, []))
    -- line events, with no timer that expires
    ∧ (x.fresh = false → e.state ≠ .waitFree → e.hold = .none ∨ x.stamp < e.holdOrigin + s.stuckLimit →
      (e.clock = true → clock = true → e.data = true → data = false →
        (e.state = .busFree → after opened [])
        ∧ (inMessage → after { opened with lastStretch := e.stretch } out))
      ∧ (e.clock = true → clock = true → e.data = false → data = true →
        (e.state = .busFree → after e []) ∧ (inMessage → after closed out))
      ∧ (e.clock = clock → e.data = data ∨ clock = false → after e [])
      ∧ (e.clock ≠ clock → e.state = .busFree → after e [])
      ∧ (e.clock = false → clock = true → inMessage →
        (e.lastFall = none → after { e with provisional := some data } [])
        ∧ ∀ fall, e.lastFall = some fall → after { e with
            provisional := some data, lastFall := none
            stretch := min (e.stretch + (x.stamp - fall - max s.clockLow x.step)) (2 ^ 32 - 1) } [])
      ∧ (e.clock = true → clock = false → inMessage →
        (e.provisional = none → after { e with lastFall := some x.stamp } [])
        ∧ ∀ b, e.provisional = some b →
          (e.assembly.length ≠ 8 → after { e with
            provisional := none, assembly := e.assembly ++ [b], lastFall := some x.stamp } [])
          ∧ (e.assembly.length = 8 → e.state = .address → ∃ a : BitVec 7,
            (∀ k, k < 7 → a.getLsbD k = e.assembly.getD (6 - k) false)
            ∧ after { e with
                provisional := none, assembly := [], state := .data, address := some a
                isRead := e.assembly.getD 7 false, addressAck := !b, lastFall := some x.stamp } [])
          ∧ (e.assembly.length = 8 → e.state = .data → ∃ v : Byte,
            (∀ k, k < 8 → v.getLsbD k = e.assembly.getD (7 - k) false)
            ∧ after { e with
                provisional := none, assembly := [], bytes := e.bytes ++ [(v, !b)], lastFall := some x.stamp } [])))
    -- waiting for the bus to be free
    ∧ (x.fresh = false → e.state = .waitFree →
      (∀ o, e.freeOrigin = some o → x.stamp < o + s.busFree) →
      e.sample s lanes ctx x = ({ e with
        freeOrigin := if clock = true ∧ data = true then some (e.freeOrigin.getD x.stamp) else none, clock, data }, []))
    -- a sample at which the stuck timer expires
    ∧ (x.fresh = false → e.state ≠ .waitFree → e.hold ≠ .none → e.holdOrigin + s.stuckLimit ≤ x.stamp →
      ∀ origin : Option Nat, origin = (if clock = true ∧ data = true then some x.stamp else none) →
      (inMessage → e.sample s lanes ctx x = ({ closed with
          state := .waitFree, hold := .none, freeOrigin := origin, clock, data },
        if passesFilter s.filter e.address then [.record (e.message s ctx x.stamp false true)] else [.suppressed]))
      ∧ (e.state = .busFree → ∃ r : Record, e.sample s lanes ctx x = ({ e with
          state := .waitFree, hold := .none, freeOrigin := origin, clock, data }, [.record r])
        ∧ r.context = ctx ∧ r.kind = .message ∧ r.startTick = e.holdOrigin ∧ r.endTick = x.stamp ∧ r.length = 0
        ∧ r.head = [] ∧ r.address = none ∧ r.isRead = none ∧ r.ack = none
        ∧ ∀ k, k < 32 → r.flags.getLsbD k = decide (k = 19)))
    -- a sample at which the free timer expires
    ∧ (∀ o, x.fresh = false → e.state = .waitFree → e.freeOrigin = some o → o + s.busFree ≤ x.stamp →
      (e.clock = true ∧ clock = true ∧ e.data = true ∧ data = false →
        after { opened with hold := .none, freeOrigin := none } [])
      ∧ (¬ (e.clock = true ∧ clock = true ∧ e.data = true ∧ data = false) →
        after { e with state := .busFree, hold := .none, freeOrigin := none } []))
    -- the record
    ∧ (∀ (endTick : Nat) (aborted stuck : Bool) (r : Record), r = e.message s ctx endTick aborted stuck →
      r.context = ctx ∧ r.kind = .message ∧ r.startTick = e.startTick ∧ r.endTick = endTick
      ∧ r.length = min e.bytes.length 65535 ∧ r.head = (e.bytes.take 4).map (·.1)
      ∧ r.address = e.address.map BitVec.toNat
      ∧ (e.address = none → r.isRead = none ∧ r.ack = none ∧ r.flags.getLsbD 16 = false)
      ∧ (e.address ≠ none → r.isRead = some e.isRead ∧ r.flags.getLsbD 16 = !e.addressAck
        ∧ ∃ (first : Option Nat) (last : Option Bool), r.ack = some ⟨e.addressAck, first, last⟩
          ∧ ((∀ b ∈ e.bytes, b.2 = true) → first = none)
          ∧ (∀ n, first = some n ↔ (∃ v, e.bytes[n]? = some (v, false)) ∧ ∀ k, k < n → ∃ v, e.bytes[k]? = some (v, true))
          ∧ (e.bytes = [] → last = none) ∧ (∀ b before, e.bytes = before ++ [b] → last = some b.2))
      ∧ (e.isRead = false → (r.flags.getLsbD 17 = true ↔ ∃ b ∈ e.bytes, b.2 = false))
      ∧ (e.isRead = true → ∀ b before, e.bytes = before ++ [b] →
          (r.flags.getLsbD 17 = true ↔ ∃ y ∈ before, y.2 = false))
      ∧ (r.flags.getLsbD 18 = true ↔ s.stretchLimit < e.stretch) ∧ r.flags.getLsbD 19 = stuck
      ∧ r.flags.getLsbD 20 = aborted)
    -- the filter
    ∧ ∀ (filter : List (BitVec 7 × BitVec 7)) (a : BitVec 7), passesFilter filter none = true
      ∧ passesFilter [] (some a) = true
      ∧ (filter ≠ [] → (passesFilter filter (some a) = true ↔ ∃ f ∈ filter, ∀ k, k < 7 → f.2.getLsbD k = true →
          a.getLsbD k = f.1.getLsbD k))

/-! ## The trigger sequencer -/

/-- R153, R154: MATCH_UNIT_SET and BRANCH_SET store what they carry unless the sequencer is RUNNING (BUSY) or a field is
out of range (BAD_PARAM); a time or count target of 0 becomes 1. (That BUSY is tested before the parameters is the model's
choice, assumption log 50: the rules give no order.) -/
def Obligations.TriggerProgrammingStoresOrRefuses : Prop :=
  (∀ (s : State) (unit : Byte) (params : UnitParams), s.admits →
    (s.trg.state = .running → exec (.matchUnitSet .enough unit params) s = .next (s.answered .busy))
    ∧ (s.trg.state ≠ .running →
      (16 ≤ unit.toNat ∨ acceptUnit params = none →
        exec (.matchUnitSet .enough unit params) s = .next (s.answered .badParam))
      ∧ ∀ (i : UnitId) (u : MatchUnit), unit.toNat = i.val → acceptUnit params = some u →
        exec (.matchUnitSet .enough unit params) s = .next ({ s with trg := { s.trg with
            units := s.trg.units.set i u, patterns := s.trg.patterns.set i {} } }.answered .ok)))
  ∧ (acceptUnit .disabled = some .disabled ∧ acceptUnit .unknown = none
    ∧ (∀ (b : Byte) d, 32 ≤ b.toNat → acceptUnit (.edge b d) = none)
    ∧ (∀ (b : Byte) d, 32 ≤ b.toNat → acceptUnit (.activity b d) = none)
    ∧ (∀ b, acceptUnit (.edge b none) = none ∧ acceptUnit (.activity b none) = none)
    ∧ (∀ (b : Byte) (c : Chan) d, b.toNat = c.val → acceptUnit (.edge b (some d)) = some (.edge c d))
    ∧ (∀ (b : Byte) (c : Chan) d, b.toNat = c.val → acceptUnit (.activity b (some d)) = some (.activity c d))
    ∧ (∀ mask value hold, acceptUnit (.pattern mask value hold) = some (.pattern mask value hold.toNat))
    ∧ (∀ compare, acceptUnit (.record .any compare) = some (.record none compare))
    ∧ (∀ (b : Byte) (c : CtxId) compare, b.toNat = c.val →
        acceptUnit (.record (.id b) compare) = some (.record (some c) compare))
    ∧ (∀ (b : Byte) compare, 16 ≤ b.toNat → acceptUnit (.record (.id b) compare) = none)
    ∧ ∀ time : BitVec 32, acceptUnit (.elapsed time) = some (.elapsed (if time = 0#32 then 1 else time.toNat)))
  ∧ ∀ (s : State) (stage branch : Byte) (p : BranchParams), s.admits →
    (s.trg.state = .running → exec (.branchSet .enough stage branch p) s = .next (s.answered .busy))
    ∧ (s.trg.state ≠ .running →
      (8 ≤ stage.toNat ∨ 4 ≤ branch.toNat ∨ 16 ≤ p.unit.toNat ∨ 8 ≤ p.next.toNat →
        exec (.branchSet .enough stage branch p) s = .next (s.answered .badParam))
      ∧ ∀ (i : StageId) (j : BranchId) (u : UnitId) (n : StageId), stage.toNat = i.val → branch.toNat = j.val →
        p.unit.toNat = u.val → p.next.toNat = n.val →
        exec (.branchSet .enough stage branch p) s = .next ({ s with trg := { s.trg with
            branches := s.trg.branches.set i (s.trg.branches[i].set j
              ⟨p.enabled, u, max p.target.toNat 1, n, p.fire, p.notice⟩)
            counters := s.trg.counters.set i (s.trg.counters[i].set j 0) } }.answered .ok))

/-- R155 to R157, R159 to R161, R163: TRIGGER_FORCE sends a FORCED fire while RUNNING; an expiring stage timer is an event
that every ELAPSED unit reached there matches, evaluated branch by branch; a held PATTERN unit raises; a conditioned sample
brings the PATTERN units to it and is one event that EDGE, ACTIVITY and raising PATTERN units match; where a stage timer
expires at it, the expiry is an event of its own before that one, evaluated against the stage it finds, and a fire it sends
leaves the sample event out; with a fire outstanding only the sequencer time moves. (That the two timer events are taken just ahead of the
sample that reaches them is the model's choice, assumption log 4, and so is that a unit out of match holds no match-since,
assumption log 51.) -/
def Obligations.ForcedFireAndTriggerEvents : Prop :=
  (∀ s : State, s.admits →
    (s.trg.state ≠ .running → exec .triggerForce s = .next (s.answered .wrongState))
    ∧ (s.trg.state = .running → exec .triggerForce s = .next ({ s with
        trg := { s.trg with outstanding := true, lastFire := some (s.lvl.count, true) }
        cap := { s.cap with fires := s.cap.fires ++ [Fire.mk s.lvl.count true true] } }.answered .accepted)))
  ∧ (∀ (s : State) (r : Run), s.pfe.run = some r → 24 ≤ r.taken → s.trg.state = .running → s.trg.outstanding = false →
    (∃ u, s.trg.reaches r.nextStamp u) →
    ∃ (t : State) (sent : List Fire) (notice : Bool), exec .stageTimerExpiry s = .next t
      ∧ t = { s with
          trg := t.trg
          cap := { s.cap with fires := s.cap.fires ++ sent }
          cmd := { s.cmd with
            pending := if notice then s.cmd.pending ||| BitVec.twoPow 14 2 else s.cmd.pending } }
      ∧ ({ s.trg with time := r.nextStamp } : Trg).takesEvent (s.trg.reaches r.nextStamp) r.nextStamp t.trg sent notice)
  ∧ (∀ (s : State) (x : Conditioned) (u : UnitId) (mask value : Lines) (hold since : Nat), s.pfe.nextSample = some x →
    s.trg.state = .running → s.trg.outstanding = false → s.trg.units[u] = .pattern mask value hold →
    x.lines &&& mask = value &&& mask → s.trg.patterns[u] = ⟨some since, false⟩ →
    since + hold ≤ x.stamp →
    (∀ (i : UnitId) n, s.trg.units[i] = .elapsed n →
      ¬ (s.trg.time < s.trg.entryTick + n ∧ s.trg.entryTick + n ≤ x.stamp)) →
    exec (.patternHoldExpiry u) s = .next { s with trg := { s.trg with
        patterns := s.trg.patterns.set u { since := some since, raised := true }, raiseDue := s.trg.raiseDue ++ [u] } })
  ∧ ∀ (s : State) (stamp : Nat) (lines changed : Lines) (activity : List (Chan × Activity)),
    (s.trg.state ≠ .running → s.triggerSample stamp lines changed activity = s)
    ∧ (s.trg.state = .running → s.trg.outstanding = true → s.triggerSample stamp lines changed activity
        = { s with trg := { s.trg with time := stamp, raiseDue := [] } })
    ∧ (s.trg.state = .running → s.trg.outstanding = false → (∀ u, ¬ s.trg.reaches stamp u) →
      ∃ (after : Trg) (sent : List Fire) (notice : Bool),
        ({ s.trg with time := stamp } : Trg).takesSample stamp lines changed activity after sent notice
        ∧ s.triggerSample stamp lines changed activity = { s with
            trg := after
            cap := { s.cap with fires := s.cap.fires ++ sent }
            cmd := { s.cmd with
              pending := if notice then s.cmd.pending ||| BitVec.twoPow 14 2 else s.cmd.pending } })
    ∧ (s.trg.state = .running → s.trg.outstanding = false → (∃ u, s.trg.reaches stamp u) →
      ∃ (timed after : Trg) (sent sent' : List Fire) (notice notice' : Bool),
        ({ s.trg with time := stamp } : Trg).takesEvent (s.trg.reaches stamp) stamp timed sent notice
        ∧ (timed.outstanding = true → after = { timed with raiseDue := [] } ∧ sent' = [] ∧ notice' = false)
        ∧ (timed.outstanding = false → timed.takesSample stamp lines changed activity after sent' notice')
        ∧ s.triggerSample stamp lines changed activity = { s with
            trg := after
            cap := { s.cap with fires := s.cap.fires ++ sent ++ sent' }
            cmd := { s.cmd with pending := if notice = true ∨ notice' = true
              then s.cmd.pending ||| BitVec.twoPow 14 2 else s.cmd.pending } })

/-- R158: a RECORD unit matches the records that pass every compare: context, kind, flags any, flags all, payload bytes
and address, a two-wire address compared in the mask's low seven bits. -/
def Obligations.RecordUnitMatchesByItsCompares : Prop :=
  ∀ (context : Option CtxId) (compare : RecordCompare) (r : Record),
    (MatchUnit.record context compare).matchesRecord r = true ↔
      (context = none ∨ context = some r.context)
      ∧ compare.kinds.getLsbD (recordKindCode r.kind) = true
      ∧ (compare.flagsAny = 0#32 ∨ ∃ k, k < 32 ∧ compare.flagsAny.getLsbD k = true ∧ r.flags.getLsbD k = true)
      ∧ (∀ k, k < 32 → compare.flagsAll.getLsbD k = true → r.flags.getLsbD k = true)
      ∧ (∀ p : Fin 4, compare.payloadMask[p] ≠ 0#8 → p.val < r.length
          ∧ ∀ k, k < 8 → compare.payloadMask[p].getLsbD k = true →
            (r.head.getD p.val 0#8).getLsbD k = compare.payloadValue[p].getLsbD k)
      ∧ (compare.addressMask = 0#32 ∨ ∃ a, r.address = some a
          ∧ ∀ k, k < (if r.kind = .message then 7 else 32) → compare.addressMask.getLsbD k = true →
              a.testBit k = compare.addressValue.getLsbD k)

/-! ## The display engine -/

/-- R167, R169, R170: VIEW_SET stores a view with its fields clamped or refuses it; REFRESH is answered by the first case
of its table, and a refresh that starts copies the staged view, takes a pin and fixes its horizons. -/
def Obligations.ViewSetAndRefresh : Prop :=
  (∀ (s : State) (p : ViewParams) (segment : Option SegId) (rows : List Row), s.admits →
    (∀ n, p.segment = some n → 8 ≤ n.toNat → exec (.viewSet .enough p) s = .next (s.answered .badParam))
    ∧ (12 < p.rows.length → exec (.viewSet .enough p) s = .next (s.answered .badParam))
    ∧ (∀ n : Byte, 32 ≤ n.toNat → .channel n ∈ p.rows → exec (.viewSet .enough p) s = .next (s.answered .badParam))
    ∧ (∀ n : Byte, 16 ≤ n.toNat → .annotation n ∈ p.rows →
        exec (.viewSet .enough p) s = .next (s.answered .badParam))
    ∧ (p.segment.map BitVec.toNat = segment.map Fin.val → rows.length ≤ 12 →
      List.Forall₂ (fun given row => (∃ (n : Byte) (c : Chan), given = .channel n ∧ row = .channel c ∧ n.toNat = c.val)
        ∨ ∃ (n : Byte) (c : CtxId), given = .annotation n ∧ row = .annotation c ∧ n.toNat = c.val) p.rows rows →
      exec (.viewSet .enough p) s = .next ({ s with dsp := { s.dsp with
          staged := ⟨segment, min p.start (2 ^ 48 - 1), min (max p.ticksPerColumn 1) (2 ^ 32 - 1), p.follow,
            rows⟩ } }.answered .ok)))
  ∧ ∀ s : State, s.admits →
    (s.lvl.level = .standby ∨ s.lvl.transition = .switching .standby →
      exec .refresh s = .next (s.answered .level))
    ∧ (s.lvl.level ≠ .standby → s.lvl.transition ≠ .switching .standby →
      (s.dsp.staged.segment = none → exec .refresh s = .next (s.answered .notFound))
      ∧ ∀ id, s.dsp.staged.segment = some id →
        (s.dsp.state ≠ .idle →
          exec .refresh s = .next ({ s with dsp := { s.dsp with pending := true } }.answered .accepted))
        ∧ (s.dsp.state = .idle →
            ¬ ((s.captures id ∨ s.cap.segments[id].state = .sealed) ∧ s.cap.segments[id].retirePending = false) →
          exec .refresh s = .next (s.answered .notFound))
        ∧ (s.dsp.state = .idle → s.captures id ∨ s.cap.segments[id].state = .sealed →
            s.cap.segments[id].retirePending = false → ∃ map : List CellRow,
          exec .refresh s = .next ({ s with
              cap := { s.cap with segments := (s.cap.segments.set id
                { s.cap.segments[id] with pins := s.cap.segments[id].pins + 1 }) }
              dsp := { s.dsp with
                active := { s.dsp.staged with start := (if s.dsp.staged.follow
                  then max s.cap.segments[id].firstRetainedTick
                    (s.cap.segments[id].lastTick - 400 * s.dsp.staged.ticksPerColumn)
                  else s.dsp.staged.start) }
                state := .reading, horizon := some s.cap.segments[id].lastTick
                annotationHorizon := some s.cap.segments[id].annotationsStored, nextColumn := 0
                cellMap := map } }.answered .accepted)
          ∧ map.length = s.dsp.staged.rows.length ∧ ∀ x ∈ map, x = {}))

/-- R170 to R175: REFRESH_COLUMN_READ forms the next column's cell in every row and begins the send after column 399. A
CHANNEL cell is NO_DATA, EDGE, LOW or HIGH by the line state over the column's known ticks, an ANNOTATION cell counts the
retained annotations that overlap the column, and one that overlaps 16 columns or more gives a label, at most 32 in a row.
REFRESH_SEND_COMPLETE ends the refresh DRAWN, releases its pin and starts, or does not draw, a pending refresh; one that starts copies the staged view with an empty map
and fixes its horizons. (The model's choices: a pending refresh is tested against the levels at the completion alone,
assumption log 56; the labels are formed with column 399, assumption log 19; a segment aborted under the refresh is served no
more, assumption log 17. That the ticks of an EXTEND before a DROPOUT belong to the dropout interval and are not known is read by
inference, assumption log 18. The last pin of a RETIRING segment is in the statement on deferred retires.) -/
def Obligations.RefreshReadsColumnsAndCompletes : Prop :=
  (∀ s : State, s.dsp.state = .reading → s.dsp.cellMap.length = s.dsp.active.rows.length →
    ∃ (map : List CellRow) (port : PortState), exec .refreshColumnRead s = .next { s with
        cap := { s.cap with port := port }
        dsp := { s.dsp with cellMap := map, nextColumn := s.dsp.nextColumn + 1
                            state := if 399 ≤ s.dsp.nextColumn then .sending else .reading } }
      ∧ map.length = s.dsp.cellMap.length
      ∧ (s.cap.port = .entering → s.nothingStaged → s.cap.read = none → 399 ≤ s.dsp.nextColumn → port = .selfRefresh)
      ∧ (¬ (s.cap.port = .entering ∧ s.nothingStaged ∧ s.cap.read = none ∧ 399 ≤ s.dsp.nextColumn) → port = s.cap.port)
      ∧ ∀ (k : Nat) (row : Row) (old : CellRow), s.dsp.active.rows[k]? = some row → s.dsp.cellMap[k]? = some old →
        ∃ (cell : Cell) (new : CellRow), map[k]? = some new ∧ new.cells = old.cells ++ [cell]
          ∧ (s.dsp.nextColumn ≠ 399 → new.labels = old.labels ∧ new.labelsDropped = old.labelsDropped)
          ∧ (s.dsp.nextColumn = 399 → new.labels.length ≤ 32)
          ∧ (∀ ch, row = .channel ch → (cell = .noData ∨ cell = .edge ∨ cell = .low ∨ cell = .high)
              ∧ (s.dsp.nextColumn = 399 → new.labels = [] ∧ new.labelsDropped = false)
              ∧ ∀ id, s.dsp.active.segment = some id → 1 ≤ s.dsp.active.ticksPerColumn →
                (s.cap.segments[id].discarded ≠ none
                  ∨ s.dsp.active.start + (s.dsp.nextColumn + 1) * s.dsp.active.ticksPerColumn
                      ≤ s.cap.segments[id].firstRetainedTick → cell = .noData)
                ∧ ∀ horizon page header, s.cap.segments[id].discarded = none → s.dsp.horizon = some horizon →
                  s.cap.segments[id].records.head = some page → header = servedHeader s.cap.served page →
                  cell = channelCell (knownPieces horizon header.baseTick header.baseState header.baseState
                      ((s.cap.retainedEntries s.cap.segments[id]).filter fun e => decide (e.tick ≤ horizon)))
                    (max (s.dsp.active.start + s.dsp.nextColumn * s.dsp.active.ticksPerColumn)
                      s.cap.segments[id].firstRetainedTick)
                    (min (s.dsp.active.start + (s.dsp.nextColumn + 1) * s.dsp.active.ticksPerColumn - 1) horizon) ch)
          ∧ ∀ ctx, row = .annotation ctx → (cell = .empty ∨ cell = .boxOne ∨ cell = .boxStart ∨ cell = .boxEnd
              ∨ cell = .boxBody ∨ cell = .dense)
              ∧ ∀ id, s.dsp.active.segment = some id →
                (s.cap.segments[id].discarded ≠ none → cell = .empty)
                ∧ ∀ (last : Nat) (drawn : List Annotation), s.cap.segments[id].discarded = none →
                  s.dsp.annotationHorizon = some last →
                  drawn = ((s.cap.retainedAnnotations s.cap.segments[id] last).map (·.2)).filter (fun a =>
                    decide (a.context = ctx)) →
                  cell = annotationCell drawn (s.dsp.active.start + s.dsp.nextColumn * s.dsp.active.ticksPerColumn)
                    (s.dsp.active.start + (s.dsp.nextColumn + 1) * s.dsp.active.ticksPerColumn - 1)
                  ∧ (s.dsp.nextColumn = 399 → new.labels = (drawn.filterMap s.dsp.active.labelOf).take 32
                    ∧ (new.labelsDropped = true ↔ 32 < (drawn.filterMap s.dsp.active.labelOf).length)))
  -- R172: the kinds of a CHANNEL cell
  ∧ (∀ (horizon base lo hi : Nat) (state : Lines) (entries : List ReadEntry) (ch : Chan) (cell : Cell) (edge : Prop),
    let known := fun u => lo ≤ u ∧ u ≤ hi ∧ ¬ inDropout base entries u
    let value := fun u => (stateInForce state entries u).getLsbD ch.val
    cell = channelCell (knownPieces horizon base state state entries) lo hi ch → base ≤ lo → hi ≤ horizon →
    (∀ e ∈ entries, e.setsState → base < e.tick ∧ e.tick ≤ horizon) →
    entries.Pairwise (fun e f => e.setsState → f.setsState → e.tick < f.tick) →
    (edge ↔ (∃ u v, known u ∧ known v ∧ value u ≠ value v)
      ∨ ∃ before e after, entries = before ++ e :: after ∧ e.setsState ∧ known e.tick
        ∧ e.state.getLsbD ch.val ≠ (stateInForce state before e.tick).getLsbD ch.val) →
    ((∀ u, ¬ known u) → cell = .noData) ∧ (edge → cell = .edge)
    ∧ (¬ edge → ∀ u, known u → cell = if value u then .high else .low))
  -- R173: the kinds of an ANNOTATION cell
  ∧ (∀ (annotations : List Annotation) (lo hi n : Nat) (cell : Cell),
    let overlaps := fun a : Annotation => a.startTick ≤ hi ∧ lo ≤ a.startTick + a.duration
    n = annotations.countP (fun a => decide (overlaps a)) → cell = annotationCell annotations lo hi →
    (n = 0 → cell = .empty) ∧ (2 ≤ n → cell = .dense)
    ∧ (n = 1 → ∀ a ∈ annotations, overlaps a → cell = if lo ≤ a.startTick
        then (if a.startTick + a.duration ≤ hi then .boxOne else .boxStart)
        else (if a.startTick + a.duration ≤ hi then .boxEnd else .boxBody)))
  -- R174: a label
  ∧ (∀ (v : View) (a : Annotation) (n : Nat), 1 ≤ v.ticksPerColumn →
    let overlaps := fun c => a.startTick < v.start + (c + 1) * v.ticksPerColumn
      ∧ v.start + c * v.ticksPerColumn ≤ a.startTick + a.duration
    n = (List.range 400).countP (fun c => decide (overlaps c)) →
    (n < 16 → v.labelOf a = none)
    ∧ (16 ≤ n → ∃ c, c < 400 ∧ overlaps c ∧ (∀ k, k < c → ¬ overlaps k)
      ∧ v.labelOf a = some ⟨c, a.kind, a.firstByte⟩))
  ∧ ∀ (s : State) (id : SegId), s.dsp.state = .sending → s.dsp.active.segment = some id →
    ¬ (s.cap.segments[id].state = .retiring ∧ s.cap.segments[id].pins ≤ 1) →
    ∃ segments : Vector Segment 8,
      segments = s.cap.segments.set id { s.cap.segments[id] with pins := s.cap.segments[id].pins - 1 }
      ∧ (s.dsp.pending = false → exec .refreshSendComplete s = .next { s with
          cap := { s.cap with segments := segments }
          dsp := { s.dsp with outcome := .drawn, state := .idle }
          cmd := { s.cmd with pending := s.cmd.pending ||| BitVec.twoPow 14 13 } })
      ∧ (s.dsp.pending = true →
        (s.lvl.level = .standby ∨ s.lvl.transition = .switching .standby ∨ s.dsp.staged.segment = none
            ∨ (∃ j, s.dsp.staged.segment = some j
              ∧ ¬ ((s.captures j ∨ s.cap.segments[j].state = .sealed)
                ∧ s.cap.segments[j].retirePending = false)) →
          exec .refreshSendComplete s = .next { s with
            cap := { s.cap with segments := segments }
            dsp := { s.dsp with outcome := .notDrawn, state := .idle, pending := false }
            cmd := { s.cmd with pending := s.cmd.pending ||| BitVec.twoPow 14 13 } })
        ∧ (s.lvl.level ≠ .standby → s.lvl.transition ≠ .switching .standby → ∀ j, s.dsp.staged.segment = some j →
            s.captures j ∨ s.cap.segments[j].state = .sealed → s.cap.segments[j].retirePending = false →
          ∃ map : List CellRow, exec .refreshSendComplete s = .next { s with
              cap := { s.cap with segments := segments.set j { segments[j] with pins := segments[j].pins + 1 } }
              dsp := { s.dsp with
                active := { s.dsp.staged with start := (if s.dsp.staged.follow
                  then max s.cap.segments[j].firstRetainedTick
                    (s.cap.segments[j].lastTick - 400 * s.dsp.staged.ticksPerColumn)
                  else s.dsp.staged.start) }
                state := .reading, pending := false, outcome := .drawn
                horizon := some s.cap.segments[j].lastTick
                annotationHorizon := some s.cap.segments[j].annotationsStored, nextColumn := 0, cellMap := map }
              cmd := { s.cmd with pending := s.cmd.pending ||| BitVec.twoPow 14 13 } }
            ∧ map.length = s.dsp.staged.rows.length ∧ ∀ x ∈ map, x = {}))
end

