-- ==== Sys2Proof/Laws/State.lean ====
section
/-! SUPPORT. Laws/State.lean: one lemma per block per update of the state, true by unfolding the update, so that no later
proof unfolds one. -/

namespace Sys2Proof.Machine

variable (s : State)

@[simp] theorem State.setPfe_pfe (x : Pfe) : (s.setPfe x).pfe = x := rfl
@[simp] theorem State.setPfe_lvl (x : Pfe) : (s.setPfe x).lvl = s.lvl := rfl
@[simp] theorem State.setPfe_cal (x : Pfe) : (s.setPfe x).cal = s.cal := rfl
@[simp] theorem State.setPfe_cap (x : Pfe) : (s.setPfe x).cap = s.cap := rfl
@[simp] theorem State.setPfe_dec (x : Pfe) : (s.setPfe x).dec = s.dec := rfl
@[simp] theorem State.setPfe_trg (x : Pfe) : (s.setPfe x).trg = s.trg := rfl
@[simp] theorem State.setPfe_dsp (x : Pfe) : (s.setPfe x).dsp = s.dsp := rfl
@[simp] theorem State.setPfe_cmd (x : Pfe) : (s.setPfe x).cmd = s.cmd := rfl
@[simp] theorem State.setPfe_pending (x : Pfe) : (s.setPfe x).pending = s.pending := rfl

@[simp] theorem State.setLvl_pfe (x : Lvl) : (s.setLvl x).pfe = s.pfe := rfl
@[simp] theorem State.setLvl_lvl (x : Lvl) : (s.setLvl x).lvl = x := rfl
@[simp] theorem State.setLvl_cal (x : Lvl) : (s.setLvl x).cal = s.cal := rfl
@[simp] theorem State.setLvl_cap (x : Lvl) : (s.setLvl x).cap = s.cap := rfl
@[simp] theorem State.setLvl_dec (x : Lvl) : (s.setLvl x).dec = s.dec := rfl
@[simp] theorem State.setLvl_trg (x : Lvl) : (s.setLvl x).trg = s.trg := rfl
@[simp] theorem State.setLvl_dsp (x : Lvl) : (s.setLvl x).dsp = s.dsp := rfl
@[simp] theorem State.setLvl_cmd (x : Lvl) : (s.setLvl x).cmd = s.cmd := rfl
@[simp] theorem State.setLvl_pending (x : Lvl) : (s.setLvl x).pending = s.pending := rfl

@[simp] theorem State.setCal_pfe (x : Cal) : (s.setCal x).pfe = s.pfe := rfl
@[simp] theorem State.setCal_lvl (x : Cal) : (s.setCal x).lvl = s.lvl := rfl
@[simp] theorem State.setCal_cal (x : Cal) : (s.setCal x).cal = x := rfl
@[simp] theorem State.setCal_cap (x : Cal) : (s.setCal x).cap = s.cap := rfl
@[simp] theorem State.setCal_dec (x : Cal) : (s.setCal x).dec = s.dec := rfl
@[simp] theorem State.setCal_trg (x : Cal) : (s.setCal x).trg = s.trg := rfl
@[simp] theorem State.setCal_dsp (x : Cal) : (s.setCal x).dsp = s.dsp := rfl
@[simp] theorem State.setCal_cmd (x : Cal) : (s.setCal x).cmd = s.cmd := rfl
@[simp] theorem State.setCal_pending (x : Cal) : (s.setCal x).pending = s.pending := rfl

@[simp] theorem State.setCap_pfe (x : Cap) : (s.setCap x).pfe = s.pfe := rfl
@[simp] theorem State.setCap_lvl (x : Cap) : (s.setCap x).lvl = s.lvl := rfl
@[simp] theorem State.setCap_cal (x : Cap) : (s.setCap x).cal = s.cal := rfl
@[simp] theorem State.setCap_cap (x : Cap) : (s.setCap x).cap = x := rfl
@[simp] theorem State.setCap_dec (x : Cap) : (s.setCap x).dec = s.dec := rfl
@[simp] theorem State.setCap_trg (x : Cap) : (s.setCap x).trg = s.trg := rfl
@[simp] theorem State.setCap_dsp (x : Cap) : (s.setCap x).dsp = s.dsp := rfl
@[simp] theorem State.setCap_cmd (x : Cap) : (s.setCap x).cmd = s.cmd := rfl
@[simp] theorem State.setCap_pending (x : Cap) : (s.setCap x).pending = s.pending := rfl

@[simp] theorem State.setDec_pfe (x : Dec) : (s.setDec x).pfe = s.pfe := rfl
@[simp] theorem State.setDec_lvl (x : Dec) : (s.setDec x).lvl = s.lvl := rfl
@[simp] theorem State.setDec_cal (x : Dec) : (s.setDec x).cal = s.cal := rfl
@[simp] theorem State.setDec_cap (x : Dec) : (s.setDec x).cap = s.cap := rfl
@[simp] theorem State.setDec_dec (x : Dec) : (s.setDec x).dec = x := rfl
@[simp] theorem State.setDec_trg (x : Dec) : (s.setDec x).trg = s.trg := rfl
@[simp] theorem State.setDec_dsp (x : Dec) : (s.setDec x).dsp = s.dsp := rfl
@[simp] theorem State.setDec_cmd (x : Dec) : (s.setDec x).cmd = s.cmd := rfl
@[simp] theorem State.setDec_pending (x : Dec) : (s.setDec x).pending = s.pending := rfl

@[simp] theorem State.setTrg_pfe (x : Trg) : (s.setTrg x).pfe = s.pfe := rfl
@[simp] theorem State.setTrg_lvl (x : Trg) : (s.setTrg x).lvl = s.lvl := rfl
@[simp] theorem State.setTrg_cal (x : Trg) : (s.setTrg x).cal = s.cal := rfl
@[simp] theorem State.setTrg_cap (x : Trg) : (s.setTrg x).cap = s.cap := rfl
@[simp] theorem State.setTrg_dec (x : Trg) : (s.setTrg x).dec = s.dec := rfl
@[simp] theorem State.setTrg_trg (x : Trg) : (s.setTrg x).trg = x := rfl
@[simp] theorem State.setTrg_dsp (x : Trg) : (s.setTrg x).dsp = s.dsp := rfl
@[simp] theorem State.setTrg_cmd (x : Trg) : (s.setTrg x).cmd = s.cmd := rfl
@[simp] theorem State.setTrg_pending (x : Trg) : (s.setTrg x).pending = s.pending := rfl

@[simp] theorem State.setDsp_pfe (x : Dsp) : (s.setDsp x).pfe = s.pfe := rfl
@[simp] theorem State.setDsp_lvl (x : Dsp) : (s.setDsp x).lvl = s.lvl := rfl
@[simp] theorem State.setDsp_cal (x : Dsp) : (s.setDsp x).cal = s.cal := rfl
@[simp] theorem State.setDsp_cap (x : Dsp) : (s.setDsp x).cap = s.cap := rfl
@[simp] theorem State.setDsp_dec (x : Dsp) : (s.setDsp x).dec = s.dec := rfl
@[simp] theorem State.setDsp_trg (x : Dsp) : (s.setDsp x).trg = s.trg := rfl
@[simp] theorem State.setDsp_dsp (x : Dsp) : (s.setDsp x).dsp = x := rfl
@[simp] theorem State.setDsp_cmd (x : Dsp) : (s.setDsp x).cmd = s.cmd := rfl
@[simp] theorem State.setDsp_pending (x : Dsp) : (s.setDsp x).pending = s.pending := rfl

@[simp] theorem State.setCmd_pfe (x : Cmd) : (s.setCmd x).pfe = s.pfe := rfl
@[simp] theorem State.setCmd_lvl (x : Cmd) : (s.setCmd x).lvl = s.lvl := rfl
@[simp] theorem State.setCmd_cal (x : Cmd) : (s.setCmd x).cal = s.cal := rfl
@[simp] theorem State.setCmd_cap (x : Cmd) : (s.setCmd x).cap = s.cap := rfl
@[simp] theorem State.setCmd_dec (x : Cmd) : (s.setCmd x).dec = s.dec := rfl
@[simp] theorem State.setCmd_trg (x : Cmd) : (s.setCmd x).trg = s.trg := rfl
@[simp] theorem State.setCmd_dsp (x : Cmd) : (s.setCmd x).dsp = s.dsp := rfl
@[simp] theorem State.setCmd_cmd (x : Cmd) : (s.setCmd x).cmd = x := rfl
@[simp] theorem State.setCmd_pending (x : Cmd) : (s.setCmd x).pending = s.pending := rfl

@[simp] theorem State.setPending_pfe (x : List Instr) : (s.setPending x).pfe = s.pfe := rfl
@[simp] theorem State.setPending_lvl (x : List Instr) : (s.setPending x).lvl = s.lvl := rfl
@[simp] theorem State.setPending_cal (x : List Instr) : (s.setPending x).cal = s.cal := rfl
@[simp] theorem State.setPending_cap (x : List Instr) : (s.setPending x).cap = s.cap := rfl
@[simp] theorem State.setPending_dec (x : List Instr) : (s.setPending x).dec = s.dec := rfl
@[simp] theorem State.setPending_trg (x : List Instr) : (s.setPending x).trg = s.trg := rfl
@[simp] theorem State.setPending_dsp (x : List Instr) : (s.setPending x).dsp = s.dsp := rfl
@[simp] theorem State.setPending_cmd (x : List Instr) : (s.setPending x).cmd = s.cmd := rfl
@[simp] theorem State.setPending_pending (x : List Instr) : (s.setPending x).pending = x := rfl

@[simp] theorem State.setSegment_pfe (i : SegId) (g : Segment) : (s.setSegment i g).pfe = s.pfe := rfl
@[simp] theorem State.setSegment_lvl (i : SegId) (g : Segment) : (s.setSegment i g).lvl = s.lvl := rfl
@[simp] theorem State.setSegment_cal (i : SegId) (g : Segment) : (s.setSegment i g).cal = s.cal := rfl
@[simp] theorem State.setSegment_dec (i : SegId) (g : Segment) : (s.setSegment i g).dec = s.dec := rfl
@[simp] theorem State.setSegment_trg (i : SegId) (g : Segment) : (s.setSegment i g).trg = s.trg := rfl
@[simp] theorem State.setSegment_dsp (i : SegId) (g : Segment) : (s.setSegment i g).dsp = s.dsp := rfl
@[simp] theorem State.setSegment_cmd (i : SegId) (g : Segment) : (s.setSegment i g).cmd = s.cmd := rfl
@[simp] theorem State.setSegment_pending (i : SegId) (g : Segment) : (s.setSegment i g).pending = s.pending := rfl

@[simp] theorem State.setContext_pfe (i : CtxId) (c : Context) : (s.setContext i c).pfe = s.pfe := rfl
@[simp] theorem State.setContext_lvl (i : CtxId) (c : Context) : (s.setContext i c).lvl = s.lvl := rfl
@[simp] theorem State.setContext_cal (i : CtxId) (c : Context) : (s.setContext i c).cal = s.cal := rfl
@[simp] theorem State.setContext_cap (i : CtxId) (c : Context) : (s.setContext i c).cap = s.cap := rfl
@[simp] theorem State.setContext_trg (i : CtxId) (c : Context) : (s.setContext i c).trg = s.trg := rfl
@[simp] theorem State.setContext_dsp (i : CtxId) (c : Context) : (s.setContext i c).dsp = s.dsp := rfl
@[simp] theorem State.setContext_cmd (i : CtxId) (c : Context) : (s.setContext i c).cmd = s.cmd := rfl
@[simp] theorem State.setContext_pending (i : CtxId) (c : Context) : (s.setContext i c).pending = s.pending := rfl

@[simp] theorem State.raise_pfe (n : Notice) : (s.raise n).pfe = s.pfe := rfl
@[simp] theorem State.raise_lvl (n : Notice) : (s.raise n).lvl = s.lvl := rfl
@[simp] theorem State.raise_cal (n : Notice) : (s.raise n).cal = s.cal := rfl
@[simp] theorem State.raise_cap (n : Notice) : (s.raise n).cap = s.cap := rfl
@[simp] theorem State.raise_dec (n : Notice) : (s.raise n).dec = s.dec := rfl
@[simp] theorem State.raise_trg (n : Notice) : (s.raise n).trg = s.trg := rfl
@[simp] theorem State.raise_dsp (n : Notice) : (s.raise n).dsp = s.dsp := rfl
@[simp] theorem State.raise_pending (n : Notice) : (s.raise n).pending = s.pending := rfl

@[simp] theorem State.respond_pfe (r : Response) : (s.respond r).pfe = s.pfe := rfl
@[simp] theorem State.respond_lvl (r : Response) : (s.respond r).lvl = s.lvl := rfl
@[simp] theorem State.respond_cal (r : Response) : (s.respond r).cal = s.cal := rfl
@[simp] theorem State.respond_cap (r : Response) : (s.respond r).cap = s.cap := rfl
@[simp] theorem State.respond_dec (r : Response) : (s.respond r).dec = s.dec := rfl
@[simp] theorem State.respond_trg (r : Response) : (s.respond r).trg = s.trg := rfl
@[simp] theorem State.respond_dsp (r : Response) : (s.respond r).dsp = s.dsp := rfl
@[simp] theorem State.respond_pending (r : Response) : (s.respond r).pending = s.pending := rfl

@[simp] theorem State.answered_pfe (st : Status) (d : ResponseData) : (s.answered st d).pfe = s.pfe := rfl
@[simp] theorem State.answered_lvl (st : Status) (d : ResponseData) : (s.answered st d).lvl = s.lvl := rfl
@[simp] theorem State.answered_cal (st : Status) (d : ResponseData) : (s.answered st d).cal = s.cal := rfl
@[simp] theorem State.answered_cap (st : Status) (d : ResponseData) : (s.answered st d).cap = s.cap := rfl
@[simp] theorem State.answered_dec (st : Status) (d : ResponseData) : (s.answered st d).dec = s.dec := rfl
@[simp] theorem State.answered_trg (st : Status) (d : ResponseData) : (s.answered st d).trg = s.trg := rfl
@[simp] theorem State.answered_dsp (st : Status) (d : ResponseData) : (s.answered st d).dsp = s.dsp := rfl
@[simp] theorem State.answered_pending (st : Status) (d : ResponseData) : (s.answered st d).pending = s.pending := rfl

@[simp] theorem State.noticed_pfe (k : Nat) : (s.noticed k).pfe = s.pfe := rfl
@[simp] theorem State.noticed_lvl (k : Nat) : (s.noticed k).lvl = s.lvl := rfl
@[simp] theorem State.noticed_cal (k : Nat) : (s.noticed k).cal = s.cal := rfl
@[simp] theorem State.noticed_cap (k : Nat) : (s.noticed k).cap = s.cap := rfl
@[simp] theorem State.noticed_dec (k : Nat) : (s.noticed k).dec = s.dec := rfl
@[simp] theorem State.noticed_trg (k : Nat) : (s.noticed k).trg = s.trg := rfl
@[simp] theorem State.noticed_dsp (k : Nat) : (s.noticed k).dsp = s.dsp := rfl
@[simp] theorem State.noticed_pending (k : Nat) : (s.noticed k).pending = s.pending := rfl

@[simp] theorem State.setSegment_dram (i : SegId) (g : Segment) : (s.setSegment i g).cap.dram = s.cap.dram := rfl
@[simp] theorem State.setSegment_pages (i : SegId) (g : Segment) : (s.setSegment i g).cap.pages = s.cap.pages := rfl
@[simp] theorem State.setSegment_staged (i : SegId) (g : Segment) : (s.setSegment i g).cap.staged = s.cap.staged := rfl
@[simp] theorem State.setSegment_stagedAnnotations (i : SegId) (g : Segment) :
    (s.setSegment i g).cap.stagedAnnotations = s.cap.stagedAnnotations := rfl
@[simp] theorem State.setSegment_encoder (i : SegId) (g : Segment) : (s.setSegment i g).cap.encoder = s.cap.encoder := rfl
@[simp] theorem State.setSegment_read (i : SegId) (g : Segment) : (s.setSegment i g).cap.read = s.cap.read := rfl
@[simp] theorem State.setSegment_pool (i : SegId) (g : Segment) :
    (s.setSegment i g).cap.pool = s.cap.pool := rfl
@[simp] theorem State.setSegment_poolThreshold (i : SegId) (g : Segment) :
    (s.setSegment i g).cap.poolThreshold = s.cap.poolThreshold := rfl
@[simp] theorem State.setSegment_poolArmed (i : SegId) (g : Segment) :
    (s.setSegment i g).cap.poolArmed = s.cap.poolArmed := rfl
@[simp] theorem State.setSegment_fires (i : SegId) (g : Segment) :
    (s.setSegment i g).cap.fires = s.cap.fires := rfl
@[simp] theorem State.setSegment_turn (i : SegId) (g : Segment) :
    (s.setSegment i g).cap.turn = s.cap.turn := rfl
@[simp] theorem State.setSegment_port (i : SegId) (g : Segment) :
    (s.setSegment i g).cap.port = s.cap.port := rfl
@[simp] theorem State.setSegment_segments (i : SegId) (g : Segment) :
    (s.setSegment i g).cap.segments = s.cap.segments.set i g := rfl
@[simp] theorem State.setContext_level (i : CtxId) (c : Context) : (s.setContext i c).dec.level = s.dec.level := rfl
@[simp] theorem State.setContext_gap (i : CtxId) (c : Context) : (s.setContext i c).dec.gap = s.dec.gap := rfl
@[simp] theorem State.setContext_setA (i : CtxId) (c : Context) : (s.setContext i c).dec.setA = s.dec.setA := rfl
@[simp] theorem State.setContext_setB (i : CtxId) (c : Context) : (s.setContext i c).dec.setB = s.dec.setB := rfl
@[simp] theorem State.setContext_queue (i : CtxId) (c : Context) : (s.setContext i c).dec.queue = s.dec.queue := rfl
@[simp] theorem State.setContext_isOpen (i : CtxId) (c : Context) : (s.setContext i c).dec.isOpen = s.dec.isOpen := rfl
@[simp] theorem State.setContext_lost (i : CtxId) (c : Context) : (s.setContext i c).dec.lost = s.dec.lost := rfl
@[simp] theorem State.setContext_span (i : CtxId) (c : Context) : (s.setContext i c).dec.span = s.dec.span := rfl
@[simp] theorem State.setContext_threshold (i : CtxId) (c : Context) : (s.setContext i c).dec.threshold = s.dec.threshold := rfl
@[simp] theorem State.setContext_armed (i : CtxId) (c : Context) : (s.setContext i c).dec.armed = s.dec.armed := rfl
@[simp] theorem State.setContext_path (i : CtxId) (c : Context) : (s.setContext i c).dec.path = s.dec.path := rfl
@[simp] theorem State.setContext_contexts (i : CtxId) (c : Context) :
    (s.setContext i c).dec.contexts = s.dec.contexts.set i c := rfl
@[simp] theorem State.raise_mask (n : Notice) : (s.raise n).cmd.mask = s.cmd.mask := rfl
@[simp] theorem State.raise_frame (n : Notice) : (s.raise n).cmd.frame = s.cmd.frame := rfl
@[simp] theorem State.raise_held (n : Notice) : (s.raise n).cmd.held = s.cmd.held := rfl
@[simp] theorem State.raise_response (n : Notice) : (s.raise n).cmd.response = s.cmd.response := rfl

/-- Raising a notice adds its kind and changes nothing else (R181). -/
theorem State.raise_eq_noticed (n : Notice) : s.raise n = s.noticed n.index := rfl

/-- A response formed is the response of the claims' vocabulary. -/
theorem State.respond_eq_answered (st : Status) (d : ResponseData) : s.respond ⟨st, d⟩ = s.answered st d := rfl

/-- The segment of a state with one segment replaced. -/
@[simp] theorem State.segment_setSegment (i j : SegId) (g : Segment) :
    (s.setSegment i g).segment j = if j = i then g else s.segment j := by
  simp only [State.segment, State.setSegment, State.setCap, Fin.getElem_fin, Vector.getElem_set, Fin.ext_iff]
  simp only [eq_comm]

/-- The context of a state with one context replaced. -/
@[simp] theorem State.context_setContext (i j : CtxId) (c : Context) :
    (s.setContext i c).context j = if j = i then c else s.context j := by
  simp only [State.context, State.setContext, State.setDec, Fin.getElem_fin, Vector.getElem_set, Fin.ext_iff]
  simp only [eq_comm]

end Sys2Proof.Machine
end

