-- ==== Sys2Proof/Laws/Frames.lean ====
section
/-! SUPPORT. Laws/Frames.lean: for each operation of capture memory, of the segments and of the sequencer, the blocks
and fields it leaves alone. -/

namespace Sys2Proof.Machine

variable (s : State)

@[simp] theorem State.raiseGlitch_frame (x : Lines) :
    (s.raiseGlitch x).pfe = s.pfe ∧ (s.raiseGlitch x).lvl = s.lvl ∧ (s.raiseGlitch x).cal = s.cal ∧
      (s.raiseGlitch x).cap = s.cap ∧ (s.raiseGlitch x).dec = s.dec ∧ (s.raiseGlitch x).trg = s.trg ∧
      (s.raiseGlitch x).dsp = s.dsp ∧ (s.raiseGlitch x).pending = s.pending ∧
      (s.raiseGlitch x).cmd.mask = s.cmd.mask ∧ (s.raiseGlitch x).cmd.frame = s.cmd.frame ∧
      (s.raiseGlitch x).cmd.response = s.cmd.response ∧ (s.raiseGlitch x).cmd.held = s.cmd.held := by
  unfold State.raiseGlitch; split <;> simp [State.setCmd, Cmd.raise]

@[simp] theorem State.raiseActivity_frame (x : Lines) :
    (s.raiseActivity x).pfe = s.pfe ∧ (s.raiseActivity x).lvl = s.lvl ∧ (s.raiseActivity x).cal = s.cal ∧
      (s.raiseActivity x).cap = s.cap ∧ (s.raiseActivity x).dec = s.dec ∧ (s.raiseActivity x).trg = s.trg ∧
      (s.raiseActivity x).dsp = s.dsp ∧ (s.raiseActivity x).pending = s.pending ∧
      (s.raiseActivity x).cmd.mask = s.cmd.mask ∧ (s.raiseActivity x).cmd.frame = s.cmd.frame ∧
      (s.raiseActivity x).cmd.response = s.cmd.response ∧ (s.raiseActivity x).cmd.held = s.cmd.held := by
  unfold State.raiseActivity; split <;> simp [State.setCmd, Cmd.raise]

@[simp] theorem State.raiseLock_frame (x : BitVec 16) :
    (s.raiseLock x).pfe = s.pfe ∧ (s.raiseLock x).lvl = s.lvl ∧ (s.raiseLock x).cal = s.cal ∧
      (s.raiseLock x).cap = s.cap ∧ (s.raiseLock x).dec = s.dec ∧ (s.raiseLock x).trg = s.trg ∧
      (s.raiseLock x).dsp = s.dsp ∧ (s.raiseLock x).pending = s.pending ∧ (s.raiseLock x).cmd.mask = s.cmd.mask ∧
      (s.raiseLock x).cmd.frame = s.cmd.frame ∧ (s.raiseLock x).cmd.response = s.cmd.response ∧
      (s.raiseLock x).cmd.held = s.cmd.held := by
  unfold State.raiseLock; split <;> simp [State.setCmd, Cmd.raise]

@[simp] theorem State.raiseError_frame (x : BitVec 16) :
    (s.raiseError x).pfe = s.pfe ∧ (s.raiseError x).lvl = s.lvl ∧ (s.raiseError x).cal = s.cal ∧
      (s.raiseError x).cap = s.cap ∧ (s.raiseError x).dec = s.dec ∧ (s.raiseError x).trg = s.trg ∧
      (s.raiseError x).dsp = s.dsp ∧ (s.raiseError x).pending = s.pending ∧ (s.raiseError x).cmd.mask = s.cmd.mask ∧
      (s.raiseError x).cmd.frame = s.cmd.frame ∧ (s.raiseError x).cmd.response = s.cmd.response ∧
      (s.raiseError x).cmd.held = s.cmd.held := by
  unfold State.raiseError; split <;> simp [State.setCmd, Cmd.raise]

@[simp] theorem State.sendFire_frame (t : Nat) (f : Bool) :
    (s.sendFire t f).pfe = s.pfe ∧ (s.sendFire t f).lvl = s.lvl ∧ (s.sendFire t f).cal = s.cal ∧
      (s.sendFire t f).dec = s.dec ∧ (s.sendFire t f).dsp = s.dsp ∧ (s.sendFire t f).cmd = s.cmd ∧
      (s.sendFire t f).pending = s.pending ∧ (s.sendFire t f).trg.units = s.trg.units ∧
      (s.sendFire t f).trg.branches = s.trg.branches ∧ (s.sendFire t f).trg.state = s.trg.state ∧
      (s.sendFire t f).cap.dram = s.cap.dram ∧ (s.sendFire t f).cap.poolThreshold = s.cap.poolThreshold ∧
      (s.sendFire t f).cap.segments = s.cap.segments ∧ (s.sendFire t f).cap.pages = s.cap.pages ∧
      (s.sendFire t f).cap.pool = s.cap.pool ∧ (s.sendFire t f).cap.staged = s.cap.staged ∧
      (s.sendFire t f).cap.stagedAnnotations = s.cap.stagedAnnotations ∧
      (s.sendFire t f).cap.encoder = s.cap.encoder ∧ (s.sendFire t f).cap.read = s.cap.read ∧
      (s.sendFire t f).cap.port = s.cap.port := by
  unfold State.sendFire; simp

@[simp] theorem State.branchActions_frame (b : Branch) (t : Nat) :
    (s.branchActions b t).pfe = s.pfe ∧ (s.branchActions b t).lvl = s.lvl ∧ (s.branchActions b t).cal = s.cal ∧
      (s.branchActions b t).dec = s.dec ∧ (s.branchActions b t).dsp = s.dsp ∧
      (s.branchActions b t).pending = s.pending ∧ (s.branchActions b t).trg.units = s.trg.units ∧
      (s.branchActions b t).trg.branches = s.trg.branches ∧ (s.branchActions b t).trg.state = s.trg.state ∧
      (s.branchActions b t).cap.dram = s.cap.dram ∧ (s.branchActions b t).cmd.mask = s.cmd.mask ∧
      (s.branchActions b t).cmd.frame = s.cmd.frame ∧ (s.branchActions b t).cmd.response = s.cmd.response ∧
      (s.branchActions b t).cmd.held = s.cmd.held ∧ (s.branchActions b t).cap.poolThreshold = s.cap.poolThreshold ∧
      (s.branchActions b t).cap.segments = s.cap.segments ∧ (s.branchActions b t).cap.pages = s.cap.pages ∧
      (s.branchActions b t).cap.pool = s.cap.pool ∧ (s.branchActions b t).cap.staged = s.cap.staged ∧
      (s.branchActions b t).cap.stagedAnnotations = s.cap.stagedAnnotations ∧
      (s.branchActions b t).cap.encoder = s.cap.encoder ∧ (s.branchActions b t).cap.read = s.cap.read ∧
      (s.branchActions b t).cap.port = s.cap.port := by
  unfold State.branchActions; repeat' split
  all_goals simp

@[simp] theorem State.evaluate_frame (m : UnitId → Bool) (t : Nat) :
    (s.evaluate m t).pfe = s.pfe ∧ (s.evaluate m t).lvl = s.lvl ∧ (s.evaluate m t).cal = s.cal ∧
      (s.evaluate m t).dec = s.dec ∧ (s.evaluate m t).dsp = s.dsp ∧ (s.evaluate m t).pending = s.pending ∧
      (s.evaluate m t).trg.units = s.trg.units ∧ (s.evaluate m t).trg.branches = s.trg.branches ∧
      (s.evaluate m t).trg.state = s.trg.state ∧ (s.evaluate m t).cap.dram = s.cap.dram ∧
      (s.evaluate m t).cmd.mask = s.cmd.mask ∧ (s.evaluate m t).cmd.frame = s.cmd.frame ∧
      (s.evaluate m t).cmd.response = s.cmd.response ∧ (s.evaluate m t).cmd.held = s.cmd.held ∧
      (s.evaluate m t).cap.poolThreshold = s.cap.poolThreshold ∧ (s.evaluate m t).cap.segments = s.cap.segments ∧
      (s.evaluate m t).cap.pages = s.cap.pages ∧ (s.evaluate m t).cap.pool = s.cap.pool ∧
      (s.evaluate m t).cap.staged = s.cap.staged ∧ (s.evaluate m t).cap.stagedAnnotations = s.cap.stagedAnnotations ∧
      (s.evaluate m t).cap.encoder = s.cap.encoder ∧ (s.evaluate m t).cap.read = s.cap.read ∧
      (s.evaluate m t).cap.port = s.cap.port := by
  unfold State.evaluate; split <;> simp [Trg.enterStage]

@[simp] theorem State.stageTimerAt_frame (t : Nat) :
    (s.stageTimerAt t).pfe = s.pfe ∧ (s.stageTimerAt t).lvl = s.lvl ∧ (s.stageTimerAt t).cal = s.cal ∧
      (s.stageTimerAt t).dec = s.dec ∧ (s.stageTimerAt t).dsp = s.dsp ∧ (s.stageTimerAt t).pending = s.pending ∧
      (s.stageTimerAt t).trg.units = s.trg.units ∧ (s.stageTimerAt t).trg.branches = s.trg.branches ∧
      (s.stageTimerAt t).trg.state = s.trg.state ∧ (s.stageTimerAt t).cap.dram = s.cap.dram ∧
      (s.stageTimerAt t).cmd.mask = s.cmd.mask ∧ (s.stageTimerAt t).cmd.frame = s.cmd.frame ∧
      (s.stageTimerAt t).cmd.response = s.cmd.response ∧ (s.stageTimerAt t).cmd.held = s.cmd.held ∧
      (s.stageTimerAt t).cap.poolThreshold = s.cap.poolThreshold ∧ (s.stageTimerAt t).cap.segments = s.cap.segments ∧
      (s.stageTimerAt t).cap.pages = s.cap.pages ∧ (s.stageTimerAt t).cap.pool = s.cap.pool ∧
      (s.stageTimerAt t).cap.staged = s.cap.staged ∧
      (s.stageTimerAt t).cap.stagedAnnotations = s.cap.stagedAnnotations ∧
      (s.stageTimerAt t).cap.encoder = s.cap.encoder ∧ (s.stageTimerAt t).cap.read = s.cap.read ∧
      (s.stageTimerAt t).cap.port = s.cap.port := by
  unfold State.stageTimerAt; dsimp only; split <;> simp

@[simp] theorem State.triggerSample_frame (t : Nat) (l c : Lines) (a : List (Chan × Activity)) :
    (s.triggerSample t l c a).pfe = s.pfe ∧ (s.triggerSample t l c a).lvl = s.lvl ∧
      (s.triggerSample t l c a).cal = s.cal ∧ (s.triggerSample t l c a).dec = s.dec ∧
      (s.triggerSample t l c a).dsp = s.dsp ∧ (s.triggerSample t l c a).pending = s.pending ∧
      (s.triggerSample t l c a).trg.units = s.trg.units ∧ (s.triggerSample t l c a).trg.branches = s.trg.branches ∧
      (s.triggerSample t l c a).trg.state = s.trg.state ∧ (s.triggerSample t l c a).cap.dram = s.cap.dram ∧
      (s.triggerSample t l c a).cmd.mask = s.cmd.mask ∧ (s.triggerSample t l c a).cmd.frame = s.cmd.frame ∧
      (s.triggerSample t l c a).cmd.response = s.cmd.response ∧ (s.triggerSample t l c a).cmd.held = s.cmd.held ∧
      (s.triggerSample t l c a).cap.poolThreshold = s.cap.poolThreshold ∧
      (s.triggerSample t l c a).cap.segments = s.cap.segments ∧ (s.triggerSample t l c a).cap.pages = s.cap.pages ∧
      (s.triggerSample t l c a).cap.pool = s.cap.pool ∧ (s.triggerSample t l c a).cap.staged = s.cap.staged ∧
      (s.triggerSample t l c a).cap.stagedAnnotations = s.cap.stagedAnnotations ∧
      (s.triggerSample t l c a).cap.encoder = s.cap.encoder ∧ (s.triggerSample t l c a).cap.read = s.cap.read ∧
      (s.triggerSample t l c a).cap.port = s.cap.port := by
  unfold State.triggerSample Trg.patternsAt; dsimp only; repeat' split
  all_goals simp

@[simp] theorem State.triggerRecord_frame (r : Record) :
    (s.triggerRecord r).pfe = s.pfe ∧ (s.triggerRecord r).lvl = s.lvl ∧ (s.triggerRecord r).cal = s.cal ∧
      (s.triggerRecord r).dec = s.dec ∧ (s.triggerRecord r).dsp = s.dsp ∧ (s.triggerRecord r).pending = s.pending ∧
      (s.triggerRecord r).trg.units = s.trg.units ∧ (s.triggerRecord r).trg.branches = s.trg.branches ∧
      (s.triggerRecord r).trg.state = s.trg.state ∧ (s.triggerRecord r).cap.dram = s.cap.dram ∧
      (s.triggerRecord r).cmd.mask = s.cmd.mask ∧ (s.triggerRecord r).cmd.frame = s.cmd.frame ∧
      (s.triggerRecord r).cmd.response = s.cmd.response ∧ (s.triggerRecord r).cmd.held = s.cmd.held ∧
      (s.triggerRecord r).cap.poolThreshold = s.cap.poolThreshold ∧
      (s.triggerRecord r).cap.segments = s.cap.segments ∧ (s.triggerRecord r).cap.pages = s.cap.pages ∧
      (s.triggerRecord r).cap.pool = s.cap.pool ∧ (s.triggerRecord r).cap.staged = s.cap.staged ∧
      (s.triggerRecord r).cap.stagedAnnotations = s.cap.stagedAnnotations ∧
      (s.triggerRecord r).cap.encoder = s.cap.encoder ∧ (s.triggerRecord r).cap.read = s.cap.read ∧
      (s.triggerRecord r).cap.port = s.cap.port := by
  unfold State.triggerRecord; repeat' split
  all_goals simp

@[simp] theorem State.checkPool_frame :
    (s.checkPool).pfe = s.pfe ∧ (s.checkPool).lvl = s.lvl ∧ (s.checkPool).cal = s.cal ∧ (s.checkPool).dec = s.dec ∧
      (s.checkPool).trg = s.trg ∧ (s.checkPool).dsp = s.dsp ∧ (s.checkPool).pending = s.pending ∧
      (s.checkPool).cap.dram = s.cap.dram ∧ (s.checkPool).cmd.mask = s.cmd.mask ∧
      (s.checkPool).cmd.frame = s.cmd.frame ∧ (s.checkPool).cmd.response = s.cmd.response ∧
      (s.checkPool).cmd.held = s.cmd.held ∧ (s.checkPool).cap.pages = s.cap.pages ∧
      (s.checkPool).cap.segments = s.cap.segments ∧ (s.checkPool).cap.staged = s.cap.staged ∧
      (s.checkPool).cap.stagedAnnotations = s.cap.stagedAnnotations ∧ (s.checkPool).cap.encoder = s.cap.encoder ∧
      (s.checkPool).cap.read = s.cap.read ∧ (s.checkPool).cap.fires = s.cap.fires ∧
      (s.checkPool).cap.poolThreshold = s.cap.poolThreshold ∧ (s.checkPool).cap.port = s.cap.port ∧
      (s.checkPool).cap.pool = s.cap.pool := by
  unfold State.checkPool; repeat' split
  all_goals simp

@[simp] theorem State.release_frame (c : Chain) :
    (s.release c).pfe = s.pfe ∧ (s.release c).lvl = s.lvl ∧ (s.release c).cal = s.cal ∧ (s.release c).dec = s.dec ∧
      (s.release c).trg = s.trg ∧ (s.release c).dsp = s.dsp ∧ (s.release c).pending = s.pending ∧
      (s.release c).cap.dram = s.cap.dram ∧ (s.release c).cmd.mask = s.cmd.mask ∧
      (s.release c).cmd.frame = s.cmd.frame ∧ (s.release c).cmd.response = s.cmd.response ∧
      (s.release c).cmd.held = s.cmd.held ∧ (s.release c).cap.segments = s.cap.segments ∧
      (s.release c).cap.staged = s.cap.staged ∧ (s.release c).cap.stagedAnnotations = s.cap.stagedAnnotations ∧
      (s.release c).cap.encoder = s.cap.encoder ∧ (s.release c).cap.read = s.cap.read ∧
      (s.release c).cap.fires = s.cap.fires ∧ (s.release c).cap.poolThreshold = s.cap.poolThreshold ∧
      (s.release c).cap.port = s.cap.port := by
  unfold State.release; dsimp only; split <;> simp

@[simp] theorem State.settlePort_frame :
    (s.settlePort).pfe = s.pfe ∧ (s.settlePort).lvl = s.lvl ∧ (s.settlePort).cal = s.cal ∧
      (s.settlePort).dec = s.dec ∧ (s.settlePort).trg = s.trg ∧ (s.settlePort).dsp = s.dsp ∧
      (s.settlePort).cmd = s.cmd ∧ (s.settlePort).pending = s.pending ∧ (s.settlePort).cap.dram = s.cap.dram ∧
      (s.settlePort).cap.segments = s.cap.segments ∧ (s.settlePort).cap.staged = s.cap.staged ∧
      (s.settlePort).cap.stagedAnnotations = s.cap.stagedAnnotations ∧ (s.settlePort).cap.encoder = s.cap.encoder ∧
      (s.settlePort).cap.read = s.cap.read ∧ (s.settlePort).cap.fires = s.cap.fires ∧
      (s.settlePort).cap.poolThreshold = s.cap.poolThreshold ∧ (s.settlePort).cap.pages = s.cap.pages ∧
      (s.settlePort).cap.pool = s.cap.pool := by
  unfold State.settlePort; repeat' split
  all_goals simp

@[simp] theorem State.vacate_frame (i : SegId) :
    (s.vacate i).pfe = s.pfe ∧ (s.vacate i).lvl = s.lvl ∧ (s.vacate i).cal = s.cal ∧ (s.vacate i).dec = s.dec ∧
      (s.vacate i).trg = s.trg ∧ (s.vacate i).dsp = s.dsp ∧ (s.vacate i).pending = s.pending ∧
      (s.vacate i).cap.dram = s.cap.dram ∧ (s.vacate i).cmd.mask = s.cmd.mask ∧
      (s.vacate i).cmd.frame = s.cmd.frame ∧ (s.vacate i).cmd.response = s.cmd.response ∧
      (s.vacate i).cmd.held = s.cmd.held ∧ (s.vacate i).cap.staged = s.cap.staged ∧
      (s.vacate i).cap.stagedAnnotations = s.cap.stagedAnnotations ∧ (s.vacate i).cap.encoder = s.cap.encoder ∧
      (s.vacate i).cap.read = s.cap.read ∧ (s.vacate i).cap.fires = s.cap.fires ∧
      (s.vacate i).cap.poolThreshold = s.cap.poolThreshold ∧ (s.vacate i).cap.port = s.cap.port := by
  unfold State.vacate; simp

@[simp] theorem State.retireNow_frame (i : SegId) :
    (s.retireNow i).pfe = s.pfe ∧ (s.retireNow i).lvl = s.lvl ∧ (s.retireNow i).cal = s.cal ∧
      (s.retireNow i).dec = s.dec ∧ (s.retireNow i).trg = s.trg ∧ (s.retireNow i).dsp = s.dsp ∧
      (s.retireNow i).pending = s.pending ∧ (s.retireNow i).cap.dram = s.cap.dram ∧
      (s.retireNow i).cmd.mask = s.cmd.mask ∧ (s.retireNow i).cmd.frame = s.cmd.frame ∧
      (s.retireNow i).cmd.response = s.cmd.response ∧ (s.retireNow i).cmd.held = s.cmd.held ∧
      (s.retireNow i).cap.staged = s.cap.staged ∧ (s.retireNow i).cap.stagedAnnotations = s.cap.stagedAnnotations ∧
      (s.retireNow i).cap.encoder = s.cap.encoder ∧ (s.retireNow i).cap.read = s.cap.read ∧
      (s.retireNow i).cap.fires = s.cap.fires ∧ (s.retireNow i).cap.poolThreshold = s.cap.poolThreshold ∧
      (s.retireNow i).cap.port = s.cap.port := by
  unfold State.retireNow; simp

@[simp] theorem State.completeSeal_frame (i : SegId) :
    (s.completeSeal i).pfe = s.pfe ∧ (s.completeSeal i).lvl = s.lvl ∧ (s.completeSeal i).cal = s.cal ∧
      (s.completeSeal i).dec = s.dec ∧ (s.completeSeal i).trg = s.trg ∧ (s.completeSeal i).dsp = s.dsp ∧
      (s.completeSeal i).pending = s.pending ∧ (s.completeSeal i).cap.dram = s.cap.dram ∧
      (s.completeSeal i).cmd.mask = s.cmd.mask ∧ (s.completeSeal i).cmd.frame = s.cmd.frame ∧
      (s.completeSeal i).cmd.response = s.cmd.response ∧ (s.completeSeal i).cmd.held = s.cmd.held ∧
      (s.completeSeal i).cap.staged = s.cap.staged ∧
      (s.completeSeal i).cap.stagedAnnotations = s.cap.stagedAnnotations ∧
      (s.completeSeal i).cap.encoder = s.cap.encoder ∧ (s.completeSeal i).cap.read = s.cap.read ∧
      (s.completeSeal i).cap.fires = s.cap.fires ∧ (s.completeSeal i).cap.poolThreshold = s.cap.poolThreshold ∧
      (s.completeSeal i).cap.port = s.cap.port := by
  unfold State.completeSeal; dsimp only; repeat' split
  all_goals simp

@[simp] theorem State.stopEncoder_frame (i : SegId) :
    (s.stopEncoder i).pfe = s.pfe ∧ (s.stopEncoder i).lvl = s.lvl ∧ (s.stopEncoder i).cal = s.cal ∧
      (s.stopEncoder i).dec = s.dec ∧ (s.stopEncoder i).trg = s.trg ∧ (s.stopEncoder i).dsp = s.dsp ∧
      (s.stopEncoder i).cmd = s.cmd ∧ (s.stopEncoder i).pending = s.pending ∧
      (s.stopEncoder i).cap.dram = s.cap.dram ∧ (s.stopEncoder i).cap.staged = s.cap.staged ∧
      (s.stopEncoder i).cap.stagedAnnotations = s.cap.stagedAnnotations ∧ (s.stopEncoder i).cap.read = s.cap.read ∧
      (s.stopEncoder i).cap.fires = s.cap.fires ∧ (s.stopEncoder i).cap.poolThreshold = s.cap.poolThreshold ∧
      (s.stopEncoder i).cap.port = s.cap.port ∧ (s.stopEncoder i).cap.pages = s.cap.pages ∧
      (s.stopEncoder i).cap.pool = s.cap.pool := by
  unfold State.stopEncoder; simp

@[simp] theorem State.sealSegment_frame (i : SegId) (r : SealReason) :
    (s.sealSegment i r).pfe = s.pfe ∧ (s.sealSegment i r).lvl = s.lvl ∧ (s.sealSegment i r).cal = s.cal ∧
      (s.sealSegment i r).dec = s.dec ∧ (s.sealSegment i r).dsp = s.dsp ∧ (s.sealSegment i r).pending = s.pending ∧
      (s.sealSegment i r).cap.dram = s.cap.dram ∧ (s.sealSegment i r).cmd.mask = s.cmd.mask ∧
      (s.sealSegment i r).cmd.frame = s.cmd.frame ∧ (s.sealSegment i r).cmd.response = s.cmd.response ∧
      (s.sealSegment i r).cmd.held = s.cmd.held ∧ (s.sealSegment i r).cap.staged = s.cap.staged ∧
      (s.sealSegment i r).cap.stagedAnnotations = s.cap.stagedAnnotations ∧
      (s.sealSegment i r).cap.read = s.cap.read ∧ (s.sealSegment i r).cap.fires = s.cap.fires ∧
      (s.sealSegment i r).cap.poolThreshold = s.cap.poolThreshold ∧ (s.sealSegment i r).cap.port = s.cap.port ∧
      (s.sealSegment i r).trg.units = s.trg.units ∧ (s.sealSegment i r).trg.branches = s.trg.branches := by
  unfold State.sealSegment; dsimp only; split <;> simp [Trg.halt]

@[simp] theorem State.sealIfComplete_frame (i : SegId) :
    (s.sealIfComplete i).pfe = s.pfe ∧ (s.sealIfComplete i).lvl = s.lvl ∧ (s.sealIfComplete i).cal = s.cal ∧
      (s.sealIfComplete i).dec = s.dec ∧ (s.sealIfComplete i).dsp = s.dsp ∧
      (s.sealIfComplete i).pending = s.pending ∧ (s.sealIfComplete i).cap.dram = s.cap.dram ∧
      (s.sealIfComplete i).cmd.mask = s.cmd.mask ∧ (s.sealIfComplete i).cmd.frame = s.cmd.frame ∧
      (s.sealIfComplete i).cmd.response = s.cmd.response ∧ (s.sealIfComplete i).cmd.held = s.cmd.held ∧
      (s.sealIfComplete i).cap.staged = s.cap.staged ∧
      (s.sealIfComplete i).cap.stagedAnnotations = s.cap.stagedAnnotations ∧
      (s.sealIfComplete i).cap.read = s.cap.read ∧ (s.sealIfComplete i).cap.fires = s.cap.fires ∧
      (s.sealIfComplete i).cap.poolThreshold = s.cap.poolThreshold ∧ (s.sealIfComplete i).cap.port = s.cap.port ∧
      (s.sealIfComplete i).trg.units = s.trg.units ∧ (s.sealIfComplete i).trg.branches = s.trg.branches := by
  unfold State.sealIfComplete; dsimp only; split <;> simp

@[simp] theorem State.unpin_frame (i : SegId) :
    (s.unpin i).pfe = s.pfe ∧ (s.unpin i).lvl = s.lvl ∧ (s.unpin i).cal = s.cal ∧ (s.unpin i).dec = s.dec ∧
      (s.unpin i).trg = s.trg ∧ (s.unpin i).dsp = s.dsp ∧ (s.unpin i).pending = s.pending ∧
      (s.unpin i).cap.dram = s.cap.dram ∧ (s.unpin i).cmd.mask = s.cmd.mask ∧ (s.unpin i).cmd.frame = s.cmd.frame ∧
      (s.unpin i).cmd.response = s.cmd.response ∧ (s.unpin i).cmd.held = s.cmd.held ∧
      (s.unpin i).cap.staged = s.cap.staged ∧ (s.unpin i).cap.stagedAnnotations = s.cap.stagedAnnotations ∧
      (s.unpin i).cap.encoder = s.cap.encoder ∧ (s.unpin i).cap.read = s.cap.read ∧
      (s.unpin i).cap.fires = s.cap.fires ∧ (s.unpin i).cap.poolThreshold = s.cap.poolThreshold ∧
      (s.unpin i).cap.port = s.cap.port := by
  unfold State.unpin; dsimp only; split <;> simp

@[simp] theorem State.pin_frame (i : SegId) :
    (s.pin i).pfe = s.pfe ∧ (s.pin i).lvl = s.lvl ∧ (s.pin i).cal = s.cal ∧ (s.pin i).dec = s.dec ∧
      (s.pin i).trg = s.trg ∧ (s.pin i).dsp = s.dsp ∧ (s.pin i).cmd = s.cmd ∧ (s.pin i).pending = s.pending ∧
      (s.pin i).cap.dram = s.cap.dram ∧ (s.pin i).cap.staged = s.cap.staged ∧
      (s.pin i).cap.stagedAnnotations = s.cap.stagedAnnotations ∧ (s.pin i).cap.encoder = s.cap.encoder ∧
      (s.pin i).cap.read = s.cap.read ∧ (s.pin i).cap.fires = s.cap.fires ∧
      (s.pin i).cap.poolThreshold = s.cap.poolThreshold ∧ (s.pin i).cap.port = s.cap.port ∧
      (s.pin i).cap.pages = s.cap.pages ∧ (s.pin i).cap.pool = s.cap.pool := by
  unfold State.pin; simp

@[simp] theorem State.dropAnnotation_frame (i : SegId) :
    (s.dropAnnotation i).pfe = s.pfe ∧ (s.dropAnnotation i).lvl = s.lvl ∧ (s.dropAnnotation i).cal = s.cal ∧
      (s.dropAnnotation i).dec = s.dec ∧ (s.dropAnnotation i).trg = s.trg ∧ (s.dropAnnotation i).dsp = s.dsp ∧
      (s.dropAnnotation i).cmd = s.cmd ∧ (s.dropAnnotation i).pending = s.pending ∧
      (s.dropAnnotation i).cap.dram = s.cap.dram ∧ (s.dropAnnotation i).cap.staged = s.cap.staged ∧
      (s.dropAnnotation i).cap.stagedAnnotations = s.cap.stagedAnnotations ∧
      (s.dropAnnotation i).cap.encoder = s.cap.encoder ∧ (s.dropAnnotation i).cap.read = s.cap.read ∧
      (s.dropAnnotation i).cap.fires = s.cap.fires ∧ (s.dropAnnotation i).cap.poolThreshold = s.cap.poolThreshold ∧
      (s.dropAnnotation i).cap.port = s.cap.port ∧ (s.dropAnnotation i).cap.pages = s.cap.pages ∧
      (s.dropAnnotation i).cap.pool = s.cap.pool := by
  unfold State.dropAnnotation; simp

@[simp] theorem State.placeAnnotation_frame (i : SegId) (a : Annotation) :
    (s.placeAnnotation i a).pfe = s.pfe ∧ (s.placeAnnotation i a).lvl = s.lvl ∧ (s.placeAnnotation i a).cal = s.cal ∧
      (s.placeAnnotation i a).dec = s.dec ∧ (s.placeAnnotation i a).trg = s.trg ∧
      (s.placeAnnotation i a).dsp = s.dsp ∧ (s.placeAnnotation i a).cmd = s.cmd ∧
      (s.placeAnnotation i a).pending = s.pending ∧ (s.placeAnnotation i a).cap.dram = s.cap.dram ∧
      (s.placeAnnotation i a).cap.staged = s.cap.staged ∧ (s.placeAnnotation i a).cap.encoder = s.cap.encoder ∧
      (s.placeAnnotation i a).cap.read = s.cap.read ∧ (s.placeAnnotation i a).cap.fires = s.cap.fires ∧
      (s.placeAnnotation i a).cap.poolThreshold = s.cap.poolThreshold ∧
      (s.placeAnnotation i a).cap.port = s.cap.port ∧ (s.placeAnnotation i a).cap.pages = s.cap.pages ∧
      (s.placeAnnotation i a).cap.pool = s.cap.pool := by
  unfold State.placeAnnotation; simp

/-- An allocation changes the page map, the pool and POOL_LOW alone. -/
theorem State.allocate_frame {s : State} {owner : PageOwner} {c : Chain} {r : State × Chain}
    (h : s.allocate owner c = some r) :
    r.1.pfe = s.pfe ∧ r.1.lvl = s.lvl ∧ r.1.cal = s.cal ∧ r.1.dec = s.dec ∧ r.1.trg = s.trg ∧ r.1.dsp = s.dsp ∧
      r.1.pending = s.pending ∧ r.1.cap.dram = s.cap.dram ∧ r.1.cmd.mask = s.cmd.mask ∧ r.1.cmd.frame = s.cmd.frame ∧
      r.1.cmd.response = s.cmd.response ∧ r.1.cmd.held = s.cmd.held ∧ r.1.cap.segments = s.cap.segments ∧
      r.1.cap.staged = s.cap.staged ∧ r.1.cap.stagedAnnotations = s.cap.stagedAnnotations ∧
      r.1.cap.encoder = s.cap.encoder ∧ r.1.cap.read = s.cap.read ∧ r.1.cap.fires = s.cap.fires ∧
      r.1.cap.poolThreshold = s.cap.poolThreshold ∧ r.1.cap.port = s.cap.port := by
  unfold State.allocate at h
  split at h
  · cases h
  · cases h
    simp

@[simp] theorem State.openRecordPage_frame (i : SegId) :
    (s.openRecordPage i).pfe = s.pfe ∧ (s.openRecordPage i).lvl = s.lvl ∧ (s.openRecordPage i).cal = s.cal ∧
      (s.openRecordPage i).dec = s.dec ∧ (s.openRecordPage i).trg = s.trg ∧ (s.openRecordPage i).dsp = s.dsp ∧
      (s.openRecordPage i).pending = s.pending ∧ (s.openRecordPage i).cap.dram = s.cap.dram ∧
      (s.openRecordPage i).cmd.mask = s.cmd.mask ∧ (s.openRecordPage i).cmd.frame = s.cmd.frame ∧
      (s.openRecordPage i).cmd.response = s.cmd.response ∧ (s.openRecordPage i).cmd.held = s.cmd.held ∧
      (s.openRecordPage i).cap.staged = s.cap.staged ∧
      (s.openRecordPage i).cap.stagedAnnotations = s.cap.stagedAnnotations ∧
      (s.openRecordPage i).cap.encoder = s.cap.encoder ∧ (s.openRecordPage i).cap.read = s.cap.read ∧
      (s.openRecordPage i).cap.fires = s.cap.fires ∧ (s.openRecordPage i).cap.poolThreshold = s.cap.poolThreshold ∧
      (s.openRecordPage i).cap.port = s.cap.port := by
  unfold State.openRecordPage
  dsimp only
  split
  · split
    · rename_i h
      have f := State.allocate_frame h
      simp only [State.setSegment_pfe, State.setSegment_lvl, State.setSegment_cal, State.setSegment_dec,
        State.setSegment_trg, State.setSegment_dsp, State.setSegment_cmd, State.setSegment_pending,
        State.setSegment_dram, State.setSegment_staged, State.setSegment_stagedAnnotations, State.setSegment_encoder,
        State.setSegment_read, State.setSegment_fires, State.setSegment_poolThreshold, State.setSegment_port]
      simp_all
    · simp
  · simp
  · simp

@[simp] theorem State.placeEntry_frame (i : SegId) (e : Entry) :
    (s.placeEntry i e).pfe = s.pfe ∧ (s.placeEntry i e).lvl = s.lvl ∧ (s.placeEntry i e).cal = s.cal ∧
      (s.placeEntry i e).dec = s.dec ∧ (s.placeEntry i e).trg = s.trg ∧ (s.placeEntry i e).dsp = s.dsp ∧
      (s.placeEntry i e).pending = s.pending ∧ (s.placeEntry i e).cap.dram = s.cap.dram ∧
      (s.placeEntry i e).cmd.mask = s.cmd.mask ∧ (s.placeEntry i e).cmd.frame = s.cmd.frame ∧
      (s.placeEntry i e).cmd.response = s.cmd.response ∧ (s.placeEntry i e).cmd.held = s.cmd.held ∧
      (s.placeEntry i e).cap.stagedAnnotations = s.cap.stagedAnnotations ∧ (s.placeEntry i e).cap.read = s.cap.read ∧
      (s.placeEntry i e).cap.fires = s.cap.fires ∧ (s.placeEntry i e).cap.poolThreshold = s.cap.poolThreshold ∧
      (s.placeEntry i e).cap.port = s.cap.port := by
  unfold State.placeEntry; dsimp only; split <;> simp

/-- Entries stored one after another. -/
@[simp] theorem State.placeEntries_frame (i : SegId) (es : List Entry) :
    (es.foldl (fun s e => s.placeEntry i e) s).pfe = s.pfe ∧ (es.foldl (fun s e => s.placeEntry i e) s).lvl = s.lvl ∧
      (es.foldl (fun s e => s.placeEntry i e) s).cal = s.cal ∧
      (es.foldl (fun s e => s.placeEntry i e) s).dec = s.dec ∧
      (es.foldl (fun s e => s.placeEntry i e) s).trg = s.trg ∧
      (es.foldl (fun s e => s.placeEntry i e) s).dsp = s.dsp ∧
      (es.foldl (fun s e => s.placeEntry i e) s).pending = s.pending ∧
      (es.foldl (fun s e => s.placeEntry i e) s).cap.dram = s.cap.dram ∧
      (es.foldl (fun s e => s.placeEntry i e) s).cmd.mask = s.cmd.mask ∧
      (es.foldl (fun s e => s.placeEntry i e) s).cmd.frame = s.cmd.frame ∧
      (es.foldl (fun s e => s.placeEntry i e) s).cmd.response = s.cmd.response ∧
      (es.foldl (fun s e => s.placeEntry i e) s).cmd.held = s.cmd.held ∧
      (es.foldl (fun s e => s.placeEntry i e) s).cap.stagedAnnotations = s.cap.stagedAnnotations ∧
      (es.foldl (fun s e => s.placeEntry i e) s).cap.read = s.cap.read ∧
      (es.foldl (fun s e => s.placeEntry i e) s).cap.fires = s.cap.fires ∧
      (es.foldl (fun s e => s.placeEntry i e) s).cap.poolThreshold = s.cap.poolThreshold ∧
      (es.foldl (fun s e => s.placeEntry i e) s).cap.port = s.cap.port := by
  induction es generalizing s with
  | nil => simp
  | cons e es ih => simp [ih]

/-- Entries stored, or a seal with nothing stored (R51). -/
theorem State.storeEntries_frame (i : SegId) (es : List Entry) (t : State) (b : Bool)
    (h : s.storeEntries i es = (t, b)) :
    t.pfe = s.pfe ∧ t.lvl = s.lvl ∧ t.cal = s.cal ∧ t.dec = s.dec ∧ t.dsp = s.dsp ∧ t.pending = s.pending ∧
      t.cap.dram = s.cap.dram ∧ t.cmd.mask = s.cmd.mask ∧ t.cmd.frame = s.cmd.frame ∧
      t.cmd.response = s.cmd.response ∧ t.cmd.held = s.cmd.held ∧ t.cap.stagedAnnotations = s.cap.stagedAnnotations ∧
      t.cap.read = s.cap.read ∧ t.cap.fires = s.cap.fires ∧ t.cap.poolThreshold = s.cap.poolThreshold ∧
      t.cap.port = s.cap.port ∧ t.trg.units = s.trg.units ∧ t.trg.branches = s.trg.branches := by
  unfold State.storeEntries at h
  dsimp only at h
  split at h
  · cases h; simp
  · cases h; simp

@[simp] theorem State.storeEntries_fst_frame (i : SegId) (es : List Entry) :
    (s.storeEntries i es).1.pfe = s.pfe ∧ (s.storeEntries i es).1.lvl = s.lvl ∧ (s.storeEntries i es).1.cal = s.cal ∧
      (s.storeEntries i es).1.dec = s.dec ∧ (s.storeEntries i es).1.dsp = s.dsp ∧
      (s.storeEntries i es).1.pending = s.pending ∧ (s.storeEntries i es).1.cap.dram = s.cap.dram ∧
      (s.storeEntries i es).1.cmd.mask = s.cmd.mask ∧ (s.storeEntries i es).1.cmd.frame = s.cmd.frame ∧
      (s.storeEntries i es).1.cmd.response = s.cmd.response ∧ (s.storeEntries i es).1.cmd.held = s.cmd.held ∧
      (s.storeEntries i es).1.cap.stagedAnnotations = s.cap.stagedAnnotations ∧
      (s.storeEntries i es).1.cap.read = s.cap.read ∧ (s.storeEntries i es).1.cap.fires = s.cap.fires ∧
      (s.storeEntries i es).1.cap.poolThreshold = s.cap.poolThreshold ∧
      (s.storeEntries i es).1.cap.port = s.cap.port ∧ (s.storeEntries i es).1.trg.units = s.trg.units ∧
      (s.storeEntries i es).1.trg.branches = s.trg.branches :=
  State.storeEntries_frame s i es _ _ rfl

@[simp] theorem State.encodeSample_frame (t : Nat) (l : Lines) :
    (s.encodeSample t l).pfe = s.pfe ∧ (s.encodeSample t l).lvl = s.lvl ∧ (s.encodeSample t l).cal = s.cal ∧
      (s.encodeSample t l).dec = s.dec ∧ (s.encodeSample t l).dsp = s.dsp ∧
      (s.encodeSample t l).pending = s.pending ∧ (s.encodeSample t l).cap.dram = s.cap.dram ∧
      (s.encodeSample t l).cmd.mask = s.cmd.mask ∧ (s.encodeSample t l).cmd.frame = s.cmd.frame ∧
      (s.encodeSample t l).cmd.response = s.cmd.response ∧ (s.encodeSample t l).cmd.held = s.cmd.held ∧
      (s.encodeSample t l).cap.stagedAnnotations = s.cap.stagedAnnotations ∧
      (s.encodeSample t l).cap.read = s.cap.read ∧ (s.encodeSample t l).cap.fires = s.cap.fires ∧
      (s.encodeSample t l).cap.poolThreshold = s.cap.poolThreshold ∧ (s.encodeSample t l).cap.port = s.cap.port ∧
      (s.encodeSample t l).trg.units = s.trg.units ∧ (s.encodeSample t l).trg.branches = s.trg.branches := by
  unfold State.encodeSample
  split
  · simp
  · dsimp only; repeat' split
    all_goals simp
  · split
    · simp
    · dsimp only
      split
      · rename_i x h
        have f := State.storeEntries_frame s _ _ _ _ h
        simp_all
      · rename_i x h
        have f := State.storeEntries_frame s _ _ _ _ h
        simp_all

@[simp] theorem State.writeAnnotation_frame (i : SegId) (r : Record) :
    (s.writeAnnotation i r).pfe = s.pfe ∧ (s.writeAnnotation i r).lvl = s.lvl ∧ (s.writeAnnotation i r).cal = s.cal ∧
      (s.writeAnnotation i r).dec = s.dec ∧ (s.writeAnnotation i r).trg = s.trg ∧
      (s.writeAnnotation i r).dsp = s.dsp ∧ (s.writeAnnotation i r).pending = s.pending ∧
      (s.writeAnnotation i r).cap.dram = s.cap.dram ∧ (s.writeAnnotation i r).cmd.mask = s.cmd.mask ∧
      (s.writeAnnotation i r).cmd.frame = s.cmd.frame ∧ (s.writeAnnotation i r).cmd.response = s.cmd.response ∧
      (s.writeAnnotation i r).cmd.held = s.cmd.held ∧ (s.writeAnnotation i r).cap.staged = s.cap.staged ∧
      (s.writeAnnotation i r).cap.encoder = s.cap.encoder ∧ (s.writeAnnotation i r).cap.read = s.cap.read ∧
      (s.writeAnnotation i r).cap.fires = s.cap.fires ∧
      (s.writeAnnotation i r).cap.poolThreshold = s.cap.poolThreshold ∧ (s.writeAnnotation i r).cap.port = s.cap.port := by
  unfold State.writeAnnotation
  dsimp only
  split
  · simp
  · split
    · split
      · simp
      · split
        · rename_i h
          have f := State.allocate_frame h
          simp_all
        · simp
      · simp
    · simp

@[simp] theorem State.acceptFire_frame (i : SegId) (f : Fire) :
    (s.acceptFire i f).pfe = s.pfe ∧ (s.acceptFire i f).lvl = s.lvl ∧ (s.acceptFire i f).cal = s.cal ∧
      (s.acceptFire i f).dec = s.dec ∧ (s.acceptFire i f).dsp = s.dsp ∧ (s.acceptFire i f).pending = s.pending ∧
      (s.acceptFire i f).cap.dram = s.cap.dram ∧ (s.acceptFire i f).cmd.mask = s.cmd.mask ∧
      (s.acceptFire i f).cmd.frame = s.cmd.frame ∧ (s.acceptFire i f).cmd.response = s.cmd.response ∧
      (s.acceptFire i f).cmd.held = s.cmd.held ∧ (s.acceptFire i f).cap.staged = s.cap.staged ∧
      (s.acceptFire i f).cap.stagedAnnotations = s.cap.stagedAnnotations ∧ (s.acceptFire i f).cap.read = s.cap.read ∧
      (s.acceptFire i f).cap.fires = s.cap.fires ∧ (s.acceptFire i f).cap.poolThreshold = s.cap.poolThreshold ∧
      (s.acceptFire i f).cap.port = s.cap.port ∧ (s.acceptFire i f).trg.units = s.trg.units ∧
      (s.acceptFire i f).trg.branches = s.trg.branches := by
  unfold State.acceptFire; simp [Trg.finish]

@[simp] theorem State.takeFire_frame (n : Nat) :
    (s.takeFire n).pfe = s.pfe ∧ (s.takeFire n).lvl = s.lvl ∧ (s.takeFire n).cal = s.cal ∧
      (s.takeFire n).dec = s.dec ∧ (s.takeFire n).dsp = s.dsp ∧ (s.takeFire n).pending = s.pending ∧
      (s.takeFire n).cap.dram = s.cap.dram ∧ (s.takeFire n).cmd.mask = s.cmd.mask ∧
      (s.takeFire n).cmd.frame = s.cmd.frame ∧ (s.takeFire n).cmd.response = s.cmd.response ∧
      (s.takeFire n).cmd.held = s.cmd.held ∧ (s.takeFire n).cap.staged = s.cap.staged ∧
      (s.takeFire n).cap.stagedAnnotations = s.cap.stagedAnnotations ∧ (s.takeFire n).cap.read = s.cap.read ∧
      (s.takeFire n).cap.poolThreshold = s.cap.poolThreshold ∧ (s.takeFire n).cap.port = s.cap.port ∧
      (s.takeFire n).trg.units = s.trg.units ∧ (s.takeFire n).trg.branches = s.trg.branches := by
  unfold State.takeFire
  split
  · simp
  · dsimp only
    split
    · split <;> simp
    · simp

@[simp] theorem State.drain_frame :
    (s.drain).pfe = s.pfe ∧ (s.drain).lvl = s.lvl ∧ (s.drain).cal = s.cal ∧ (s.drain).dec = s.dec ∧
      (s.drain).trg = s.trg ∧ (s.drain).dsp = s.dsp ∧ (s.drain).pending = s.pending ∧
      (s.drain).cmd.mask = s.cmd.mask ∧ (s.drain).cmd.frame = s.cmd.frame ∧ (s.drain).cmd.response = s.cmd.response ∧
      (s.drain).cmd.held = s.cmd.held := by
  unfold State.drain; dsimp only; repeat' split
  all_goals simp

@[simp] theorem State.beginCapture_frame (i : SegId) (a b : Chain) :
    (s.beginCapture i a b).pfe = s.pfe ∧ (s.beginCapture i a b).lvl = s.lvl ∧ (s.beginCapture i a b).cal = s.cal ∧
      (s.beginCapture i a b).dsp = s.dsp ∧ (s.beginCapture i a b).cmd = s.cmd ∧
      (s.beginCapture i a b).pending = s.pending ∧ (s.beginCapture i a b).cap.dram = s.cap.dram ∧
      (s.beginCapture i a b).cap.pages = s.cap.pages ∧ (s.beginCapture i a b).cap.pool = s.cap.pool ∧
      (s.beginCapture i a b).cap.stagedAnnotations = s.cap.stagedAnnotations ∧
      (s.beginCapture i a b).cap.read = s.cap.read ∧ (s.beginCapture i a b).cap.poolThreshold = s.cap.poolThreshold ∧
      (s.beginCapture i a b).cap.port = s.cap.port ∧ (s.beginCapture i a b).dec.contexts = s.dec.contexts ∧
      (s.beginCapture i a b).dec.queue = s.dec.queue ∧ (s.beginCapture i a b).dec.level = s.dec.level ∧
      (s.beginCapture i a b).dec.gap = s.dec.gap ∧ (s.beginCapture i a b).dec.setA = s.dec.setA ∧
      (s.beginCapture i a b).dec.setB = s.dec.setB ∧ (s.beginCapture i a b).dec.isOpen = s.dec.isOpen ∧
      (s.beginCapture i a b).dec.lost = s.dec.lost ∧ (s.beginCapture i a b).dec.span = s.dec.span ∧
      (s.beginCapture i a b).dec.threshold = s.dec.threshold ∧ (s.beginCapture i a b).dec.armed = s.dec.armed ∧
      (s.beginCapture i a b).trg.units = s.trg.units ∧ (s.beginCapture i a b).trg.branches = s.trg.branches := by
  unfold State.beginCapture; simp [Trg.start]

@[simp] theorem State.startCapture_frame (i : SegId) :
    (s.startCapture i).pfe = s.pfe ∧ (s.startCapture i).lvl = s.lvl ∧ (s.startCapture i).cal = s.cal ∧
      (s.startCapture i).dsp = s.dsp ∧ (s.startCapture i).pending = s.pending ∧
      (s.startCapture i).cap.dram = s.cap.dram ∧ (s.startCapture i).cmd.mask = s.cmd.mask ∧
      (s.startCapture i).cmd.frame = s.cmd.frame ∧ (s.startCapture i).cmd.response = s.cmd.response ∧
      (s.startCapture i).cmd.held = s.cmd.held ∧ (s.startCapture i).cap.read = s.cap.read ∧
      (s.startCapture i).cap.stagedAnnotations = s.cap.stagedAnnotations ∧
      (s.startCapture i).cap.poolThreshold = s.cap.poolThreshold ∧ (s.startCapture i).cap.port = s.cap.port ∧
      (s.startCapture i).dec.contexts = s.dec.contexts ∧ (s.startCapture i).dec.queue = s.dec.queue ∧
      (s.startCapture i).dec.level = s.dec.level ∧ (s.startCapture i).dec.gap = s.dec.gap ∧
      (s.startCapture i).dec.setA = s.dec.setA ∧ (s.startCapture i).dec.setB = s.dec.setB ∧
      (s.startCapture i).dec.isOpen = s.dec.isOpen ∧ (s.startCapture i).dec.lost = s.dec.lost ∧
      (s.startCapture i).dec.span = s.dec.span ∧ (s.startCapture i).dec.threshold = s.dec.threshold ∧
      (s.startCapture i).dec.armed = s.dec.armed ∧ (s.startCapture i).trg.units = s.trg.units ∧
      (s.startCapture i).trg.branches = s.trg.branches := by
  unfold State.startCapture
  split
  · simp
  · split
    · simp
    · rename_i h1 _ _ _ h2
      have f := State.allocate_frame h1
      have g := State.allocate_frame h2
      simp_all

end Sys2Proof.Machine
end

