-- ==== Sys2Proof/Laws/BlockFrames.lean ====
section
/-! SUPPORT. Laws/BlockFrames.lean: for each operation of the front end, the decoders, the display, calibration,
sampling, the reads and the port, the blocks and fields it leaves alone. -/

namespace Sys2Proof.Machine

variable (s : State)

@[simp] theorem State.countGlitches_frame (x : Lines) :
    (s.countGlitches x).lvl = s.lvl ∧ (s.countGlitches x).cal = s.cal ∧ (s.countGlitches x).cap = s.cap ∧
      (s.countGlitches x).dec = s.dec ∧ (s.countGlitches x).trg = s.trg ∧ (s.countGlitches x).dsp = s.dsp ∧
      (s.countGlitches x).pending = s.pending ∧ (s.countGlitches x).cmd.mask = s.cmd.mask ∧
      (s.countGlitches x).cmd.frame = s.cmd.frame ∧ (s.countGlitches x).cmd.response = s.cmd.response ∧
      (s.countGlitches x).cmd.held = s.cmd.held ∧ (s.countGlitches x).pfe.thresholds = s.pfe.thresholds ∧
      (s.countGlitches x).pfe.full = s.pfe.full ∧ (s.countGlitches x).pfe.economy = s.pfe.economy ∧
      (s.countGlitches x).pfe.active = s.pfe.active ∧ (s.countGlitches x).pfe.run = s.pfe.run ∧
      (s.countGlitches x).pfe.stamp = s.pfe.stamp ∧ (s.countGlitches x).pfe.lines = s.pfe.lines ∧
      (s.countGlitches x).pfe.filters = s.pfe.filters ∧ (s.countGlitches x).pfe.quietTime = s.pfe.quietTime ∧
      (s.countGlitches x).pfe.glitchThreshold = s.pfe.glitchThreshold := by
  unfold State.countGlitches; simp

@[simp] theorem State.setGlitchThreshold_frame (n : Nat) :
    (s.setGlitchThreshold n).lvl = s.lvl ∧ (s.setGlitchThreshold n).cal = s.cal ∧
      (s.setGlitchThreshold n).cap = s.cap ∧ (s.setGlitchThreshold n).dec = s.dec ∧
      (s.setGlitchThreshold n).trg = s.trg ∧ (s.setGlitchThreshold n).dsp = s.dsp ∧
      (s.setGlitchThreshold n).pending = s.pending ∧ (s.setGlitchThreshold n).cmd.mask = s.cmd.mask ∧
      (s.setGlitchThreshold n).cmd.frame = s.cmd.frame ∧ (s.setGlitchThreshold n).cmd.response = s.cmd.response ∧
      (s.setGlitchThreshold n).cmd.held = s.cmd.held ∧ (s.setGlitchThreshold n).pfe.thresholds = s.pfe.thresholds ∧
      (s.setGlitchThreshold n).pfe.full = s.pfe.full ∧ (s.setGlitchThreshold n).pfe.economy = s.pfe.economy ∧
      (s.setGlitchThreshold n).pfe.active = s.pfe.active ∧ (s.setGlitchThreshold n).pfe.run = s.pfe.run ∧
      (s.setGlitchThreshold n).pfe.stamp = s.pfe.stamp ∧ (s.setGlitchThreshold n).pfe.lines = s.pfe.lines ∧
      (s.setGlitchThreshold n).pfe.filters = s.pfe.filters ∧ (s.setGlitchThreshold n).pfe.quietTime = s.pfe.quietTime := by
  unfold State.setGlitchThreshold; simp

@[simp] theorem State.setQuietTime_frame (n : Nat) :
    (s.setQuietTime n).lvl = s.lvl ∧ (s.setQuietTime n).cal = s.cal ∧ (s.setQuietTime n).cap = s.cap ∧
      (s.setQuietTime n).dec = s.dec ∧ (s.setQuietTime n).trg = s.trg ∧ (s.setQuietTime n).dsp = s.dsp ∧
      (s.setQuietTime n).cmd = s.cmd ∧ (s.setQuietTime n).pending = s.pending ∧
      (s.setQuietTime n).pfe.thresholds = s.pfe.thresholds ∧ (s.setQuietTime n).pfe.full = s.pfe.full ∧
      (s.setQuietTime n).pfe.economy = s.pfe.economy ∧ (s.setQuietTime n).pfe.active = s.pfe.active ∧
      (s.setQuietTime n).pfe.run = s.pfe.run ∧ (s.setQuietTime n).pfe.stamp = s.pfe.stamp ∧
      (s.setQuietTime n).pfe.lines = s.pfe.lines ∧ (s.setQuietTime n).pfe.filters = s.pfe.filters ∧
      (s.setQuietTime n).pfe.glitchThreshold = s.pfe.glitchThreshold := by
  unfold State.setQuietTime; simp

@[simp] theorem State.quietExpiry_frame (c : Chan) :
    (s.quietExpiry c).lvl = s.lvl ∧ (s.quietExpiry c).cal = s.cal ∧ (s.quietExpiry c).cap = s.cap ∧
      (s.quietExpiry c).dec = s.dec ∧ (s.quietExpiry c).trg = s.trg ∧ (s.quietExpiry c).dsp = s.dsp ∧
      (s.quietExpiry c).pending = s.pending ∧ (s.quietExpiry c).cmd.mask = s.cmd.mask ∧
      (s.quietExpiry c).cmd.frame = s.cmd.frame ∧ (s.quietExpiry c).cmd.response = s.cmd.response ∧
      (s.quietExpiry c).cmd.held = s.cmd.held ∧ (s.quietExpiry c).pfe.thresholds = s.pfe.thresholds ∧
      (s.quietExpiry c).pfe.full = s.pfe.full ∧ (s.quietExpiry c).pfe.economy = s.pfe.economy ∧
      (s.quietExpiry c).pfe.active = s.pfe.active ∧ (s.quietExpiry c).pfe.run = s.pfe.run ∧
      (s.quietExpiry c).pfe.stamp = s.pfe.stamp ∧ (s.quietExpiry c).pfe.lines = s.pfe.lines ∧
      (s.quietExpiry c).pfe.filters = s.pfe.filters ∧ (s.quietExpiry c).pfe.quietTime = s.pfe.quietTime ∧
      (s.quietExpiry c).pfe.glitchThreshold = s.pfe.glitchThreshold := by
  unfold State.quietExpiry; repeat' split
  all_goals simp

@[simp] theorem State.monitorSample_frame (x : Conditioned) :
    (s.monitorSample x).1.lvl = s.lvl ∧ (s.monitorSample x).1.cal = s.cal ∧ (s.monitorSample x).1.cap = s.cap ∧
      (s.monitorSample x).1.dec = s.dec ∧ (s.monitorSample x).1.trg = s.trg ∧ (s.monitorSample x).1.dsp = s.dsp ∧
      (s.monitorSample x).1.pending = s.pending ∧ (s.monitorSample x).1.cmd.mask = s.cmd.mask ∧
      (s.monitorSample x).1.cmd.frame = s.cmd.frame ∧ (s.monitorSample x).1.cmd.response = s.cmd.response ∧
      (s.monitorSample x).1.cmd.held = s.cmd.held ∧ (s.monitorSample x).1.pfe.thresholds = s.pfe.thresholds ∧
      (s.monitorSample x).1.pfe.full = s.pfe.full ∧ (s.monitorSample x).1.pfe.economy = s.pfe.economy ∧
      (s.monitorSample x).1.pfe.active = s.pfe.active ∧ (s.monitorSample x).1.pfe.run = s.pfe.run ∧
      (s.monitorSample x).1.pfe.stamp = s.pfe.stamp ∧ (s.monitorSample x).1.pfe.lines = s.pfe.lines ∧
      (s.monitorSample x).1.pfe.filters = s.pfe.filters ∧ (s.monitorSample x).1.pfe.quietTime = s.pfe.quietTime ∧
      (s.monitorSample x).1.pfe.glitchThreshold = s.pfe.glitchThreshold := by
  unfold State.monitorSample; simp

@[simp] theorem State.enterPath_frame (r : List Record) :
    (s.enterPath r).pfe = s.pfe ∧ (s.enterPath r).lvl = s.lvl ∧ (s.enterPath r).cal = s.cal ∧
      (s.enterPath r).cap = s.cap ∧ (s.enterPath r).trg = s.trg ∧ (s.enterPath r).dsp = s.dsp ∧
      (s.enterPath r).cmd = s.cmd ∧ (s.enterPath r).pending = s.pending ∧ (s.enterPath r).dec.level = s.dec.level ∧
      (s.enterPath r).dec.gap = s.dec.gap ∧ (s.enterPath r).dec.setA = s.dec.setA ∧
      (s.enterPath r).dec.setB = s.dec.setB ∧ (s.enterPath r).dec.queue = s.dec.queue ∧
      (s.enterPath r).dec.isOpen = s.dec.isOpen ∧ (s.enterPath r).dec.lost = s.dec.lost ∧
      (s.enterPath r).dec.span = s.dec.span ∧ (s.enterPath r).dec.threshold = s.dec.threshold ∧
      (s.enterPath r).dec.armed = s.dec.armed ∧ (s.enterPath r).dec.contexts = s.dec.contexts := by
  unfold State.enterPath; split <;> simp

@[simp] theorem State.applyEmitted_frame (o : Vector Emitted 16) :
    (s.applyEmitted o).pfe = s.pfe ∧ (s.applyEmitted o).lvl = s.lvl ∧ (s.applyEmitted o).cal = s.cal ∧
      (s.applyEmitted o).cap = s.cap ∧ (s.applyEmitted o).trg = s.trg ∧ (s.applyEmitted o).dsp = s.dsp ∧
      (s.applyEmitted o).pending = s.pending ∧ (s.applyEmitted o).cmd.mask = s.cmd.mask ∧
      (s.applyEmitted o).cmd.frame = s.cmd.frame ∧ (s.applyEmitted o).cmd.response = s.cmd.response ∧
      (s.applyEmitted o).cmd.held = s.cmd.held ∧ (s.applyEmitted o).dec.level = s.dec.level ∧
      (s.applyEmitted o).dec.gap = s.dec.gap ∧ (s.applyEmitted o).dec.setA = s.dec.setA ∧
      (s.applyEmitted o).dec.setB = s.dec.setB ∧ (s.applyEmitted o).dec.queue = s.dec.queue ∧
      (s.applyEmitted o).dec.isOpen = s.dec.isOpen ∧ (s.applyEmitted o).dec.lost = s.dec.lost ∧
      (s.applyEmitted o).dec.span = s.dec.span ∧ (s.applyEmitted o).dec.threshold = s.dec.threshold ∧
      (s.applyEmitted o).dec.armed = s.dec.armed := by
  unfold State.applyEmitted; simp

@[simp] theorem State.decodeSample_frame (x : Conditioned) (k : Nat) :
    (s.decodeSample x k).pfe = s.pfe ∧ (s.decodeSample x k).lvl = s.lvl ∧ (s.decodeSample x k).cal = s.cal ∧
      (s.decodeSample x k).cap = s.cap ∧ (s.decodeSample x k).trg = s.trg ∧ (s.decodeSample x k).dsp = s.dsp ∧
      (s.decodeSample x k).pending = s.pending ∧ (s.decodeSample x k).cmd.mask = s.cmd.mask ∧
      (s.decodeSample x k).cmd.frame = s.cmd.frame ∧ (s.decodeSample x k).cmd.response = s.cmd.response ∧
      (s.decodeSample x k).cmd.held = s.cmd.held ∧ (s.decodeSample x k).dec.level = s.dec.level ∧
      (s.decodeSample x k).dec.gap = s.dec.gap ∧ (s.decodeSample x k).dec.setA = s.dec.setA ∧
      (s.decodeSample x k).dec.setB = s.dec.setB ∧ (s.decodeSample x k).dec.queue = s.dec.queue ∧
      (s.decodeSample x k).dec.isOpen = s.dec.isOpen ∧ (s.decodeSample x k).dec.lost = s.dec.lost ∧
      (s.decodeSample x k).dec.span = s.dec.span ∧ (s.decodeSample x k).dec.threshold = s.dec.threshold ∧
      (s.decodeSample x k).dec.armed = s.dec.armed := by
  unfold State.decodeSample; simp

@[simp] theorem State.checkQueue_frame :
    (s.checkQueue).pfe = s.pfe ∧ (s.checkQueue).lvl = s.lvl ∧ (s.checkQueue).cal = s.cal ∧
      (s.checkQueue).cap = s.cap ∧ (s.checkQueue).trg = s.trg ∧ (s.checkQueue).dsp = s.dsp ∧
      (s.checkQueue).pending = s.pending ∧ (s.checkQueue).cmd.mask = s.cmd.mask ∧
      (s.checkQueue).cmd.frame = s.cmd.frame ∧ (s.checkQueue).cmd.response = s.cmd.response ∧
      (s.checkQueue).cmd.held = s.cmd.held ∧ (s.checkQueue).dec.level = s.dec.level ∧
      (s.checkQueue).dec.gap = s.dec.gap ∧ (s.checkQueue).dec.setA = s.dec.setA ∧
      (s.checkQueue).dec.setB = s.dec.setB ∧ (s.checkQueue).dec.contexts = s.dec.contexts ∧
      (s.checkQueue).dec.path = s.dec.path ∧ (s.checkQueue).dec.threshold = s.dec.threshold ∧
      (s.checkQueue).dec.queue = s.dec.queue ∧ (s.checkQueue).dec.isOpen = s.dec.isOpen ∧
      (s.checkQueue).dec.lost = s.dec.lost ∧ (s.checkQueue).dec.span = s.dec.span := by
  unfold State.checkQueue; split
  · simp
  · split <;> simp

@[simp] theorem State.queuePush_frame (r : Record) :
    (s.queuePush r).pfe = s.pfe ∧ (s.queuePush r).lvl = s.lvl ∧ (s.queuePush r).cal = s.cal ∧
      (s.queuePush r).cap = s.cap ∧ (s.queuePush r).trg = s.trg ∧ (s.queuePush r).dsp = s.dsp ∧
      (s.queuePush r).pending = s.pending ∧ (s.queuePush r).cmd.mask = s.cmd.mask ∧
      (s.queuePush r).cmd.frame = s.cmd.frame ∧ (s.queuePush r).cmd.response = s.cmd.response ∧
      (s.queuePush r).cmd.held = s.cmd.held ∧ (s.queuePush r).dec.level = s.dec.level ∧
      (s.queuePush r).dec.gap = s.dec.gap ∧ (s.queuePush r).dec.setA = s.dec.setA ∧
      (s.queuePush r).dec.setB = s.dec.setB ∧ (s.queuePush r).dec.contexts = s.dec.contexts ∧
      (s.queuePush r).dec.path = s.dec.path ∧ (s.queuePush r).dec.threshold = s.dec.threshold ∧
      (s.queuePush r).dec.isOpen = s.dec.isOpen ∧ (s.queuePush r).dec.lost = s.dec.lost ∧
      (s.queuePush r).dec.span = s.dec.span := by
  unfold State.queuePush; simp

@[simp] theorem State.offerQueue_frame (r : Record) :
    (s.offerQueue r).pfe = s.pfe ∧ (s.offerQueue r).lvl = s.lvl ∧ (s.offerQueue r).cal = s.cal ∧
      (s.offerQueue r).cap = s.cap ∧ (s.offerQueue r).trg = s.trg ∧ (s.offerQueue r).dsp = s.dsp ∧
      (s.offerQueue r).pending = s.pending ∧ (s.offerQueue r).cmd.mask = s.cmd.mask ∧
      (s.offerQueue r).cmd.frame = s.cmd.frame ∧ (s.offerQueue r).cmd.response = s.cmd.response ∧
      (s.offerQueue r).cmd.held = s.cmd.held ∧ (s.offerQueue r).dec.level = s.dec.level ∧
      (s.offerQueue r).dec.gap = s.dec.gap ∧ (s.offerQueue r).dec.setA = s.dec.setA ∧
      (s.offerQueue r).dec.setB = s.dec.setB ∧ (s.offerQueue r).dec.contexts = s.dec.contexts ∧
      (s.offerQueue r).dec.path = s.dec.path ∧ (s.offerQueue r).dec.threshold = s.dec.threshold := by
  unfold State.offerQueue; split
  · split <;> simp
  · simp

@[simp] theorem State.offerWriter_frame (o : Option SegId) (r : Record) :
    (s.offerWriter o r).pfe = s.pfe ∧ (s.offerWriter o r).lvl = s.lvl ∧ (s.offerWriter o r).cal = s.cal ∧
      (s.offerWriter o r).dec = s.dec ∧ (s.offerWriter o r).trg = s.trg ∧ (s.offerWriter o r).dsp = s.dsp ∧
      (s.offerWriter o r).pending = s.pending ∧ (s.offerWriter o r).cap.dram = s.cap.dram ∧
      (s.offerWriter o r).cmd.mask = s.cmd.mask ∧ (s.offerWriter o r).cmd.frame = s.cmd.frame ∧
      (s.offerWriter o r).cmd.response = s.cmd.response ∧ (s.offerWriter o r).cmd.held = s.cmd.held ∧
      (s.offerWriter o r).cap.staged = s.cap.staged ∧ (s.offerWriter o r).cap.encoder = s.cap.encoder ∧
      (s.offerWriter o r).cap.read = s.cap.read ∧ (s.offerWriter o r).cap.fires = s.cap.fires ∧
      (s.offerWriter o r).cap.poolThreshold = s.cap.poolThreshold ∧ (s.offerWriter o r).cap.port = s.cap.port := by
  unfold State.offerWriter; split
  · split <;> simp
  · simp

@[simp] theorem State.deliver_frame (i : PathItem) :
    (s.deliver i).pfe = s.pfe ∧ (s.deliver i).lvl = s.lvl ∧ (s.deliver i).cal = s.cal ∧ (s.deliver i).dsp = s.dsp ∧
      (s.deliver i).pending = s.pending ∧ (s.deliver i).cap.dram = s.cap.dram ∧ (s.deliver i).cmd.mask = s.cmd.mask ∧
      (s.deliver i).cmd.frame = s.cmd.frame ∧ (s.deliver i).cmd.response = s.cmd.response ∧
      (s.deliver i).cmd.held = s.cmd.held ∧ (s.deliver i).cap.staged = s.cap.staged ∧
      (s.deliver i).cap.encoder = s.cap.encoder ∧ (s.deliver i).cap.read = s.cap.read ∧
      (s.deliver i).cap.poolThreshold = s.cap.poolThreshold ∧ (s.deliver i).cap.port = s.cap.port ∧
      (s.deliver i).dec.level = s.dec.level ∧ (s.deliver i).dec.gap = s.dec.gap ∧
      (s.deliver i).dec.setA = s.dec.setA ∧ (s.deliver i).dec.setB = s.dec.setB ∧
      (s.deliver i).dec.contexts = s.dec.contexts ∧ (s.deliver i).dec.path = s.dec.path ∧
      (s.deliver i).dec.threshold = s.dec.threshold ∧ (s.deliver i).trg.units = s.trg.units ∧
      (s.deliver i).trg.branches = s.trg.branches ∧ (s.deliver i).trg.state = s.trg.state := by
  unfold State.deliver; dsimp only; repeat' split
  all_goals simp

@[simp] theorem State.deliverNext_frame (i : CtxId) :
    (s.deliverNext i).pfe = s.pfe ∧ (s.deliverNext i).lvl = s.lvl ∧ (s.deliverNext i).cal = s.cal ∧
      (s.deliverNext i).dsp = s.dsp ∧ (s.deliverNext i).pending = s.pending ∧
      (s.deliverNext i).cap.dram = s.cap.dram ∧ (s.deliverNext i).cmd.mask = s.cmd.mask ∧
      (s.deliverNext i).cmd.frame = s.cmd.frame ∧ (s.deliverNext i).cmd.response = s.cmd.response ∧
      (s.deliverNext i).cmd.held = s.cmd.held ∧ (s.deliverNext i).cap.staged = s.cap.staged ∧
      (s.deliverNext i).cap.encoder = s.cap.encoder ∧ (s.deliverNext i).cap.read = s.cap.read ∧
      (s.deliverNext i).cap.poolThreshold = s.cap.poolThreshold ∧ (s.deliverNext i).cap.port = s.cap.port ∧
      (s.deliverNext i).dec.level = s.dec.level ∧ (s.deliverNext i).dec.gap = s.dec.gap ∧
      (s.deliverNext i).dec.setA = s.dec.setA ∧ (s.deliverNext i).dec.setB = s.dec.setB ∧
      (s.deliverNext i).dec.contexts = s.dec.contexts ∧ (s.deliverNext i).dec.threshold = s.dec.threshold ∧
      (s.deliverNext i).trg.units = s.trg.units ∧ (s.deliverNext i).trg.branches = s.trg.branches ∧
      (s.deliverNext i).trg.state = s.trg.state := by
  unfold State.deliverNext; split
  · simp
  · split <;> simp

@[simp] theorem State.gapBegin_frame :
    (s.gapBegin).pfe = s.pfe ∧ (s.gapBegin).lvl = s.lvl ∧ (s.gapBegin).cal = s.cal ∧ (s.gapBegin).cap = s.cap ∧
      (s.gapBegin).trg = s.trg ∧ (s.gapBegin).dsp = s.dsp ∧ (s.gapBegin).cmd = s.cmd ∧
      (s.gapBegin).pending = s.pending ∧ (s.gapBegin).dec.level = s.dec.level ∧ (s.gapBegin).dec.setA = s.dec.setA ∧
      (s.gapBegin).dec.setB = s.dec.setB ∧ (s.gapBegin).dec.queue = s.dec.queue ∧
      (s.gapBegin).dec.isOpen = s.dec.isOpen ∧ (s.gapBegin).dec.lost = s.dec.lost ∧
      (s.gapBegin).dec.span = s.dec.span ∧ (s.gapBegin).dec.threshold = s.dec.threshold ∧
      (s.gapBegin).dec.armed = s.dec.armed ∧ (s.gapBegin).dec.path = s.dec.path := by
  unfold State.gapBegin; simp

@[simp] theorem State.gapEnd_frame (l : Level) :
    (s.gapEnd l).pfe = s.pfe ∧ (s.gapEnd l).lvl = s.lvl ∧ (s.gapEnd l).cal = s.cal ∧ (s.gapEnd l).cap = s.cap ∧
      (s.gapEnd l).trg = s.trg ∧ (s.gapEnd l).dsp = s.dsp ∧ (s.gapEnd l).cmd = s.cmd ∧
      (s.gapEnd l).pending = s.pending ∧ (s.gapEnd l).dec.setA = s.dec.setA ∧ (s.gapEnd l).dec.setB = s.dec.setB ∧
      (s.gapEnd l).dec.queue = s.dec.queue ∧ (s.gapEnd l).dec.isOpen = s.dec.isOpen ∧
      (s.gapEnd l).dec.lost = s.dec.lost ∧ (s.gapEnd l).dec.span = s.dec.span ∧
      (s.gapEnd l).dec.threshold = s.dec.threshold ∧ (s.gapEnd l).dec.armed = s.dec.armed ∧
      (s.gapEnd l).dec.path = s.dec.path := by
  unfold State.gapEnd; simp

@[simp] theorem State.suspendContexts_frame :
    (s.suspendContexts).pfe = s.pfe ∧ (s.suspendContexts).lvl = s.lvl ∧ (s.suspendContexts).cal = s.cal ∧
      (s.suspendContexts).cap = s.cap ∧ (s.suspendContexts).trg = s.trg ∧ (s.suspendContexts).dsp = s.dsp ∧
      (s.suspendContexts).cmd = s.cmd ∧ (s.suspendContexts).pending = s.pending ∧
      (s.suspendContexts).dec.level = s.dec.level ∧ (s.suspendContexts).dec.setA = s.dec.setA ∧
      (s.suspendContexts).dec.setB = s.dec.setB ∧ (s.suspendContexts).dec.queue = s.dec.queue ∧
      (s.suspendContexts).dec.isOpen = s.dec.isOpen ∧ (s.suspendContexts).dec.lost = s.dec.lost ∧
      (s.suspendContexts).dec.span = s.dec.span ∧ (s.suspendContexts).dec.threshold = s.dec.threshold ∧
      (s.suspendContexts).dec.armed = s.dec.armed ∧ (s.suspendContexts).dec.path = s.dec.path ∧
      (s.suspendContexts).dec.gap = s.dec.gap := by
  unfold State.suspendContexts; simp

@[simp] theorem State.resumeContexts_frame :
    (s.resumeContexts).pfe = s.pfe ∧ (s.resumeContexts).lvl = s.lvl ∧ (s.resumeContexts).cal = s.cal ∧
      (s.resumeContexts).cap = s.cap ∧ (s.resumeContexts).trg = s.trg ∧ (s.resumeContexts).dsp = s.dsp ∧
      (s.resumeContexts).cmd = s.cmd ∧ (s.resumeContexts).pending = s.pending ∧
      (s.resumeContexts).dec.level = s.dec.level ∧ (s.resumeContexts).dec.setA = s.dec.setA ∧
      (s.resumeContexts).dec.setB = s.dec.setB ∧ (s.resumeContexts).dec.queue = s.dec.queue ∧
      (s.resumeContexts).dec.isOpen = s.dec.isOpen ∧ (s.resumeContexts).dec.lost = s.dec.lost ∧
      (s.resumeContexts).dec.span = s.dec.span ∧ (s.resumeContexts).dec.threshold = s.dec.threshold ∧
      (s.resumeContexts).dec.armed = s.dec.armed ∧ (s.resumeContexts).dec.path = s.dec.path ∧
      (s.resumeContexts).dec.gap = s.dec.gap := by
  unfold State.resumeContexts; simp

@[simp] theorem State.expireContext_frame (i : CtxId) (p : Protocol) (f : Context → Nat → Context × List Emission) :
    (s.expireContext i p f).pfe = s.pfe ∧ (s.expireContext i p f).lvl = s.lvl ∧ (s.expireContext i p f).cal = s.cal ∧
      (s.expireContext i p f).cap = s.cap ∧ (s.expireContext i p f).trg = s.trg ∧
      (s.expireContext i p f).dsp = s.dsp ∧ (s.expireContext i p f).pending = s.pending ∧
      (s.expireContext i p f).cmd.mask = s.cmd.mask ∧ (s.expireContext i p f).cmd.frame = s.cmd.frame ∧
      (s.expireContext i p f).cmd.response = s.cmd.response ∧ (s.expireContext i p f).cmd.held = s.cmd.held ∧
      (s.expireContext i p f).dec.level = s.dec.level ∧ (s.expireContext i p f).dec.gap = s.dec.gap ∧
      (s.expireContext i p f).dec.setA = s.dec.setA ∧ (s.expireContext i p f).dec.setB = s.dec.setB ∧
      (s.expireContext i p f).dec.queue = s.dec.queue ∧ (s.expireContext i p f).dec.isOpen = s.dec.isOpen ∧
      (s.expireContext i p f).dec.lost = s.dec.lost ∧ (s.expireContext i p f).dec.span = s.dec.span ∧
      (s.expireContext i p f).dec.threshold = s.dec.threshold ∧ (s.expireContext i p f).dec.armed = s.dec.armed := by
  unfold State.expireContext; split
  · simp
  · dsimp only
    split
    · split <;> simp
    · simp

@[simp] theorem State.dequeue_frame (n : Nat) :
    (s.dequeue n).pfe = s.pfe ∧ (s.dequeue n).lvl = s.lvl ∧ (s.dequeue n).cal = s.cal ∧ (s.dequeue n).cap = s.cap ∧
      (s.dequeue n).trg = s.trg ∧ (s.dequeue n).dsp = s.dsp ∧ (s.dequeue n).cmd = s.cmd ∧
      (s.dequeue n).pending = s.pending ∧ (s.dequeue n).dec.level = s.dec.level ∧ (s.dequeue n).dec.gap = s.dec.gap ∧
      (s.dequeue n).dec.setA = s.dec.setA ∧ (s.dequeue n).dec.setB = s.dec.setB ∧
      (s.dequeue n).dec.contexts = s.dec.contexts ∧ (s.dequeue n).dec.path = s.dec.path ∧
      (s.dequeue n).dec.threshold = s.dec.threshold ∧ (s.dequeue n).dec.isOpen = s.dec.isOpen ∧
      (s.dequeue n).dec.lost = s.dec.lost ∧ (s.dequeue n).dec.span = s.dec.span := by
  unfold State.dequeue; simp

@[simp] theorem State.acknowledgeGap_frame :
    (s.acknowledgeGap).pfe = s.pfe ∧ (s.acknowledgeGap).lvl = s.lvl ∧ (s.acknowledgeGap).cal = s.cal ∧
      (s.acknowledgeGap).cap = s.cap ∧ (s.acknowledgeGap).trg = s.trg ∧ (s.acknowledgeGap).dsp = s.dsp ∧
      (s.acknowledgeGap).pending = s.pending ∧ (s.acknowledgeGap).cmd.mask = s.cmd.mask ∧
      (s.acknowledgeGap).cmd.frame = s.cmd.frame ∧ (s.acknowledgeGap).cmd.response = s.cmd.response ∧
      (s.acknowledgeGap).cmd.held = s.cmd.held ∧ (s.acknowledgeGap).dec.level = s.dec.level ∧
      (s.acknowledgeGap).dec.gap = s.dec.gap ∧ (s.acknowledgeGap).dec.setA = s.dec.setA ∧
      (s.acknowledgeGap).dec.setB = s.dec.setB ∧ (s.acknowledgeGap).dec.contexts = s.dec.contexts ∧
      (s.acknowledgeGap).dec.path = s.dec.path ∧ (s.acknowledgeGap).dec.threshold = s.dec.threshold := by
  unfold State.acknowledgeGap; simp

@[simp] theorem State.readColumn_frame :
    (s.readColumn).pfe = s.pfe ∧ (s.readColumn).lvl = s.lvl ∧ (s.readColumn).cal = s.cal ∧
      (s.readColumn).dec = s.dec ∧ (s.readColumn).trg = s.trg ∧ (s.readColumn).cmd = s.cmd ∧
      (s.readColumn).pending = s.pending ∧ (s.readColumn).cap.dram = s.cap.dram ∧
      (s.readColumn).cap.staged = s.cap.staged ∧ (s.readColumn).cap.stagedAnnotations = s.cap.stagedAnnotations ∧
      (s.readColumn).cap.encoder = s.cap.encoder ∧ (s.readColumn).cap.read = s.cap.read ∧
      (s.readColumn).cap.fires = s.cap.fires ∧ (s.readColumn).cap.poolThreshold = s.cap.poolThreshold ∧
      (s.readColumn).cap.segments = s.cap.segments ∧ (s.readColumn).cap.pages = s.cap.pages ∧
      (s.readColumn).cap.pool = s.cap.pool ∧ (s.readColumn).dsp.staged = s.dsp.staged ∧
      (s.readColumn).dsp.active = s.dsp.active := by
  unfold State.readColumn; simp

@[simp] theorem State.startRefresh_frame (i : SegId) :
    (s.startRefresh i).pfe = s.pfe ∧ (s.startRefresh i).lvl = s.lvl ∧ (s.startRefresh i).cal = s.cal ∧
      (s.startRefresh i).dec = s.dec ∧ (s.startRefresh i).trg = s.trg ∧ (s.startRefresh i).cmd = s.cmd ∧
      (s.startRefresh i).pending = s.pending ∧ (s.startRefresh i).cap.dram = s.cap.dram ∧
      (s.startRefresh i).cap.staged = s.cap.staged ∧
      (s.startRefresh i).cap.stagedAnnotations = s.cap.stagedAnnotations ∧
      (s.startRefresh i).cap.encoder = s.cap.encoder ∧ (s.startRefresh i).cap.read = s.cap.read ∧
      (s.startRefresh i).cap.fires = s.cap.fires ∧ (s.startRefresh i).cap.poolThreshold = s.cap.poolThreshold ∧
      (s.startRefresh i).cap.port = s.cap.port ∧ (s.startRefresh i).dsp.staged = s.dsp.staged ∧
      (s.startRefresh i).dsp.pending = s.dsp.pending ∧ (s.startRefresh i).dsp.outcome = s.dsp.outcome := by
  unfold State.startRefresh; simp

@[simp] theorem State.notDrawn_frame :
    (s.notDrawn).pfe = s.pfe ∧ (s.notDrawn).lvl = s.lvl ∧ (s.notDrawn).cal = s.cal ∧ (s.notDrawn).cap = s.cap ∧
      (s.notDrawn).dec = s.dec ∧ (s.notDrawn).trg = s.trg ∧ (s.notDrawn).pending = s.pending ∧
      (s.notDrawn).cmd.mask = s.cmd.mask ∧ (s.notDrawn).cmd.frame = s.cmd.frame ∧
      (s.notDrawn).cmd.response = s.cmd.response ∧ (s.notDrawn).cmd.held = s.cmd.held ∧
      (s.notDrawn).dsp.staged = s.dsp.staged ∧ (s.notDrawn).dsp.active = s.dsp.active ∧
      (s.notDrawn).dsp.state = s.dsp.state := by
  unfold State.notDrawn; simp

@[simp] theorem State.startPendingRefresh_frame :
    (s.startPendingRefresh).pfe = s.pfe ∧ (s.startPendingRefresh).lvl = s.lvl ∧ (s.startPendingRefresh).cal = s.cal ∧
      (s.startPendingRefresh).dec = s.dec ∧ (s.startPendingRefresh).trg = s.trg ∧
      (s.startPendingRefresh).pending = s.pending ∧ (s.startPendingRefresh).cmd.mask = s.cmd.mask ∧
      (s.startPendingRefresh).cmd.frame = s.cmd.frame ∧ (s.startPendingRefresh).cmd.response = s.cmd.response ∧
      (s.startPendingRefresh).cmd.held = s.cmd.held ∧ (s.startPendingRefresh).cap.dram = s.cap.dram ∧
      (s.startPendingRefresh).cap.staged = s.cap.staged ∧
      (s.startPendingRefresh).cap.stagedAnnotations = s.cap.stagedAnnotations ∧
      (s.startPendingRefresh).cap.encoder = s.cap.encoder ∧ (s.startPendingRefresh).cap.read = s.cap.read ∧
      (s.startPendingRefresh).cap.fires = s.cap.fires ∧
      (s.startPendingRefresh).cap.poolThreshold = s.cap.poolThreshold ∧
      (s.startPendingRefresh).cap.port = s.cap.port ∧ (s.startPendingRefresh).dsp.staged = s.dsp.staged := by
  unfold State.startPendingRefresh; repeat' split
  all_goals simp

@[simp] theorem State.completeRefresh_frame :
    (s.completeRefresh).pfe = s.pfe ∧ (s.completeRefresh).lvl = s.lvl ∧ (s.completeRefresh).cal = s.cal ∧
      (s.completeRefresh).dec = s.dec ∧ (s.completeRefresh).trg = s.trg ∧ (s.completeRefresh).pending = s.pending ∧
      (s.completeRefresh).cmd.mask = s.cmd.mask ∧ (s.completeRefresh).cmd.frame = s.cmd.frame ∧
      (s.completeRefresh).cmd.response = s.cmd.response ∧ (s.completeRefresh).cmd.held = s.cmd.held ∧
      (s.completeRefresh).cap.dram = s.cap.dram ∧ (s.completeRefresh).cap.staged = s.cap.staged ∧
      (s.completeRefresh).cap.stagedAnnotations = s.cap.stagedAnnotations ∧
      (s.completeRefresh).cap.encoder = s.cap.encoder ∧ (s.completeRefresh).cap.read = s.cap.read ∧
      (s.completeRefresh).cap.fires = s.cap.fires ∧ (s.completeRefresh).cap.poolThreshold = s.cap.poolThreshold ∧
      (s.completeRefresh).cap.port = s.cap.port ∧ (s.completeRefresh).dsp.staged = s.dsp.staged := by
  unfold State.completeRefresh; dsimp only; split <;> (split <;> simp)

@[simp] theorem State.calSample_frame (n : Nat) :
    (s.calSample n).pfe = s.pfe ∧ (s.calSample n).lvl = s.lvl ∧ (s.calSample n).cap = s.cap ∧
      (s.calSample n).dec = s.dec ∧ (s.calSample n).trg = s.trg ∧ (s.calSample n).dsp = s.dsp ∧
      (s.calSample n).cmd = s.cmd ∧ (s.calSample n).pending = s.pending ∧
      (s.calSample n).cal.channels = s.cal.channels ∧ (s.calSample n).cal.seed = s.cal.seed ∧
      (s.calSample n).cal.tolerance = s.cal.tolerance ∧ (s.calSample n).cal.runLevel = s.cal.runLevel ∧
      (s.calSample n).cal.outcome = s.cal.outcome ∧ (s.calSample n).cal.results = s.cal.results := by
  unfold State.calSample; split
  · simp only [State.setCal_pfe, State.setCal_lvl, State.setCal_cal, State.setCal_cap, State.setCal_dec, State.setCal_trg,
      State.setCal_dsp, State.setCal_cmd, State.setCal_pending]
    unfold Cal.compare Cal.countStep
    split <;> split <;> simp
  · simp

@[simp] theorem State.endCalibration_frame (o : CalOutcome) :
    (s.endCalibration o).pfe = s.pfe ∧ (s.endCalibration o).lvl = s.lvl ∧ (s.endCalibration o).cap = s.cap ∧
      (s.endCalibration o).trg = s.trg ∧ (s.endCalibration o).dsp = s.dsp ∧
      (s.endCalibration o).pending = s.pending ∧ (s.endCalibration o).cmd.mask = s.cmd.mask ∧
      (s.endCalibration o).cmd.frame = s.cmd.frame ∧ (s.endCalibration o).cmd.response = s.cmd.response ∧
      (s.endCalibration o).cmd.held = s.cmd.held ∧ (s.endCalibration o).dec.level = s.dec.level ∧
      (s.endCalibration o).dec.setA = s.dec.setA ∧ (s.endCalibration o).dec.setB = s.dec.setB ∧
      (s.endCalibration o).dec.queue = s.dec.queue ∧ (s.endCalibration o).dec.isOpen = s.dec.isOpen ∧
      (s.endCalibration o).dec.lost = s.dec.lost ∧ (s.endCalibration o).dec.span = s.dec.span ∧
      (s.endCalibration o).dec.threshold = s.dec.threshold ∧ (s.endCalibration o).dec.armed = s.dec.armed ∧
      (s.endCalibration o).dec.path = s.dec.path ∧ (s.endCalibration o).dec.gap = s.dec.gap := by
  unfold State.endCalibration; simp

@[simp] theorem Pfe.writeResults_frame (p : Pfe) (r : Vector CalResult 32) :
    (p.writeResults r).thresholds = p.thresholds ∧ (p.writeResults r).active = p.active ∧
      (p.writeResults r).run = p.run ∧ (p.writeResults r).stamp = p.stamp ∧ (p.writeResults r).lines = p.lines ∧
      (p.writeResults r).filters = p.filters ∧ (p.writeResults r).quietTime = p.quietTime ∧
      (p.writeResults r).glitchThreshold = p.glitchThreshold ∧ (p.writeResults r).monitors = p.monitors := by
  unfold Pfe.writeResults Pfe.setFrontEnd
  split
  · dsimp only; split <;> simp
  · simp

@[simp] theorem State.completeCalibration_frame :
    (s.completeCalibration).lvl = s.lvl ∧ (s.completeCalibration).cap = s.cap ∧ (s.completeCalibration).trg = s.trg ∧
      (s.completeCalibration).dsp = s.dsp ∧ (s.completeCalibration).pending = s.pending ∧
      (s.completeCalibration).cmd.mask = s.cmd.mask ∧ (s.completeCalibration).cmd.frame = s.cmd.frame ∧
      (s.completeCalibration).cmd.response = s.cmd.response ∧ (s.completeCalibration).cmd.held = s.cmd.held ∧
      (s.completeCalibration).dec.level = s.dec.level ∧ (s.completeCalibration).dec.setA = s.dec.setA ∧
      (s.completeCalibration).dec.setB = s.dec.setB ∧ (s.completeCalibration).dec.queue = s.dec.queue ∧
      (s.completeCalibration).dec.isOpen = s.dec.isOpen ∧ (s.completeCalibration).dec.lost = s.dec.lost ∧
      (s.completeCalibration).dec.span = s.dec.span ∧ (s.completeCalibration).dec.threshold = s.dec.threshold ∧
      (s.completeCalibration).dec.armed = s.dec.armed ∧ (s.completeCalibration).dec.path = s.dec.path ∧
      (s.completeCalibration).dec.gap = s.dec.gap ∧ (s.completeCalibration).pfe.thresholds = s.pfe.thresholds ∧
      (s.completeCalibration).pfe.active = s.pfe.active ∧ (s.completeCalibration).pfe.run = s.pfe.run ∧
      (s.completeCalibration).pfe.stamp = s.pfe.stamp ∧ (s.completeCalibration).pfe.lines = s.pfe.lines ∧
      (s.completeCalibration).pfe.filters = s.pfe.filters ∧ (s.completeCalibration).pfe.quietTime = s.pfe.quietTime ∧
      (s.completeCalibration).pfe.glitchThreshold = s.pfe.glitchThreshold ∧
      (s.completeCalibration).pfe.monitors = s.pfe.monitors := by
  unfold State.completeCalibration; simp

@[simp] theorem State.completeIfDue_frame :
    (s.completeIfDue).lvl = s.lvl ∧ (s.completeIfDue).cap = s.cap ∧ (s.completeIfDue).trg = s.trg ∧
      (s.completeIfDue).dsp = s.dsp ∧ (s.completeIfDue).pending = s.pending ∧
      (s.completeIfDue).cmd.mask = s.cmd.mask ∧ (s.completeIfDue).cmd.frame = s.cmd.frame ∧
      (s.completeIfDue).cmd.response = s.cmd.response ∧ (s.completeIfDue).cmd.held = s.cmd.held ∧
      (s.completeIfDue).dec.level = s.dec.level ∧ (s.completeIfDue).dec.setA = s.dec.setA ∧
      (s.completeIfDue).dec.setB = s.dec.setB ∧ (s.completeIfDue).dec.queue = s.dec.queue ∧
      (s.completeIfDue).dec.isOpen = s.dec.isOpen ∧ (s.completeIfDue).dec.lost = s.dec.lost ∧
      (s.completeIfDue).dec.span = s.dec.span ∧ (s.completeIfDue).dec.threshold = s.dec.threshold ∧
      (s.completeIfDue).dec.armed = s.dec.armed ∧ (s.completeIfDue).dec.path = s.dec.path ∧
      (s.completeIfDue).dec.gap = s.dec.gap ∧ (s.completeIfDue).pfe.thresholds = s.pfe.thresholds ∧
      (s.completeIfDue).pfe.active = s.pfe.active ∧ (s.completeIfDue).pfe.run = s.pfe.run ∧
      (s.completeIfDue).pfe.stamp = s.pfe.stamp ∧ (s.completeIfDue).pfe.lines = s.pfe.lines ∧
      (s.completeIfDue).pfe.filters = s.pfe.filters ∧ (s.completeIfDue).pfe.quietTime = s.pfe.quietTime ∧
      (s.completeIfDue).pfe.glitchThreshold = s.pfe.glitchThreshold ∧ (s.completeIfDue).pfe.monitors = s.pfe.monitors := by
  unfold State.completeIfDue; split <;> simp

@[simp] theorem State.acceptCalibrate_frame (c : Lines) (a b : Nat) :
    (s.acceptCalibrate c a b).pfe = s.pfe ∧ (s.acceptCalibrate c a b).lvl = s.lvl ∧
      (s.acceptCalibrate c a b).cap = s.cap ∧ (s.acceptCalibrate c a b).trg = s.trg ∧
      (s.acceptCalibrate c a b).dsp = s.dsp ∧ (s.acceptCalibrate c a b).cmd = s.cmd ∧
      (s.acceptCalibrate c a b).pending = s.pending ∧ (s.acceptCalibrate c a b).dec.level = s.dec.level ∧
      (s.acceptCalibrate c a b).dec.setA = s.dec.setA ∧ (s.acceptCalibrate c a b).dec.setB = s.dec.setB ∧
      (s.acceptCalibrate c a b).dec.queue = s.dec.queue ∧ (s.acceptCalibrate c a b).dec.isOpen = s.dec.isOpen ∧
      (s.acceptCalibrate c a b).dec.lost = s.dec.lost ∧ (s.acceptCalibrate c a b).dec.span = s.dec.span ∧
      (s.acceptCalibrate c a b).dec.threshold = s.dec.threshold ∧ (s.acceptCalibrate c a b).dec.armed = s.dec.armed ∧
      (s.acceptCalibrate c a b).dec.path = s.dec.path ∧ (s.acceptCalibrate c a b).dec.gap = s.dec.gap := by
  unfold State.acceptCalibrate; simp

@[simp] theorem State.takeConditioned_frame (x : Conditioned) (k : Nat) :
    (s.takeConditioned x k).lvl = s.lvl ∧ (s.takeConditioned x k).cal = s.cal ∧ (s.takeConditioned x k).dsp = s.dsp ∧
      (s.takeConditioned x k).pending = s.pending ∧ (s.takeConditioned x k).cmd.mask = s.cmd.mask ∧
      (s.takeConditioned x k).cmd.frame = s.cmd.frame ∧ (s.takeConditioned x k).cmd.response = s.cmd.response ∧
      (s.takeConditioned x k).cmd.held = s.cmd.held ∧ (s.takeConditioned x k).cap.dram = s.cap.dram ∧
      (s.takeConditioned x k).cap.read = s.cap.read ∧
      (s.takeConditioned x k).cap.poolThreshold = s.cap.poolThreshold ∧
      (s.takeConditioned x k).cap.port = s.cap.port ∧ (s.takeConditioned x k).dec.level = s.dec.level ∧
      (s.takeConditioned x k).dec.gap = s.dec.gap ∧ (s.takeConditioned x k).dec.setA = s.dec.setA ∧
      (s.takeConditioned x k).dec.setB = s.dec.setB ∧ (s.takeConditioned x k).dec.queue = s.dec.queue ∧
      (s.takeConditioned x k).dec.isOpen = s.dec.isOpen ∧ (s.takeConditioned x k).dec.lost = s.dec.lost ∧
      (s.takeConditioned x k).dec.span = s.dec.span ∧ (s.takeConditioned x k).dec.threshold = s.dec.threshold ∧
      (s.takeConditioned x k).dec.armed = s.dec.armed ∧ (s.takeConditioned x k).pfe.thresholds = s.pfe.thresholds ∧
      (s.takeConditioned x k).pfe.full = s.pfe.full ∧ (s.takeConditioned x k).pfe.economy = s.pfe.economy ∧
      (s.takeConditioned x k).pfe.active = s.pfe.active ∧ (s.takeConditioned x k).pfe.run = s.pfe.run ∧
      (s.takeConditioned x k).pfe.stamp = s.pfe.stamp ∧ (s.takeConditioned x k).pfe.lines = s.pfe.lines ∧
      (s.takeConditioned x k).pfe.filters = s.pfe.filters ∧ (s.takeConditioned x k).pfe.quietTime = s.pfe.quietTime ∧
      (s.takeConditioned x k).pfe.glitchThreshold = s.pfe.glitchThreshold ∧
      (s.takeConditioned x k).trg.units = s.trg.units ∧ (s.takeConditioned x k).trg.branches = s.trg.branches := by
  unfold State.takeConditioned; simp

@[simp] theorem State.formNext_frame (n : Nat) :
    (s.formNext n).lvl = s.lvl ∧ (s.formNext n).cal = s.cal ∧ (s.formNext n).dsp = s.dsp ∧
      (s.formNext n).pending = s.pending ∧ (s.formNext n).cmd.mask = s.cmd.mask ∧
      (s.formNext n).cmd.frame = s.cmd.frame ∧ (s.formNext n).cmd.response = s.cmd.response ∧
      (s.formNext n).cmd.held = s.cmd.held ∧ (s.formNext n).cap.dram = s.cap.dram ∧
      (s.formNext n).cap.read = s.cap.read ∧ (s.formNext n).cap.poolThreshold = s.cap.poolThreshold ∧
      (s.formNext n).cap.port = s.cap.port ∧ (s.formNext n).dec.level = s.dec.level ∧
      (s.formNext n).dec.gap = s.dec.gap ∧ (s.formNext n).dec.setA = s.dec.setA ∧
      (s.formNext n).dec.setB = s.dec.setB ∧ (s.formNext n).dec.queue = s.dec.queue ∧
      (s.formNext n).dec.isOpen = s.dec.isOpen ∧ (s.formNext n).dec.lost = s.dec.lost ∧
      (s.formNext n).dec.span = s.dec.span ∧ (s.formNext n).dec.threshold = s.dec.threshold ∧
      (s.formNext n).dec.armed = s.dec.armed ∧ (s.formNext n).pfe.thresholds = s.pfe.thresholds ∧
      (s.formNext n).pfe.full = s.pfe.full ∧ (s.formNext n).pfe.economy = s.pfe.economy ∧
      (s.formNext n).pfe.active = s.pfe.active ∧ (s.formNext n).pfe.filters = s.pfe.filters ∧
      (s.formNext n).pfe.quietTime = s.pfe.quietTime ∧ (s.formNext n).pfe.glitchThreshold = s.pfe.glitchThreshold ∧
      (s.formNext n).trg.units = s.trg.units ∧ (s.formNext n).trg.branches = s.trg.branches := by
  unfold State.formNext; split
  · simp
  · simp [Pfe.formSample]

@[simp] theorem State.flushSteps_frame (n k : Nat) :
    (State.flushSteps n k s).lvl = s.lvl ∧ (State.flushSteps n k s).cal = s.cal ∧
      (State.flushSteps n k s).dsp = s.dsp ∧ (State.flushSteps n k s).pending = s.pending ∧
      (State.flushSteps n k s).cmd.mask = s.cmd.mask ∧ (State.flushSteps n k s).cmd.frame = s.cmd.frame ∧
      (State.flushSteps n k s).cmd.response = s.cmd.response ∧ (State.flushSteps n k s).cmd.held = s.cmd.held ∧
      (State.flushSteps n k s).cap.dram = s.cap.dram ∧ (State.flushSteps n k s).cap.read = s.cap.read ∧
      (State.flushSteps n k s).cap.poolThreshold = s.cap.poolThreshold ∧
      (State.flushSteps n k s).cap.port = s.cap.port ∧ (State.flushSteps n k s).dec.level = s.dec.level ∧
      (State.flushSteps n k s).dec.gap = s.dec.gap ∧ (State.flushSteps n k s).dec.setA = s.dec.setA ∧
      (State.flushSteps n k s).dec.setB = s.dec.setB ∧ (State.flushSteps n k s).dec.queue = s.dec.queue ∧
      (State.flushSteps n k s).dec.isOpen = s.dec.isOpen ∧ (State.flushSteps n k s).dec.lost = s.dec.lost ∧
      (State.flushSteps n k s).dec.span = s.dec.span ∧ (State.flushSteps n k s).dec.threshold = s.dec.threshold ∧
      (State.flushSteps n k s).dec.armed = s.dec.armed ∧ (State.flushSteps n k s).pfe.thresholds = s.pfe.thresholds ∧
      (State.flushSteps n k s).pfe.full = s.pfe.full ∧ (State.flushSteps n k s).pfe.economy = s.pfe.economy ∧
      (State.flushSteps n k s).pfe.active = s.pfe.active ∧ (State.flushSteps n k s).pfe.quietTime = s.pfe.quietTime ∧
      (State.flushSteps n k s).pfe.glitchThreshold = s.pfe.glitchThreshold ∧
      (State.flushSteps n k s).trg.units = s.trg.units ∧ (State.flushSteps n k s).trg.branches = s.trg.branches := by
  induction n generalizing s k with
  | zero => simp [State.flushSteps]
  | succ n ih =>
    simp only [State.flushSteps, ih]
    split <;> simp

@[simp] theorem State.endRun_frame :
    (s.endRun).lvl = s.lvl ∧ (s.endRun).cal = s.cal ∧ (s.endRun).dsp = s.dsp ∧ (s.endRun).pending = s.pending ∧
      (s.endRun).cmd.mask = s.cmd.mask ∧ (s.endRun).cmd.frame = s.cmd.frame ∧
      (s.endRun).cmd.response = s.cmd.response ∧ (s.endRun).cmd.held = s.cmd.held ∧
      (s.endRun).cap.dram = s.cap.dram ∧ (s.endRun).cap.read = s.cap.read ∧
      (s.endRun).cap.poolThreshold = s.cap.poolThreshold ∧ (s.endRun).cap.port = s.cap.port ∧
      (s.endRun).dec.level = s.dec.level ∧ (s.endRun).dec.gap = s.dec.gap ∧ (s.endRun).dec.setA = s.dec.setA ∧
      (s.endRun).dec.setB = s.dec.setB ∧ (s.endRun).dec.queue = s.dec.queue ∧ (s.endRun).dec.isOpen = s.dec.isOpen ∧
      (s.endRun).dec.lost = s.dec.lost ∧ (s.endRun).dec.span = s.dec.span ∧
      (s.endRun).dec.threshold = s.dec.threshold ∧ (s.endRun).dec.armed = s.dec.armed ∧
      (s.endRun).pfe.thresholds = s.pfe.thresholds ∧ (s.endRun).pfe.full = s.pfe.full ∧
      (s.endRun).pfe.economy = s.pfe.economy ∧ (s.endRun).pfe.active = s.pfe.active ∧
      (s.endRun).pfe.quietTime = s.pfe.quietTime ∧ (s.endRun).pfe.glitchThreshold = s.pfe.glitchThreshold ∧
      (s.endRun).trg.units = s.trg.units ∧ (s.endRun).trg.branches = s.trg.branches := by
  unfold State.endRun; split
  · simp
  · dsimp only; split <;> simp [Pfe.discardOpenRuns]

@[simp] theorem State.beginTransition_frame (l : Level) :
    (s.beginTransition l).cal = s.cal ∧ (s.beginTransition l).dsp = s.dsp ∧
      (s.beginTransition l).pending = s.pending ∧ (s.beginTransition l).cmd.mask = s.cmd.mask ∧
      (s.beginTransition l).cmd.frame = s.cmd.frame ∧ (s.beginTransition l).cmd.response = s.cmd.response ∧
      (s.beginTransition l).cmd.held = s.cmd.held ∧ (s.beginTransition l).cap.dram = s.cap.dram ∧
      (s.beginTransition l).cap.read = s.cap.read ∧ (s.beginTransition l).cap.poolThreshold = s.cap.poolThreshold ∧
      (s.beginTransition l).dec.level = s.dec.level ∧ (s.beginTransition l).dec.setA = s.dec.setA ∧
      (s.beginTransition l).dec.setB = s.dec.setB ∧ (s.beginTransition l).dec.queue = s.dec.queue ∧
      (s.beginTransition l).dec.isOpen = s.dec.isOpen ∧ (s.beginTransition l).dec.lost = s.dec.lost ∧
      (s.beginTransition l).dec.span = s.dec.span ∧ (s.beginTransition l).dec.threshold = s.dec.threshold ∧
      (s.beginTransition l).dec.armed = s.dec.armed ∧ (s.beginTransition l).pfe.thresholds = s.pfe.thresholds ∧
      (s.beginTransition l).pfe.full = s.pfe.full ∧ (s.beginTransition l).pfe.economy = s.pfe.economy ∧
      (s.beginTransition l).pfe.active = s.pfe.active ∧ (s.beginTransition l).pfe.quietTime = s.pfe.quietTime ∧
      (s.beginTransition l).pfe.glitchThreshold = s.pfe.glitchThreshold ∧
      (s.beginTransition l).trg.units = s.trg.units ∧ (s.beginTransition l).trg.branches = s.trg.branches ∧
      (s.beginTransition l).lvl.level = s.lvl.level ∧ (s.beginTransition l).lvl.request = s.lvl.request ∧
      (s.beginTransition l).lvl.count = s.lvl.count ∧ (s.beginTransition l).lvl.exhausted = s.lvl.exhausted := by
  unfold State.beginTransition; dsimp only; repeat' split
  all_goals simp

@[simp] theorem State.releaseRequest_frame :
    (s.releaseRequest).cal = s.cal ∧ (s.releaseRequest).dsp = s.dsp ∧ (s.releaseRequest).pending = s.pending ∧
      (s.releaseRequest).cmd.mask = s.cmd.mask ∧ (s.releaseRequest).cmd.frame = s.cmd.frame ∧
      (s.releaseRequest).cmd.response = s.cmd.response ∧ (s.releaseRequest).cmd.held = s.cmd.held ∧
      (s.releaseRequest).cap.dram = s.cap.dram ∧ (s.releaseRequest).cap.read = s.cap.read ∧
      (s.releaseRequest).cap.poolThreshold = s.cap.poolThreshold ∧ (s.releaseRequest).dec.level = s.dec.level ∧
      (s.releaseRequest).dec.setA = s.dec.setA ∧ (s.releaseRequest).dec.setB = s.dec.setB ∧
      (s.releaseRequest).dec.queue = s.dec.queue ∧ (s.releaseRequest).dec.isOpen = s.dec.isOpen ∧
      (s.releaseRequest).dec.lost = s.dec.lost ∧ (s.releaseRequest).dec.span = s.dec.span ∧
      (s.releaseRequest).dec.threshold = s.dec.threshold ∧ (s.releaseRequest).dec.armed = s.dec.armed ∧
      (s.releaseRequest).pfe.thresholds = s.pfe.thresholds ∧ (s.releaseRequest).pfe.full = s.pfe.full ∧
      (s.releaseRequest).pfe.economy = s.pfe.economy ∧ (s.releaseRequest).pfe.active = s.pfe.active ∧
      (s.releaseRequest).pfe.quietTime = s.pfe.quietTime ∧
      (s.releaseRequest).pfe.glitchThreshold = s.pfe.glitchThreshold ∧ (s.releaseRequest).trg.units = s.trg.units ∧
      (s.releaseRequest).trg.branches = s.trg.branches ∧ (s.releaseRequest).lvl.level = s.lvl.level ∧
      (s.releaseRequest).lvl.count = s.lvl.count ∧ (s.releaseRequest).lvl.exhausted = s.lvl.exhausted := by
  unfold State.releaseRequest; split <;> simp

@[simp] theorem State.endOfCapture_frame :
    (s.endOfCapture).cal = s.cal ∧ (s.endOfCapture).dsp = s.dsp ∧ (s.endOfCapture).pending = s.pending ∧
      (s.endOfCapture).cmd.mask = s.cmd.mask ∧ (s.endOfCapture).cmd.frame = s.cmd.frame ∧
      (s.endOfCapture).cmd.response = s.cmd.response ∧ (s.endOfCapture).cmd.held = s.cmd.held ∧
      (s.endOfCapture).cap.dram = s.cap.dram ∧ (s.endOfCapture).cap.read = s.cap.read ∧
      (s.endOfCapture).cap.poolThreshold = s.cap.poolThreshold ∧ (s.endOfCapture).dec.level = s.dec.level ∧
      (s.endOfCapture).dec.setA = s.dec.setA ∧ (s.endOfCapture).dec.setB = s.dec.setB ∧
      (s.endOfCapture).dec.queue = s.dec.queue ∧ (s.endOfCapture).dec.isOpen = s.dec.isOpen ∧
      (s.endOfCapture).dec.lost = s.dec.lost ∧ (s.endOfCapture).dec.span = s.dec.span ∧
      (s.endOfCapture).dec.threshold = s.dec.threshold ∧ (s.endOfCapture).dec.armed = s.dec.armed ∧
      (s.endOfCapture).pfe.thresholds = s.pfe.thresholds ∧ (s.endOfCapture).pfe.full = s.pfe.full ∧
      (s.endOfCapture).pfe.economy = s.pfe.economy ∧ (s.endOfCapture).pfe.active = s.pfe.active ∧
      (s.endOfCapture).pfe.quietTime = s.pfe.quietTime ∧
      (s.endOfCapture).pfe.glitchThreshold = s.pfe.glitchThreshold ∧ (s.endOfCapture).trg.units = s.trg.units ∧
      (s.endOfCapture).trg.branches = s.trg.branches ∧ (s.endOfCapture).lvl.level = s.lvl.level ∧
      (s.endOfCapture).lvl.count = s.lvl.count ∧ (s.endOfCapture).lvl.exhausted = s.lvl.exhausted := by
  unfold State.endOfCapture; split <;> simp

@[simp] theorem State.startRun_frame (l : Level) :
    (s.startRun l).cal = s.cal ∧ (s.startRun l).cap = s.cap ∧ (s.startRun l).dec = s.dec ∧
      (s.startRun l).trg = s.trg ∧ (s.startRun l).dsp = s.dsp ∧ (s.startRun l).cmd = s.cmd ∧
      (s.startRun l).pending = s.pending ∧ (s.startRun l).pfe.thresholds = s.pfe.thresholds ∧
      (s.startRun l).pfe.full = s.pfe.full ∧ (s.startRun l).pfe.economy = s.pfe.economy ∧
      (s.startRun l).pfe.active = s.pfe.active ∧ (s.startRun l).pfe.quietTime = s.pfe.quietTime ∧
      (s.startRun l).pfe.glitchThreshold = s.pfe.glitchThreshold ∧ (s.startRun l).pfe.stamp = s.pfe.stamp ∧
      (s.startRun l).pfe.lines = s.pfe.lines ∧ (s.startRun l).pfe.monitors = s.pfe.monitors ∧
      (s.startRun l).lvl.level = s.lvl.level ∧ (s.startRun l).lvl.transition = s.lvl.transition ∧
      (s.startRun l).lvl.request = s.lvl.request := by
  unfold State.startRun; split
  · simp
  · dsimp only
    split <;> simp [Pfe.beginRun]

@[simp] theorem State.settleLevel_frame (l : Level) :
    (s.settleLevel l).cal = s.cal ∧ (s.settleLevel l).dec = s.dec ∧ (s.settleLevel l).trg = s.trg ∧
      (s.settleLevel l).dsp = s.dsp ∧ (s.settleLevel l).cmd = s.cmd ∧ (s.settleLevel l).pending = s.pending ∧
      (s.settleLevel l).cap.dram = s.cap.dram ∧ (s.settleLevel l).cap.segments = s.cap.segments ∧
      (s.settleLevel l).cap.pages = s.cap.pages ∧ (s.settleLevel l).cap.pool = s.cap.pool ∧
      (s.settleLevel l).cap.staged = s.cap.staged ∧
      (s.settleLevel l).cap.stagedAnnotations = s.cap.stagedAnnotations ∧
      (s.settleLevel l).cap.encoder = s.cap.encoder ∧ (s.settleLevel l).cap.read = s.cap.read ∧
      (s.settleLevel l).cap.fires = s.cap.fires ∧ (s.settleLevel l).cap.poolThreshold = s.cap.poolThreshold ∧
      (s.settleLevel l).pfe.thresholds = s.pfe.thresholds ∧ (s.settleLevel l).pfe.full = s.pfe.full ∧
      (s.settleLevel l).pfe.economy = s.pfe.economy ∧ (s.settleLevel l).pfe.active = s.pfe.active ∧
      (s.settleLevel l).pfe.quietTime = s.pfe.quietTime ∧
      (s.settleLevel l).pfe.glitchThreshold = s.pfe.glitchThreshold ∧ (s.settleLevel l).pfe.stamp = s.pfe.stamp ∧
      (s.settleLevel l).pfe.lines = s.pfe.lines ∧ (s.settleLevel l).pfe.monitors = s.pfe.monitors ∧
      (s.settleLevel l).lvl.level = s.lvl.level ∧ (s.settleLevel l).lvl.transition = s.lvl.transition ∧
      (s.settleLevel l).lvl.request = s.lvl.request := by
  unfold State.settleLevel; split <;> simp

@[simp] theorem State.completeTransition_frame (l : Level) :
    (s.completeTransition l).cal = s.cal ∧ (s.completeTransition l).dsp = s.dsp ∧
      (s.completeTransition l).pending = s.pending ∧ (s.completeTransition l).cmd.mask = s.cmd.mask ∧
      (s.completeTransition l).cmd.frame = s.cmd.frame ∧ (s.completeTransition l).cmd.response = s.cmd.response ∧
      (s.completeTransition l).cmd.held = s.cmd.held ∧ (s.completeTransition l).cap.dram = s.cap.dram ∧
      (s.completeTransition l).cap.read = s.cap.read ∧
      (s.completeTransition l).cap.poolThreshold = s.cap.poolThreshold ∧
      (s.completeTransition l).dec.setA = s.dec.setA ∧ (s.completeTransition l).dec.setB = s.dec.setB ∧
      (s.completeTransition l).dec.queue = s.dec.queue ∧ (s.completeTransition l).dec.isOpen = s.dec.isOpen ∧
      (s.completeTransition l).dec.lost = s.dec.lost ∧ (s.completeTransition l).dec.span = s.dec.span ∧
      (s.completeTransition l).dec.threshold = s.dec.threshold ∧ (s.completeTransition l).dec.armed = s.dec.armed ∧
      (s.completeTransition l).pfe.thresholds = s.pfe.thresholds ∧ (s.completeTransition l).pfe.full = s.pfe.full ∧
      (s.completeTransition l).pfe.economy = s.pfe.economy ∧
      (s.completeTransition l).pfe.quietTime = s.pfe.quietTime ∧
      (s.completeTransition l).pfe.glitchThreshold = s.pfe.glitchThreshold ∧
      (s.completeTransition l).trg.units = s.trg.units ∧ (s.completeTransition l).trg.branches = s.trg.branches := by
  unfold State.completeTransition; dsimp only; split <;> simp

@[simp] theorem State.calRunEnd_frame :
    (s.calRunEnd).lvl = s.lvl ∧ (s.calRunEnd).cap = s.cap ∧ (s.calRunEnd).trg = s.trg ∧ (s.calRunEnd).dsp = s.dsp ∧
      (s.calRunEnd).pending = s.pending ∧ (s.calRunEnd).cmd.mask = s.cmd.mask ∧
      (s.calRunEnd).cmd.frame = s.cmd.frame ∧ (s.calRunEnd).cmd.response = s.cmd.response ∧
      (s.calRunEnd).cmd.held = s.cmd.held ∧ (s.calRunEnd).dec.level = s.dec.level ∧
      (s.calRunEnd).dec.setA = s.dec.setA ∧ (s.calRunEnd).dec.setB = s.dec.setB ∧
      (s.calRunEnd).dec.queue = s.dec.queue ∧ (s.calRunEnd).dec.isOpen = s.dec.isOpen ∧
      (s.calRunEnd).dec.lost = s.dec.lost ∧ (s.calRunEnd).dec.span = s.dec.span ∧
      (s.calRunEnd).dec.threshold = s.dec.threshold ∧ (s.calRunEnd).dec.armed = s.dec.armed ∧
      (s.calRunEnd).dec.path = s.dec.path ∧ (s.calRunEnd).dec.gap = s.dec.gap ∧
      (s.calRunEnd).pfe.thresholds = s.pfe.thresholds ∧ (s.calRunEnd).pfe.active = s.pfe.active ∧
      (s.calRunEnd).pfe.run = s.pfe.run ∧ (s.calRunEnd).pfe.stamp = s.pfe.stamp ∧
      (s.calRunEnd).pfe.lines = s.pfe.lines ∧ (s.calRunEnd).pfe.quietTime = s.pfe.quietTime ∧
      (s.calRunEnd).pfe.glitchThreshold = s.pfe.glitchThreshold ∧ (s.calRunEnd).pfe.monitors = s.pfe.monitors := by
  unfold State.calRunEnd; split
  · simp
  · dsimp only; split <;> simp [Pfe.discardOpenRuns]

@[simp] theorem State.sealAtLimit_frame :
    (s.sealAtLimit).pfe = s.pfe ∧ (s.sealAtLimit).lvl = s.lvl ∧ (s.sealAtLimit).cal = s.cal ∧
      (s.sealAtLimit).dec = s.dec ∧ (s.sealAtLimit).dsp = s.dsp ∧ (s.sealAtLimit).pending = s.pending ∧
      (s.sealAtLimit).cmd.mask = s.cmd.mask ∧ (s.sealAtLimit).cmd.frame = s.cmd.frame ∧
      (s.sealAtLimit).cmd.response = s.cmd.response ∧ (s.sealAtLimit).cmd.held = s.cmd.held ∧
      (s.sealAtLimit).cap.dram = s.cap.dram ∧ (s.sealAtLimit).cap.staged = s.cap.staged ∧
      (s.sealAtLimit).cap.stagedAnnotations = s.cap.stagedAnnotations ∧ (s.sealAtLimit).cap.read = s.cap.read ∧
      (s.sealAtLimit).cap.fires = s.cap.fires ∧ (s.sealAtLimit).cap.poolThreshold = s.cap.poolThreshold ∧
      (s.sealAtLimit).cap.port = s.cap.port ∧ (s.sealAtLimit).trg.units = s.trg.units ∧
      (s.sealAtLimit).trg.branches = s.trg.branches := by
  unfold State.sealAtLimit; split <;> simp

@[simp] theorem State.exhaust_frame :
    (s.exhaust).dsp = s.dsp ∧ (s.exhaust).pending = s.pending ∧ (s.exhaust).cmd.mask = s.cmd.mask ∧
      (s.exhaust).cmd.frame = s.cmd.frame ∧ (s.exhaust).cmd.response = s.cmd.response ∧
      (s.exhaust).cmd.held = s.cmd.held ∧ (s.exhaust).cap.dram = s.cap.dram ∧ (s.exhaust).cap.read = s.cap.read ∧
      (s.exhaust).cap.poolThreshold = s.cap.poolThreshold ∧ (s.exhaust).dec.level = s.dec.level ∧
      (s.exhaust).dec.setA = s.dec.setA ∧ (s.exhaust).dec.setB = s.dec.setB ∧ (s.exhaust).dec.queue = s.dec.queue ∧
      (s.exhaust).dec.isOpen = s.dec.isOpen ∧ (s.exhaust).dec.lost = s.dec.lost ∧ (s.exhaust).dec.span = s.dec.span ∧
      (s.exhaust).dec.threshold = s.dec.threshold ∧ (s.exhaust).dec.armed = s.dec.armed ∧
      (s.exhaust).pfe.thresholds = s.pfe.thresholds ∧ (s.exhaust).pfe.active = s.pfe.active ∧
      (s.exhaust).pfe.quietTime = s.pfe.quietTime ∧ (s.exhaust).pfe.glitchThreshold = s.pfe.glitchThreshold ∧
      (s.exhaust).trg.units = s.trg.units ∧ (s.exhaust).trg.branches = s.trg.branches ∧
      (s.exhaust).lvl.level = s.lvl.level ∧ (s.exhaust).lvl.count = s.lvl.count ∧
      (s.exhaust).lvl.exhausted = s.lvl.exhausted := by
  unfold State.exhaust; dsimp only; split <;> simp

@[simp] theorem State.exhaustIfDue_frame :
    (s.exhaustIfDue).dsp = s.dsp ∧ (s.exhaustIfDue).pending = s.pending ∧ (s.exhaustIfDue).cmd.mask = s.cmd.mask ∧
      (s.exhaustIfDue).cmd.frame = s.cmd.frame ∧ (s.exhaustIfDue).cmd.response = s.cmd.response ∧
      (s.exhaustIfDue).cmd.held = s.cmd.held ∧ (s.exhaustIfDue).cap.dram = s.cap.dram ∧
      (s.exhaustIfDue).cap.read = s.cap.read ∧ (s.exhaustIfDue).cap.poolThreshold = s.cap.poolThreshold ∧
      (s.exhaustIfDue).dec.level = s.dec.level ∧ (s.exhaustIfDue).dec.setA = s.dec.setA ∧
      (s.exhaustIfDue).dec.setB = s.dec.setB ∧ (s.exhaustIfDue).dec.queue = s.dec.queue ∧
      (s.exhaustIfDue).dec.isOpen = s.dec.isOpen ∧ (s.exhaustIfDue).dec.lost = s.dec.lost ∧
      (s.exhaustIfDue).dec.span = s.dec.span ∧ (s.exhaustIfDue).dec.threshold = s.dec.threshold ∧
      (s.exhaustIfDue).dec.armed = s.dec.armed ∧ (s.exhaustIfDue).pfe.thresholds = s.pfe.thresholds ∧
      (s.exhaustIfDue).pfe.active = s.pfe.active ∧ (s.exhaustIfDue).pfe.quietTime = s.pfe.quietTime ∧
      (s.exhaustIfDue).pfe.glitchThreshold = s.pfe.glitchThreshold ∧ (s.exhaustIfDue).trg.units = s.trg.units ∧
      (s.exhaustIfDue).trg.branches = s.trg.branches ∧ (s.exhaustIfDue).lvl.level = s.lvl.level ∧
      (s.exhaustIfDue).lvl.count = s.lvl.count ∧ (s.exhaustIfDue).lvl.exhausted = s.lvl.exhausted := by
  unfold State.exhaustIfDue; split <;> simp

@[simp] theorem State.rawSample_frame (r : Run) (v : Vector Int 32) :
    (s.rawSample r v).cap = s.cap ∧ (s.rawSample r v).dec = s.dec ∧ (s.rawSample r v).trg = s.trg ∧
      (s.rawSample r v).dsp = s.dsp ∧ (s.rawSample r v).pending = s.pending ∧
      (s.rawSample r v).cmd.mask = s.cmd.mask ∧ (s.rawSample r v).cmd.frame = s.cmd.frame ∧
      (s.rawSample r v).cmd.response = s.cmd.response ∧ (s.rawSample r v).cmd.held = s.cmd.held ∧
      (s.rawSample r v).pfe.thresholds = s.pfe.thresholds ∧ (s.rawSample r v).pfe.full = s.pfe.full ∧
      (s.rawSample r v).pfe.economy = s.pfe.economy ∧ (s.rawSample r v).pfe.active = s.pfe.active ∧
      (s.rawSample r v).pfe.quietTime = s.pfe.quietTime ∧
      (s.rawSample r v).pfe.glitchThreshold = s.pfe.glitchThreshold ∧ (s.rawSample r v).pfe.lines = s.pfe.lines ∧
      (s.rawSample r v).pfe.stamp = s.pfe.stamp ∧ (s.rawSample r v).lvl.level = s.lvl.level ∧
      (s.rawSample r v).lvl.transition = s.lvl.transition ∧ (s.rawSample r v).lvl.request = s.lvl.request := by
  unfold State.rawSample Pfe.filterStep Lvl.advance; dsimp only; split <;> split <;> simp

@[simp] theorem State.sampleRun_frame (r : Run) (v : Vector Int 32) :
    (s.sampleRun r v).dsp = s.dsp ∧ (s.sampleRun r v).pending = s.pending ∧ (s.sampleRun r v).cmd.mask = s.cmd.mask ∧
      (s.sampleRun r v).cmd.frame = s.cmd.frame ∧ (s.sampleRun r v).cmd.response = s.cmd.response ∧
      (s.sampleRun r v).cmd.held = s.cmd.held ∧ (s.sampleRun r v).cap.dram = s.cap.dram ∧
      (s.sampleRun r v).cap.read = s.cap.read ∧ (s.sampleRun r v).cap.poolThreshold = s.cap.poolThreshold ∧
      (s.sampleRun r v).dec.level = s.dec.level ∧ (s.sampleRun r v).dec.setA = s.dec.setA ∧
      (s.sampleRun r v).dec.setB = s.dec.setB ∧ (s.sampleRun r v).dec.queue = s.dec.queue ∧
      (s.sampleRun r v).dec.isOpen = s.dec.isOpen ∧ (s.sampleRun r v).dec.lost = s.dec.lost ∧
      (s.sampleRun r v).dec.span = s.dec.span ∧ (s.sampleRun r v).dec.threshold = s.dec.threshold ∧
      (s.sampleRun r v).dec.armed = s.dec.armed ∧ (s.sampleRun r v).pfe.thresholds = s.pfe.thresholds ∧
      (s.sampleRun r v).pfe.full = s.pfe.full ∧ (s.sampleRun r v).pfe.economy = s.pfe.economy ∧
      (s.sampleRun r v).pfe.active = s.pfe.active ∧ (s.sampleRun r v).pfe.quietTime = s.pfe.quietTime ∧
      (s.sampleRun r v).pfe.glitchThreshold = s.pfe.glitchThreshold ∧ (s.sampleRun r v).trg.units = s.trg.units ∧
      (s.sampleRun r v).trg.branches = s.trg.branches ∧ (s.sampleRun r v).lvl.level = s.lvl.level := by
  unfold State.sampleRun; dsimp only; split <;> simp

@[simp] theorem State.discardStaged_frame (i : SegId) :
    (s.discardStaged i).pfe = s.pfe ∧ (s.discardStaged i).lvl = s.lvl ∧ (s.discardStaged i).cal = s.cal ∧
      (s.discardStaged i).dec = s.dec ∧ (s.discardStaged i).trg = s.trg ∧ (s.discardStaged i).dsp = s.dsp ∧
      (s.discardStaged i).cmd = s.cmd ∧ (s.discardStaged i).pending = s.pending ∧
      (s.discardStaged i).cap.dram = s.cap.dram ∧ (s.discardStaged i).cap.pages = s.cap.pages ∧
      (s.discardStaged i).cap.pool = s.cap.pool ∧ (s.discardStaged i).cap.read = s.cap.read ∧
      (s.discardStaged i).cap.fires = s.cap.fires ∧ (s.discardStaged i).cap.poolThreshold = s.cap.poolThreshold ∧
      (s.discardStaged i).cap.port = s.cap.port := by
  unfold State.discardStaged; simp

@[simp] theorem State.stageExpiry_frame :
    (s.stageExpiry).pfe = s.pfe ∧ (s.stageExpiry).lvl = s.lvl ∧ (s.stageExpiry).cal = s.cal ∧
      (s.stageExpiry).dec = s.dec ∧ (s.stageExpiry).dsp = s.dsp ∧ (s.stageExpiry).pending = s.pending ∧
      (s.stageExpiry).cmd.mask = s.cmd.mask ∧ (s.stageExpiry).cmd.frame = s.cmd.frame ∧
      (s.stageExpiry).cmd.response = s.cmd.response ∧ (s.stageExpiry).cmd.held = s.cmd.held ∧
      (s.stageExpiry).trg.units = s.trg.units ∧ (s.stageExpiry).trg.branches = s.trg.branches ∧
      (s.stageExpiry).trg.state = s.trg.state ∧ (s.stageExpiry).cap.poolThreshold = s.cap.poolThreshold ∧
      (s.stageExpiry).cap.dram = s.cap.dram ∧ (s.stageExpiry).cap.segments = s.cap.segments ∧
      (s.stageExpiry).cap.pages = s.cap.pages ∧ (s.stageExpiry).cap.pool = s.cap.pool ∧
      (s.stageExpiry).cap.staged = s.cap.staged ∧ (s.stageExpiry).cap.stagedAnnotations = s.cap.stagedAnnotations ∧
      (s.stageExpiry).cap.encoder = s.cap.encoder ∧ (s.stageExpiry).cap.read = s.cap.read ∧
      (s.stageExpiry).cap.port = s.cap.port := by
  unfold State.stageExpiry; split
  · simp
  · split <;> simp

@[simp] theorem State.holdExpiry_frame (u : UnitId) :
    (s.holdExpiry u).pfe = s.pfe ∧ (s.holdExpiry u).lvl = s.lvl ∧ (s.holdExpiry u).cal = s.cal ∧
      (s.holdExpiry u).cap = s.cap ∧ (s.holdExpiry u).dec = s.dec ∧ (s.holdExpiry u).dsp = s.dsp ∧
      (s.holdExpiry u).cmd = s.cmd ∧ (s.holdExpiry u).pending = s.pending ∧
      (s.holdExpiry u).trg.units = s.trg.units ∧ (s.holdExpiry u).trg.branches = s.trg.branches ∧
      (s.holdExpiry u).trg.state = s.trg.state ∧ (s.holdExpiry u).trg.counters = s.trg.counters ∧
      (s.holdExpiry u).trg.stage = s.trg.stage := by
  unfold State.holdExpiry; split
  · simp
  · dsimp only; split <;> simp

@[simp] theorem State.startRead_frame (k : ReadKind) (i : SegId) (a b : Nat) :
    (s.startRead k i a b).pfe = s.pfe ∧ (s.startRead k i a b).lvl = s.lvl ∧ (s.startRead k i a b).cal = s.cal ∧
      (s.startRead k i a b).dec = s.dec ∧ (s.startRead k i a b).trg = s.trg ∧ (s.startRead k i a b).dsp = s.dsp ∧
      (s.startRead k i a b).pending = s.pending ∧ (s.startRead k i a b).cap.dram = s.cap.dram ∧
      (s.startRead k i a b).cap.staged = s.cap.staged ∧
      (s.startRead k i a b).cap.stagedAnnotations = s.cap.stagedAnnotations ∧
      (s.startRead k i a b).cap.encoder = s.cap.encoder ∧ (s.startRead k i a b).cap.fires = s.cap.fires ∧
      (s.startRead k i a b).cap.poolThreshold = s.cap.poolThreshold ∧ (s.startRead k i a b).cap.port = s.cap.port ∧
      (s.startRead k i a b).cap.pages = s.cap.pages ∧ (s.startRead k i a b).cap.pool = s.cap.pool ∧
      (s.startRead k i a b).cmd.mask = s.cmd.mask ∧ (s.startRead k i a b).cmd.lockChange = s.cmd.lockChange ∧
      (s.startRead k i a b).cmd.errorThreshold = s.cmd.errorThreshold ∧
      (s.startRead k i a b).cmd.glitch = s.cmd.glitch ∧ (s.startRead k i a b).cmd.activity = s.cmd.activity ∧
      (s.startRead k i a b).cmd.pending = s.cmd.pending := by
  unfold State.startRead; simp

@[simp] theorem State.beginTaken_frame (k : ReadKind) (i : Byte) (a b : Nat) :
    (s.beginTaken k i a b).pfe = s.pfe ∧ (s.beginTaken k i a b).lvl = s.lvl ∧ (s.beginTaken k i a b).cal = s.cal ∧
      (s.beginTaken k i a b).dec = s.dec ∧ (s.beginTaken k i a b).trg = s.trg ∧ (s.beginTaken k i a b).dsp = s.dsp ∧
      (s.beginTaken k i a b).pending = s.pending ∧ (s.beginTaken k i a b).cap.dram = s.cap.dram ∧
      (s.beginTaken k i a b).cap.staged = s.cap.staged ∧
      (s.beginTaken k i a b).cap.stagedAnnotations = s.cap.stagedAnnotations ∧
      (s.beginTaken k i a b).cap.encoder = s.cap.encoder ∧ (s.beginTaken k i a b).cap.fires = s.cap.fires ∧
      (s.beginTaken k i a b).cap.poolThreshold = s.cap.poolThreshold ∧ (s.beginTaken k i a b).cap.port = s.cap.port ∧
      (s.beginTaken k i a b).cap.pages = s.cap.pages ∧ (s.beginTaken k i a b).cap.pool = s.cap.pool ∧
      (s.beginTaken k i a b).cmd.mask = s.cmd.mask ∧ (s.beginTaken k i a b).cmd.lockChange = s.cmd.lockChange ∧
      (s.beginTaken k i a b).cmd.errorThreshold = s.cmd.errorThreshold ∧
      (s.beginTaken k i a b).cmd.glitch = s.cmd.glitch ∧ (s.beginTaken k i a b).cmd.activity = s.cmd.activity ∧
      (s.beginTaken k i a b).cmd.pending = s.cmd.pending := by
  unfold State.beginTaken State.respond; split
  · simp
  · split <;> simp

@[simp] theorem State.takeRead_frame (k : ReadKind) (f : Fit) (i : Byte) (a b : Nat) :
    (s.takeRead k f i a b).pfe = s.pfe ∧ (s.takeRead k f i a b).lvl = s.lvl ∧ (s.takeRead k f i a b).cal = s.cal ∧
      (s.takeRead k f i a b).dec = s.dec ∧ (s.takeRead k f i a b).trg = s.trg ∧ (s.takeRead k f i a b).dsp = s.dsp ∧
      (s.takeRead k f i a b).pending = s.pending ∧ (s.takeRead k f i a b).cap.dram = s.cap.dram ∧
      (s.takeRead k f i a b).cap.staged = s.cap.staged ∧
      (s.takeRead k f i a b).cap.stagedAnnotations = s.cap.stagedAnnotations ∧
      (s.takeRead k f i a b).cap.encoder = s.cap.encoder ∧ (s.takeRead k f i a b).cap.fires = s.cap.fires ∧
      (s.takeRead k f i a b).cap.poolThreshold = s.cap.poolThreshold ∧ (s.takeRead k f i a b).cap.port = s.cap.port ∧
      (s.takeRead k f i a b).cap.pages = s.cap.pages ∧ (s.takeRead k f i a b).cap.pool = s.cap.pool ∧
      (s.takeRead k f i a b).cmd.mask = s.cmd.mask ∧ (s.takeRead k f i a b).cmd.lockChange = s.cmd.lockChange ∧
      (s.takeRead k f i a b).cmd.errorThreshold = s.cmd.errorThreshold ∧
      (s.takeRead k f i a b).cmd.glitch = s.cmd.glitch ∧ (s.takeRead k f i a b).cmd.activity = s.cmd.activity ∧
      (s.takeRead k f i a b).cmd.pending = s.cmd.pending := by
  unfold State.takeRead State.respond; dsimp only; split
  · simp
  · split <;> simp

@[simp] theorem State.requestRead_frame (k : ReadKind) (f : Fit) (i : Byte) (a b : Nat) :
    (s.requestRead k f i a b).pfe = s.pfe ∧ (s.requestRead k f i a b).lvl = s.lvl ∧
      (s.requestRead k f i a b).cal = s.cal ∧ (s.requestRead k f i a b).dec = s.dec ∧
      (s.requestRead k f i a b).trg = s.trg ∧ (s.requestRead k f i a b).dsp = s.dsp ∧
      (s.requestRead k f i a b).pending = s.pending ∧ (s.requestRead k f i a b).cap.dram = s.cap.dram ∧
      (s.requestRead k f i a b).cap.staged = s.cap.staged ∧
      (s.requestRead k f i a b).cap.stagedAnnotations = s.cap.stagedAnnotations ∧
      (s.requestRead k f i a b).cap.encoder = s.cap.encoder ∧ (s.requestRead k f i a b).cap.fires = s.cap.fires ∧
      (s.requestRead k f i a b).cap.poolThreshold = s.cap.poolThreshold ∧
      (s.requestRead k f i a b).cap.port = s.cap.port ∧ (s.requestRead k f i a b).cap.pages = s.cap.pages ∧
      (s.requestRead k f i a b).cap.pool = s.cap.pool ∧ (s.requestRead k f i a b).cmd.mask = s.cmd.mask ∧
      (s.requestRead k f i a b).cmd.lockChange = s.cmd.lockChange ∧
      (s.requestRead k f i a b).cmd.errorThreshold = s.cmd.errorThreshold ∧
      (s.requestRead k f i a b).cmd.glitch = s.cmd.glitch ∧ (s.requestRead k f i a b).cmd.activity = s.cmd.activity ∧
      (s.requestRead k f i a b).cmd.pending = s.cmd.pending := by
  unfold State.requestRead; split
  · split <;> simp
  · simp

@[simp] theorem State.readStep_frame (k : ReadKind) (f : Cap → Segment → ReadInFlight → ReadInFlight) :
    (s.readStep k f).pfe = s.pfe ∧ (s.readStep k f).lvl = s.lvl ∧ (s.readStep k f).cal = s.cal ∧
      (s.readStep k f).dec = s.dec ∧ (s.readStep k f).trg = s.trg ∧ (s.readStep k f).dsp = s.dsp ∧
      (s.readStep k f).cmd = s.cmd ∧ (s.readStep k f).pending = s.pending ∧ (s.readStep k f).cap.dram = s.cap.dram ∧
      (s.readStep k f).cap.staged = s.cap.staged ∧ (s.readStep k f).cap.stagedAnnotations = s.cap.stagedAnnotations ∧
      (s.readStep k f).cap.encoder = s.cap.encoder ∧ (s.readStep k f).cap.fires = s.cap.fires ∧
      (s.readStep k f).cap.poolThreshold = s.cap.poolThreshold ∧ (s.readStep k f).cap.port = s.cap.port ∧
      (s.readStep k f).cap.pages = s.cap.pages ∧ (s.readStep k f).cap.pool = s.cap.pool ∧
      (s.readStep k f).cap.segments = s.cap.segments := by
  unfold State.readStep; split
  · split <;> simp
  · simp

@[simp] theorem State.present_frame (r : ReadInFlight) :
    (s.present r).pfe = s.pfe ∧ (s.present r).lvl = s.lvl ∧ (s.present r).cal = s.cal ∧ (s.present r).cap = s.cap ∧
      (s.present r).dec = s.dec ∧ (s.present r).trg = s.trg ∧ (s.present r).dsp = s.dsp ∧
      (s.present r).pending = s.pending ∧ (s.present r).cmd.mask = s.cmd.mask ∧
      (s.present r).cmd.lockChange = s.cmd.lockChange ∧ (s.present r).cmd.errorThreshold = s.cmd.errorThreshold ∧
      (s.present r).cmd.glitch = s.cmd.glitch ∧ (s.present r).cmd.activity = s.cmd.activity ∧
      (s.present r).cmd.pending = s.cmd.pending ∧ (s.present r).cmd.held = s.cmd.held := by
  unfold State.present State.respond; split <;> simp

@[simp] theorem State.takeHeld_frame :
    (s.takeHeld).pfe = s.pfe ∧ (s.takeHeld).lvl = s.lvl ∧ (s.takeHeld).cal = s.cal ∧ (s.takeHeld).dec = s.dec ∧
      (s.takeHeld).trg = s.trg ∧ (s.takeHeld).dsp = s.dsp ∧ (s.takeHeld).pending = s.pending ∧
      (s.takeHeld).cap.dram = s.cap.dram ∧ (s.takeHeld).cap.staged = s.cap.staged ∧
      (s.takeHeld).cap.stagedAnnotations = s.cap.stagedAnnotations ∧ (s.takeHeld).cap.encoder = s.cap.encoder ∧
      (s.takeHeld).cap.fires = s.cap.fires ∧ (s.takeHeld).cap.poolThreshold = s.cap.poolThreshold ∧
      (s.takeHeld).cap.port = s.cap.port ∧ (s.takeHeld).cap.pages = s.cap.pages ∧
      (s.takeHeld).cap.pool = s.cap.pool ∧ (s.takeHeld).cmd.mask = s.cmd.mask ∧
      (s.takeHeld).cmd.lockChange = s.cmd.lockChange ∧ (s.takeHeld).cmd.errorThreshold = s.cmd.errorThreshold ∧
      (s.takeHeld).cmd.glitch = s.cmd.glitch ∧ (s.takeHeld).cmd.activity = s.cmd.activity ∧
      (s.takeHeld).cmd.pending = s.cmd.pending := by
  unfold State.takeHeld; split <;> simp

@[simp] theorem State.formRead_frame (k : ReadKind) :
    (s.formRead k).pfe = s.pfe ∧ (s.formRead k).lvl = s.lvl ∧ (s.formRead k).cal = s.cal ∧
      (s.formRead k).dec = s.dec ∧ (s.formRead k).trg = s.trg ∧ (s.formRead k).dsp = s.dsp ∧
      (s.formRead k).pending = s.pending ∧ (s.formRead k).cap.dram = s.cap.dram ∧
      (s.formRead k).cap.staged = s.cap.staged ∧ (s.formRead k).cap.stagedAnnotations = s.cap.stagedAnnotations ∧
      (s.formRead k).cap.encoder = s.cap.encoder ∧ (s.formRead k).cap.fires = s.cap.fires ∧
      (s.formRead k).cap.poolThreshold = s.cap.poolThreshold ∧ (s.formRead k).cmd.mask = s.cmd.mask := by
  unfold State.formRead; split
  · split <;> simp
  · simp

@[simp] theorem State.endFrame_frame :
    (s.endFrame).pfe = s.pfe ∧ (s.endFrame).lvl = s.lvl ∧ (s.endFrame).cal = s.cal ∧ (s.endFrame).dec = s.dec ∧
      (s.endFrame).trg = s.trg ∧ (s.endFrame).dsp = s.dsp ∧ (s.endFrame).pending = s.pending ∧
      (s.endFrame).cap.dram = s.cap.dram ∧ (s.endFrame).cap.staged = s.cap.staged ∧
      (s.endFrame).cap.stagedAnnotations = s.cap.stagedAnnotations ∧ (s.endFrame).cap.encoder = s.cap.encoder ∧
      (s.endFrame).cap.fires = s.cap.fires ∧ (s.endFrame).cap.poolThreshold = s.cap.poolThreshold ∧
      (s.endFrame).cap.port = s.cap.port ∧ (s.endFrame).cap.pages = s.cap.pages ∧
      (s.endFrame).cap.pool = s.cap.pool ∧ (s.endFrame).cap.segments = s.cap.segments ∧
      (s.endFrame).cmd.mask = s.cmd.mask ∧ (s.endFrame).cmd.lockChange = s.cmd.lockChange ∧
      (s.endFrame).cmd.errorThreshold = s.cmd.errorThreshold ∧ (s.endFrame).cmd.glitch = s.cmd.glitch ∧
      (s.endFrame).cmd.activity = s.cmd.activity ∧ (s.endFrame).cmd.pending = s.cmd.pending := by
  unfold State.endFrame; simp

@[simp] theorem State.softReset_frame :
    (s.softReset).pending = s.pending ∧ (s.softReset).cmd.mask = s.cmd.mask ∧ (s.softReset).cmd.frame = s.cmd.frame ∧
      (s.softReset).cmd.response = s.cmd.response ∧ (s.softReset).cmd.held = s.cmd.held ∧
      (s.softReset).cap.dram = s.cap.dram ∧ (s.softReset).cap.poolThreshold = s.cap.poolThreshold ∧
      (s.softReset).pfe.thresholds = s.pfe.thresholds ∧ (s.softReset).pfe.full = s.pfe.full ∧
      (s.softReset).pfe.economy = s.pfe.economy ∧ (s.softReset).pfe.active = s.pfe.active ∧
      (s.softReset).pfe.glitchThreshold = s.pfe.glitchThreshold ∧ (s.softReset).pfe.quietTime = s.pfe.quietTime ∧
      (s.softReset).lvl.level = s.lvl.level ∧ (s.softReset).lvl.transition = s.lvl.transition ∧
      (s.softReset).dec.level = s.dec.level ∧ (s.softReset).dec.threshold = s.dec.threshold ∧
      (s.softReset).trg.units = s.trg.units ∧ (s.softReset).trg.branches = s.trg.branches := by
  unfold State.softReset; simp [Pfe.softReset, Lvl.softReset, Cap.softReset, Dec.softReset, Trg.softReset, Cmd.softReset, Cmd.emptied]

@[simp] theorem State.abortSegment_frame (i : SegId) :
    (s.abortSegment i).1.cal = s.cal ∧ (s.abortSegment i).1.dsp = s.dsp ∧ (s.abortSegment i).1.pending = s.pending ∧
      (s.abortSegment i).1.cmd.mask = s.cmd.mask ∧ (s.abortSegment i).1.cmd.frame = s.cmd.frame ∧
      (s.abortSegment i).1.cmd.response = s.cmd.response ∧ (s.abortSegment i).1.cmd.held = s.cmd.held ∧
      (s.abortSegment i).1.cap.dram = s.cap.dram ∧ (s.abortSegment i).1.cap.read = s.cap.read ∧
      (s.abortSegment i).1.cap.poolThreshold = s.cap.poolThreshold ∧ (s.abortSegment i).1.dec.level = s.dec.level ∧
      (s.abortSegment i).1.dec.setA = s.dec.setA ∧ (s.abortSegment i).1.dec.setB = s.dec.setB ∧
      (s.abortSegment i).1.dec.queue = s.dec.queue ∧ (s.abortSegment i).1.dec.isOpen = s.dec.isOpen ∧
      (s.abortSegment i).1.dec.lost = s.dec.lost ∧ (s.abortSegment i).1.dec.span = s.dec.span ∧
      (s.abortSegment i).1.dec.threshold = s.dec.threshold ∧ (s.abortSegment i).1.dec.armed = s.dec.armed ∧
      (s.abortSegment i).1.pfe.thresholds = s.pfe.thresholds ∧ (s.abortSegment i).1.pfe.full = s.pfe.full ∧
      (s.abortSegment i).1.pfe.economy = s.pfe.economy ∧ (s.abortSegment i).1.pfe.active = s.pfe.active ∧
      (s.abortSegment i).1.pfe.quietTime = s.pfe.quietTime ∧
      (s.abortSegment i).1.pfe.glitchThreshold = s.pfe.glitchThreshold ∧
      (s.abortSegment i).1.trg.units = s.trg.units ∧ (s.abortSegment i).1.trg.branches = s.trg.branches ∧
      (s.abortSegment i).1.lvl.level = s.lvl.level ∧ (s.abortSegment i).1.lvl.count = s.lvl.count ∧
      (s.abortSegment i).1.lvl.exhausted = s.lvl.exhausted := by
  unfold State.abortSegment
  dsimp only
  split <;> simp [Trg.halt]

end Sys2Proof.Machine
end

