-- ==== Sys2Proof/Laws/Banks.lean ====
section
/-! SUPPORT. Laws/Banks.lean: what the operations over banks, sets and byte fields give. -/

namespace Sys2Proof.Machine

@[simp] theorem mapIds_get {α β : Type} {n : Nat} (v : Vector α n) (f : Fin n → α → β) (i : Fin n) :
    (mapIds v f)[i] = f i v[i] := by
  simp [mapIds]

theorem modifyId_get {α : Type} {n : Nat} (v : Vector α n) (i j : Fin n) (f : α → α) :
    (modifyId v i f)[j] = if j = i then f v[i] else v[j] := by
  simp only [modifyId, Fin.getElem_fin, Vector.getElem_set, Fin.ext_iff]
  simp only [eq_comm]

theorem set_get {α : Type} {n : Nat} (v : Vector α n) (i j : Fin n) (x : α) :
    (v.set i x)[j] = if j = i then x else v[j] := by
  simp only [Fin.getElem_fin, Vector.getElem_set, Fin.ext_iff]
  simp only [eq_comm]

/-- Member `k` of a set folded from a list of members. -/
theorem foldl_twoPow_getLsbD {w : Nat} (p : Fin w → Bool) (l : List (Fin w)) (m : BitVec w) (k : Fin w) :
    (l.foldl (fun m i => if p i then m ||| BitVec.twoPow w i.val else m) m).getLsbD k.val
      = (m.getLsbD k.val || (p k && decide (k ∈ l))) := by
  induction l generalizing m with
  | nil => simp
  | cons a l ih =>
    rw [List.foldl_cons, ih]
    by_cases h : k = a
    · subst h
      cases hp : p k <;> simp
    · have hv : ¬ k.val = a.val := fun e => h (Fin.ext e)
      cases hp : p a <;> simp [h, hv]

/-- The set of the members that satisfy `p` holds exactly them. -/
@[simp] theorem inSet_setOf {w : Nat} (p : Fin w → Bool) (k : Fin w) : inSet (setOf p) k.val = p k := by
  rw [inSet, setOf, foldl_twoPow_getLsbD]
  simp [everyId]

theorem setOf_getLsbD {w : Nat} (p : Fin w → Bool) (k : Fin w) : (setOf p).getLsbD k.val = p k := inSet_setOf p k

/-- A set is empty exactly when no member satisfies its condition. -/
theorem setOf_eq_zero {w : Nat} (p : Fin w → Bool) : setOf p = 0#w ↔ ∀ k, p k = false := by
  constructor
  · intro h k
    rw [← setOf_getLsbD p k, h]
    simp
  · intro h
    apply BitVec.eq_of_getLsbD_eq
    intro i hi
    rw [setOf_getLsbD p ⟨i, hi⟩, h]
    simp

/-- A number read from a byte below the bound. -/
theorem idOf_of_lt {n : Nat} (b : Byte) (h : b.toNat < n) : idOf n b = some ⟨b.toNat, h⟩ := by simp [idOf, h]

/-- A byte at or above the bound names nothing. -/
theorem idOf_of_le {n : Nat} (b : Byte) (h : n ≤ b.toNat) : idOf n b = none := by
  simp [idOf, Nat.not_lt.mpr h]

@[simp] theorem leBytes_length (n v : Nat) : (leBytes n v).length = n := by
  induction n generalizing v with
  | zero => rfl
  | succ n ih => simp [leBytes, ih]

/-- A number written in enough bytes reads back. -/
theorem ofLe_leBytes (n v : Nat) : ofLe (leBytes n v) = v % 256 ^ n := by
  induction n generalizing v with
  | zero => simp [leBytes, ofLe, Nat.mod_one]
  | succ n ih =>
    have step : 256 ^ (n + 1) = 256 * 256 ^ n := by rw [Nat.pow_succ, Nat.mul_comm]
    rw [leBytes, ofLe, ih, BitVec.toNat_ofNat, step, Nat.mod_mul]

end Sys2Proof.Machine
end

