-- ==== Sys2Proof/Laws/Memory.lean ====
section
/-! SUPPORT. Laws/Memory.lean: reading after writing, and that every memory operation keeps the canonical form. -/

namespace Sys2Proof.Machine

/-! ## Sparse lists -/

/-- A write leaves every other place alone, and its own place reads as written. -/
theorem Sparse.get_set {α : Type} [DecidableEq α] (dflt : Nat → α) (m : List (Nat × α)) (hm : Sparse.wf dflt m)
    (k j : Nat) (v : α) :
    Sparse.get dflt (Sparse.set dflt m k v) j = if j = k then v else Sparse.get dflt m j := by
  induction m with
  | nil =>
    by_cases h : v = dflt k <;> by_cases e : j = k
    · subst e; simp [Sparse.set, Sparse.get, h]
    · simp [Sparse.set, Sparse.get, h, e]
    · subst e; simp [Sparse.set, Sparse.get, h]
    · simp [Sparse.set, Sparse.get, h, e, Ne.symm e]
  | cons c m ih =>
    obtain ⟨a, w⟩ := c
    obtain ⟨hp, hd⟩ := hm
    rw [List.pairwise_cons] at hp
    have hwf : Sparse.wf dflt m := ⟨hp.2, fun c hc => hd c (List.mem_cons_of_mem _ hc)⟩
    have absent : ∀ (l : List (Nat × α)) (x : Nat), (∀ c ∈ l, c.1 ≠ x) → Sparse.get dflt l x = dflt x := by
      intro l x hl
      induction l with
      | nil => rfl
      | cons b l ih' =>
        simp only [Sparse.get]
        rw [if_neg (hl b (List.mem_cons_self ..))]
        exact ih' fun c hc => hl c (List.mem_cons_of_mem _ hc)
    unfold Sparse.set
    by_cases hlt : k < a
    · rw [if_pos hlt]
      have habs : Sparse.get dflt ((a, w) :: m) k = dflt k := by
        apply absent
        intro c hc
        rcases List.mem_cons.mp hc with rfl | hc
        · exact Nat.ne_of_gt hlt
        · exact Nat.ne_of_gt (Nat.lt_trans hlt (hp.1 c hc))
      by_cases hv : v = dflt k
      · rw [if_pos hv]
        by_cases e : j = k
        · subst e; rw [if_pos rfl, habs, hv]
        · rw [if_neg e]
      · rw [if_neg hv]
        by_cases e : j = k
        · subst e; simp [Sparse.get]
        · rw [if_neg e]; rw [Sparse.get, if_neg (fun h => e h.symm)]
    · rw [if_neg hlt]
      by_cases hka : k = a
      · subst hka
        rw [if_pos rfl]
        have habs : Sparse.get dflt m k = dflt k := absent m k fun c hc => Nat.ne_of_gt (hp.1 c hc)
        by_cases hv : v = dflt k
        · rw [if_pos hv]
          by_cases e : j = k
          · subst e; rw [if_pos rfl, habs, hv]
          · rw [if_neg e]; rw [Sparse.get, if_neg (fun h => e h.symm)]
        · rw [if_neg hv]
          by_cases e : j = k
          · subst e; simp [Sparse.get]
          · rw [if_neg e]
            rw [Sparse.get, if_neg (fun h => e h.symm), Sparse.get, if_neg (fun h => e h.symm)]
      · rw [if_neg hka]
        rw [Sparse.get, Sparse.get, ih hwf]
        by_cases haj : a = j
        · subst haj; rw [if_pos rfl, if_pos rfl, if_neg (fun h => hka h.symm)]
        · rw [if_neg haj, if_neg haj]

/-- The keys of a list after a write: its own keys and perhaps the one written. -/
theorem Sparse.set_mem {α : Type} [DecidableEq α] (dflt : Nat → α) (m : List (Nat × α)) (k : Nat) (v : α)
    (c : Nat × α) (hc : c ∈ Sparse.set dflt m k v) : c ∈ m ∨ (c = (k, v) ∧ v ≠ dflt k) := by
  induction m with
  | nil =>
    unfold Sparse.set at hc
    split at hc
    · simp at hc
    · exact .inr ⟨by simpa using hc, ‹_›⟩
  | cons b m ih =>
    unfold Sparse.set at hc
    split at hc
    · split at hc
      · exact .inl hc
      · rcases List.mem_cons.mp hc with h | h
        · exact .inr ⟨h, ‹_›⟩
        · exact .inl h
    · split at hc
      · split at hc
        · exact .inl (List.mem_cons_of_mem _ hc)
        · rcases List.mem_cons.mp hc with h | h
          · exact .inr ⟨h, ‹_›⟩
          · exact .inl (List.mem_cons_of_mem _ h)
      · rcases List.mem_cons.mp hc with h | h
        · exact .inl (h ▸ List.mem_cons_self ..)
        · rcases ih h with h | h
          · exact .inl (List.mem_cons_of_mem _ h)
          · exact .inr h

/-- A write keeps the canonical form. -/
theorem Sparse.set_wf {α : Type} [DecidableEq α] (dflt : Nat → α) (m : List (Nat × α)) (hm : Sparse.wf dflt m)
    (k : Nat) (v : α) : Sparse.wf dflt (Sparse.set dflt m k v) := by
  constructor
  · induction m with
    | nil => unfold Sparse.set; split <;> simp
    | cons b m ih =>
      obtain ⟨hp, hd⟩ := hm
      have hp' := List.pairwise_cons.mp hp
      unfold Sparse.set
      split
      · split
        · exact hp
        · refine List.pairwise_cons.mpr ⟨?_, hp⟩
          intro c hc
          rcases List.mem_cons.mp hc with rfl | hc
          · assumption
          · exact Nat.lt_trans ‹_› (hp'.1 c hc)
      · split
        · subst_vars
          split
          · exact hp'.2
          · exact List.pairwise_cons.mpr ⟨fun c hc => hp'.1 c hc, hp'.2⟩
        · refine List.pairwise_cons.mpr ⟨?_, ih ⟨hp'.2, fun c hc => hd c (List.mem_cons_of_mem _ hc)⟩⟩
          intro c hc
          rcases Sparse.set_mem dflt m k v c hc with h | h
          · exact hp'.1 c h
          · rw [h.1]; simp only; omega
  · intro c hc
    rcases Sparse.set_mem dflt m k v c hc with h | h
    · exact hm.2 c h
    · rw [h.1]; exact h.2

/-! ## DRAM -/

theorem Memory.write_wf {m : Memory} (hm : Memory.wf m) (a : Nat) (b : Byte) : Memory.wf (Memory.write m a b) :=
  Sparse.set_wf dramDefault m hm a b

theorem Memory.read_write {m : Memory} (hm : Memory.wf m) (a j : Nat) (b : Byte) :
    Memory.read (Memory.write m a b) j = if j = a then b else Memory.read m j :=
  Sparse.get_set dramDefault m hm a j b

theorem Memory.writeBytes_wf {m : Memory} (hm : Memory.wf m) (a : Nat) (bs : List Byte) :
    Memory.wf (Memory.writeBytes m a bs) := by
  induction bs generalizing m a with
  | nil => exact hm
  | cons b bs ih => exact ih (Memory.write_wf hm a b) (a + 1)

/-- Consecutive bytes read back as written, and every other byte reads as before. -/
theorem Memory.read_writeBytes {m : Memory} (hm : Memory.wf m) (a j : Nat) (bs : List Byte) :
    Memory.read (Memory.writeBytes m a bs) j
      = if a ≤ j ∧ j < a + bs.length then bs.getD (j - a) 0#8 else Memory.read m j := by
  induction bs generalizing m a with
  | nil =>
    have h : ¬ (a ≤ j ∧ j < a + 0) := by omega
    simp [Memory.writeBytes]
  | cons b bs ih =>
    rw [Memory.writeBytes, ih (Memory.write_wf hm a b), Memory.read_write hm]
    by_cases h1 : a + 1 ≤ j ∧ j < a + 1 + bs.length
    · have h2 : a ≤ j ∧ j < a + (b :: bs).length := by simp only [List.length_cons]; omega
      rw [if_pos h1, if_pos h2]
      have : j - a = (j - (a + 1)) + 1 := by omega
      rw [this, List.getD_cons_succ]
    · rw [if_neg h1]
      by_cases e : j = a
      · have h2 : a ≤ j ∧ j < a + (b :: bs).length := by simp only [List.length_cons]; omega
        rw [if_pos h2, if_pos e, e, Nat.sub_self, List.getD_cons_zero]
      · have h2 : ¬ (a ≤ j ∧ j < a + (b :: bs).length) := by simp only [List.length_cons]; omega
        rw [if_neg h2, if_neg e]

/-- A staged entry reaches DRAM with the canonical form kept. -/
theorem StagedEntry.writeTo_wf (e : StagedEntry) {m : Memory} (hm : Memory.wf m) : Memory.wf (e.writeTo m) := by
  unfold StagedEntry.writeTo
  cases e.header with
  | none => exact Memory.writeBytes_wf hm _ _
  | some h => exact Memory.writeBytes_wf (Memory.writeBytes_wf hm _ _) _ _

/-- A staged annotation reaches DRAM with the canonical form kept. -/
theorem StagedAnnotation.writeTo_wf (a : StagedAnnotation) {m : Memory} (hm : Memory.wf m) : Memory.wf (a.writeTo m) :=
  Memory.writeBytes_wf hm _ _

/-- A drain keeps the canonical form of DRAM. -/
theorem Cap.drainOne_wf (c : Cap) (hm : Memory.wf c.dram) : Memory.wf c.drainOne.dram := by
  rw [Cap.drainOne]
  cases c.nextDrain with
  | transition =>
    cases c.staged with
    | nil => exact hm
    | cons e rest =>
      show Memory.wf (e.writeTo c.dram)
      exact e.writeTo_wf hm
  | annotation =>
    cases c.stagedAnnotations with
    | nil => exact hm
    | cons a rest =>
      show Memory.wf (a.writeTo c.dram)
      exact a.writeTo_wf hm

/-! ## The page map -/

theorem PageMap.set_wf {m : PageMap} (hm : PageMap.wf m) (p : Nat) (e : PageEntry) : PageMap.wf (PageMap.set m p e) :=
  Sparse.set_wf pageDefault m hm p e

theorem PageMap.get_set {m : PageMap} (hm : PageMap.wf m) (p q : Nat) (e : PageEntry) :
    PageMap.get (PageMap.set m p e) q = if q = p then e else PageMap.get m q :=
  Sparse.get_set pageDefault m hm p q e

theorem PageMap.setNext_wf {m : PageMap} (hm : PageMap.wf m) (p : Nat) (next : Option Nat) :
    PageMap.wf (PageMap.setNext m p next) := PageMap.set_wf hm p _

theorem PageMap.setOwner_wf {m : PageMap} (hm : PageMap.wf m) (p : Nat) (owner : PageOwner) :
    PageMap.wf (PageMap.setOwner m p owner) := PageMap.set_wf hm p _

theorem linkPage_wf {m : PageMap} (hm : PageMap.wf m) (c : Chain) (p : Nat) (owner : PageOwner) :
    PageMap.wf (linkPage m c p owner).1 := by
  unfold linkPage
  cases c.tail with
  | none => exact PageMap.set_wf hm _ _
  | some t => exact PageMap.setNext_wf (PageMap.set_wf hm _ _) _ _

theorem ownPages_wf {m : PageMap} (hm : PageMap.wf m) (owner : PageOwner) (ps : List Nat) :
    PageMap.wf (ownPages m owner ps) := by
  induction ps generalizing m with
  | nil => exact hm
  | cons p ps ih => exact ih (PageMap.setOwner_wf hm p owner)

theorem rotateChain_wf {m : PageMap} (hm : PageMap.wf m) (c : Chain) : PageMap.wf (rotateChain m c).1 := by
  unfold rotateChain
  split
  · exact hm
  · split
    · exact PageMap.setNext_wf (PageMap.setNext_wf hm _ _) _ _
    · exact hm

/-! ## The reset state -/

theorem reset_memory_wf : Memory.wf State.reset.cap.dram := ⟨List.Pairwise.nil, by intro c hc; cases hc⟩

theorem reset_pages_wf : PageMap.wf State.reset.cap.pages := ⟨List.Pairwise.nil, by intro c hc; cases hc⟩

end Sys2Proof.Machine
end

