-- ==== Sys2Proof/Laws/Port.lean ====
section
/-! SUPPORT. Laws/Port.lean: everything the command port can do with a request, and one step of the device. -/

namespace Sys2Proof.Machine

theorem portOpen_iff (s : State) : s.portOpen = true ↔ s.takesRequests := by
  simp [State.portOpen, State.takesRequests, Option.isNone_iff_eq_none]

theorem resting_iff (s : State) : s.resting = true ↔ s.restsInStandby := by
  simp [State.resting, State.restsInStandby]

theorem not_resting {s : State} (h : ¬ s.restsInStandby) : s.resting = false :=
  Bool.eq_false_iff.mpr fun e => h ((resting_iff s).mp e)

/-- Outside an open request frame a request has no effect. -/
theorem request_closed {s : State} (h : ¬ s.takesRequests) (a : Bool) (f : Fit) (b : State → State × Response) :
    request a f b s = s := by
  exact if_neg fun e => h ((portOpen_iff s).mp e)

/-- Resting in STANDBY, a request that is not admitted is answered LEVEL (R19). -/
theorem request_standby {s : State} (h : s.takesRequests) (r : s.restsInStandby) (f : Fit)
    (b : State → State × Response) : request false f b s = s.answered .level := by
  unfold request
  rw [if_pos ((portOpen_iff s).mpr h)]
  simp [(resting_iff s).mpr r, Response.only, State.respond_eq_answered]

/-- Too few parameter bytes are BAD_PARAM (R179). -/
theorem request_short {s : State} (h : s.takesRequests) (a : Bool) (r : a = true ∨ ¬ s.restsInStandby)
    (b : State → State × Response) : request a .short b s = s.answered .badParam := by
  have hr : (s.resting && !a) = false := by
    rcases r with r | r
    · simp [r]
    · rw [not_resting r, Bool.false_and]
  unfold request
  rw [if_pos ((portOpen_iff s).mpr h), hr]
  simp [Response.only, State.respond_eq_answered]

/-- A request that reaches its block is applied as one event and its response formed (R178). -/
theorem request_enough {s : State} (h : s.takesRequests) (a : Bool) (r : a = true ∨ ¬ s.restsInStandby)
    (b : State → State × Response) : request a .enough b s = (b s).1.respond (b s).2 := by
  have hr : (s.resting && !a) = false := by
    rcases r with r | r
    · simp [r]
    · rw [not_resting r, Bool.false_and]
  unfold request
  rw [if_pos ((portOpen_iff s).mpr h), hr]
  simp

theorem request_admitted {s : State} (h : s.admits) (a : Bool) (b : State → State × Response) :
    request a .enough b s = (b s).1.respond (b s).2 := request_enough h.1 a (.inr h.2) b

/-- Everything a request can do. -/
theorem request_cases (a : Bool) (f : Fit) (b : State → State × Response) (s : State) :
    request a f b s = s ∨ request a f b s = s.answered .level ∨ request a f b s = s.answered .badParam
      ∨ (f = .enough ∧ request a f b s = (b s).1.respond (b s).2) := by
  unfold request
  split
  · split
    · exact .inr (.inl rfl)
    · cases f
      · exact .inr (.inr (.inr ⟨rfl, rfl⟩))
      · exact .inr (.inr (.inl rfl))
  · exact .inl rfl

/-- What a response and a body leave alone, the request leaves alone. -/
theorem request_keeps {α : Type} (φ : State → α) (hφ : ∀ s r, φ (State.respond s r) = φ s)
    (a : Bool) (f : Fit) (b : State → State × Response) (s : State) (hb : φ (b s).1 = φ s) :
    φ (request a f b s) = φ s := by
  rcases request_cases a f b s with h | h | h | ⟨-, h⟩ <;> rw [h]
  · exact hφ s ⟨_, _⟩
  · exact hφ s ⟨_, _⟩
  · rw [hφ, hb]

/-- An invariant that responses and a body keep is kept by the request. -/
theorem request_inv {P : State → Prop} (hP : ∀ s r, P s → P (State.respond s r))
    (a : Bool) (f : Fit) (b : State → State × Response) (s : State) (h : P s) (hb : P (b s).1) :
    P (request a f b s) := by
  rcases request_cases a f b s with e | e | e | ⟨-, e⟩ <;> rw [e]
  · exact h
  · exact hP s ⟨_, _⟩ h
  · exact hP s ⟨_, _⟩ h
  · exact hP _ _ hb

/-- One step runs the command at the front with the queue's rest. -/
theorem step_front {s : State} {c : Instr} {rest : List Instr} (h : s.pending = c :: rest) :
    step s = exec c (s.setPending rest) := by
  unfold step; rw [h]

end Sys2Proof.Machine
end

