-- ==== Sys2Proof/Laws/Bodies.lean ====
section
/-! SUPPORT. Laws/Bodies.lean: what the body of each request leaves alone. -/

namespace Sys2Proof.Machine

variable (s : State)

/-- What the body leaves alone for every segment, the request leaves alone. -/
theorem onSegment_keeps {α : Type} (φ : State → α) (b : Byte) (body : SegId → State → State × Response)
    (h : ∀ i, φ (body i s).1 = φ s) : φ (onSegment b body s).1 = φ s := by
  unfold onSegment; split
  · exact h _
  · rfl

/-- What the body leaves alone for every context, the request leaves alone. -/
theorem onContext_keeps {α : Type} (φ : State → α) (b : Byte) (body : CtxId → State → State × Response)
    (h : ∀ i, φ (body i s).1 = φ s) : φ (onContext b body s).1 = φ s := by
  unfold onContext; split
  · exact h _
  · rfl

/-- What the body leaves alone for every open context, the request leaves alone. -/
theorem onOpenContext_keeps {α : Type} (φ : State → α) (b : Byte) (body : CtxId → State → State × Response)
    (h : ∀ i, φ (body i s).1 = φ s) : φ (onOpenContext b body s).1 = φ s := by
  unfold onOpenContext
  refine onContext_keeps s φ b _ fun i => ?_
  split
  · rfl
  · exact h i

@[simp] theorem bodyThresholdSet_frame (p c : Byte) :
    (bodyThresholdSet p c s).1.lvl = s.lvl ∧ (bodyThresholdSet p c s).1.cal = s.cal ∧
      (bodyThresholdSet p c s).1.cap = s.cap ∧ (bodyThresholdSet p c s).1.dec = s.dec ∧
      (bodyThresholdSet p c s).1.trg = s.trg ∧ (bodyThresholdSet p c s).1.dsp = s.dsp ∧
      (bodyThresholdSet p c s).1.cmd = s.cmd ∧ (bodyThresholdSet p c s).1.pending = s.pending := by
  unfold bodyThresholdSet; repeat' split
  all_goals simp

@[simp] theorem writeFrontEnd_frame (l : Byte) (f : FrontEnd → FrontEnd) :
    (writeFrontEnd l f s).1.lvl = s.lvl ∧ (writeFrontEnd l f s).1.cal = s.cal ∧ (writeFrontEnd l f s).1.cap = s.cap ∧
      (writeFrontEnd l f s).1.dec = s.dec ∧ (writeFrontEnd l f s).1.trg = s.trg ∧
      (writeFrontEnd l f s).1.dsp = s.dsp ∧ (writeFrontEnd l f s).1.cmd = s.cmd ∧
      (writeFrontEnd l f s).1.pending = s.pending := by
  unfold writeFrontEnd; repeat' split
  all_goals simp

@[simp] theorem bodyFrontEndRead_frame (l : Byte) :
    (bodyFrontEndRead l s).1.pfe = s.pfe ∧ (bodyFrontEndRead l s).1.lvl = s.lvl ∧
      (bodyFrontEndRead l s).1.cal = s.cal ∧ (bodyFrontEndRead l s).1.cap = s.cap ∧
      (bodyFrontEndRead l s).1.dec = s.dec ∧ (bodyFrontEndRead l s).1.trg = s.trg ∧
      (bodyFrontEndRead l s).1.dsp = s.dsp ∧ (bodyFrontEndRead l s).1.cmd = s.cmd ∧
      (bodyFrontEndRead l s).1.pending = s.pending := by
  unfold bodyFrontEndRead; split <;> simp

@[simp] theorem bodyLinesRead_frame :
    (bodyLinesRead s).1.pfe = s.pfe ∧ (bodyLinesRead s).1.lvl = s.lvl ∧ (bodyLinesRead s).1.cal = s.cal ∧
      (bodyLinesRead s).1.cap = s.cap ∧ (bodyLinesRead s).1.dec = s.dec ∧ (bodyLinesRead s).1.trg = s.trg ∧
      (bodyLinesRead s).1.dsp = s.dsp ∧ (bodyLinesRead s).1.cmd = s.cmd ∧ (bodyLinesRead s).1.pending = s.pending := by
  simp [bodyLinesRead]

@[simp] theorem bodyMonitorSet_frame (a : Bool) (n : Nat) (b : Bool) (m : Nat) :
    (bodyMonitorSet a n b m s).1.lvl = s.lvl ∧ (bodyMonitorSet a n b m s).1.cal = s.cal ∧
      (bodyMonitorSet a n b m s).1.cap = s.cap ∧ (bodyMonitorSet a n b m s).1.dec = s.dec ∧
      (bodyMonitorSet a n b m s).1.trg = s.trg ∧ (bodyMonitorSet a n b m s).1.dsp = s.dsp ∧
      (bodyMonitorSet a n b m s).1.pending = s.pending ∧ (bodyMonitorSet a n b m s).1.cmd.mask = s.cmd.mask ∧
      (bodyMonitorSet a n b m s).1.cmd.frame = s.cmd.frame ∧
      (bodyMonitorSet a n b m s).1.cmd.response = s.cmd.response ∧
      (bodyMonitorSet a n b m s).1.cmd.held = s.cmd.held ∧
      (bodyMonitorSet a n b m s).1.pfe.thresholds = s.pfe.thresholds := by
  unfold bodyMonitorSet; dsimp only; split <;> split <;> simp

@[simp] theorem bodyMonitorRead_frame (c : Lines) :
    (bodyMonitorRead c s).1.lvl = s.lvl ∧ (bodyMonitorRead c s).1.cal = s.cal ∧ (bodyMonitorRead c s).1.cap = s.cap ∧
      (bodyMonitorRead c s).1.dec = s.dec ∧ (bodyMonitorRead c s).1.trg = s.trg ∧
      (bodyMonitorRead c s).1.dsp = s.dsp ∧ (bodyMonitorRead c s).1.cmd = s.cmd ∧
      (bodyMonitorRead c s).1.pending = s.pending ∧ (bodyMonitorRead c s).1.pfe.thresholds = s.pfe.thresholds := by
  simp [bodyMonitorRead]

@[simp] theorem bodySetLevel_frame (l : Byte) :
    (bodySetLevel l s).1.cal = s.cal ∧ (bodySetLevel l s).1.dsp = s.dsp ∧ (bodySetLevel l s).1.pending = s.pending ∧
      (bodySetLevel l s).1.cmd.mask = s.cmd.mask ∧ (bodySetLevel l s).1.cmd.frame = s.cmd.frame ∧
      (bodySetLevel l s).1.cmd.response = s.cmd.response ∧ (bodySetLevel l s).1.cmd.held = s.cmd.held ∧
      (bodySetLevel l s).1.cap.dram = s.cap.dram ∧ (bodySetLevel l s).1.lvl.level = s.lvl.level ∧
      (bodySetLevel l s).1.lvl.count = s.lvl.count ∧ (bodySetLevel l s).1.lvl.exhausted = s.lvl.exhausted ∧
      (bodySetLevel l s).1.trg.units = s.trg.units ∧ (bodySetLevel l s).1.trg.branches = s.trg.branches ∧
      (bodySetLevel l s).1.pfe.thresholds = s.pfe.thresholds := by
  unfold bodySetLevel; repeat' split
  all_goals simp

@[simp] theorem bodyLevelStatus_frame :
    (bodyLevelStatus s).1.pfe = s.pfe ∧ (bodyLevelStatus s).1.lvl = s.lvl ∧ (bodyLevelStatus s).1.cal = s.cal ∧
      (bodyLevelStatus s).1.cap = s.cap ∧ (bodyLevelStatus s).1.dec = s.dec ∧ (bodyLevelStatus s).1.trg = s.trg ∧
      (bodyLevelStatus s).1.dsp = s.dsp ∧ (bodyLevelStatus s).1.cmd = s.cmd ∧
      (bodyLevelStatus s).1.pending = s.pending := by
  simp [bodyLevelStatus]

@[simp] theorem bodyCalibrate_frame (c : Lines) (a b : Nat) :
    (bodyCalibrate c a b s).1.pfe = s.pfe ∧ (bodyCalibrate c a b s).1.lvl = s.lvl ∧
      (bodyCalibrate c a b s).1.cap = s.cap ∧ (bodyCalibrate c a b s).1.trg = s.trg ∧
      (bodyCalibrate c a b s).1.dsp = s.dsp ∧ (bodyCalibrate c a b s).1.cmd = s.cmd ∧
      (bodyCalibrate c a b s).1.pending = s.pending := by
  unfold bodyCalibrate; split <;> simp

@[simp] theorem bodyCalibrationAbort_frame :
    (bodyCalibrationAbort s).1.pfe = s.pfe ∧ (bodyCalibrationAbort s).1.lvl = s.lvl ∧
      (bodyCalibrationAbort s).1.cap = s.cap ∧ (bodyCalibrationAbort s).1.trg = s.trg ∧
      (bodyCalibrationAbort s).1.dsp = s.dsp ∧ (bodyCalibrationAbort s).1.pending = s.pending ∧
      (bodyCalibrationAbort s).1.cmd.mask = s.cmd.mask ∧ (bodyCalibrationAbort s).1.cmd.frame = s.cmd.frame ∧
      (bodyCalibrationAbort s).1.cmd.response = s.cmd.response ∧ (bodyCalibrationAbort s).1.cmd.held = s.cmd.held := by
  unfold bodyCalibrationAbort; split <;> simp

@[simp] theorem bodyReadCalibration_frame :
    (bodyReadCalibration s).1.pfe = s.pfe ∧ (bodyReadCalibration s).1.lvl = s.lvl ∧
      (bodyReadCalibration s).1.cal = s.cal ∧ (bodyReadCalibration s).1.cap = s.cap ∧
      (bodyReadCalibration s).1.dec = s.dec ∧ (bodyReadCalibration s).1.trg = s.trg ∧
      (bodyReadCalibration s).1.dsp = s.dsp ∧ (bodyReadCalibration s).1.cmd = s.cmd ∧
      (bodyReadCalibration s).1.pending = s.pending := by
  simp [bodyReadCalibration]

@[simp] theorem bodyPoolThresholdSet_frame (n : Nat) :
    (bodyPoolThresholdSet n s).1.pfe = s.pfe ∧ (bodyPoolThresholdSet n s).1.lvl = s.lvl ∧
      (bodyPoolThresholdSet n s).1.cal = s.cal ∧ (bodyPoolThresholdSet n s).1.dec = s.dec ∧
      (bodyPoolThresholdSet n s).1.trg = s.trg ∧ (bodyPoolThresholdSet n s).1.dsp = s.dsp ∧
      (bodyPoolThresholdSet n s).1.pending = s.pending ∧ (bodyPoolThresholdSet n s).1.cmd.mask = s.cmd.mask ∧
      (bodyPoolThresholdSet n s).1.cmd.frame = s.cmd.frame ∧
      (bodyPoolThresholdSet n s).1.cmd.response = s.cmd.response ∧
      (bodyPoolThresholdSet n s).1.cmd.held = s.cmd.held ∧ (bodyPoolThresholdSet n s).1.cap.dram = s.cap.dram ∧
      (bodyPoolThresholdSet n s).1.cap.pages = s.cap.pages ∧
      (bodyPoolThresholdSet n s).1.cap.segments = s.cap.segments ∧
      (bodyPoolThresholdSet n s).1.cap.staged = s.cap.staged ∧
      (bodyPoolThresholdSet n s).1.cap.stagedAnnotations = s.cap.stagedAnnotations := by
  simp [bodyPoolThresholdSet]

@[simp] theorem bodyPoolStatus_frame :
    (bodyPoolStatus s).1.pfe = s.pfe ∧ (bodyPoolStatus s).1.lvl = s.lvl ∧ (bodyPoolStatus s).1.cal = s.cal ∧
      (bodyPoolStatus s).1.cap = s.cap ∧ (bodyPoolStatus s).1.dec = s.dec ∧ (bodyPoolStatus s).1.trg = s.trg ∧
      (bodyPoolStatus s).1.dsp = s.dsp ∧ (bodyPoolStatus s).1.cmd = s.cmd ∧ (bodyPoolStatus s).1.pending = s.pending := by
  simp [bodyPoolStatus]

@[simp] theorem bodySegmentPrepare_frame (m : Lines) (b : Nat) (t : BitVec 32) (l a : Nat) (i : SegId) :
    (bodySegmentPrepare m b t l a i s).1.pfe = s.pfe ∧ (bodySegmentPrepare m b t l a i s).1.lvl = s.lvl ∧
      (bodySegmentPrepare m b t l a i s).1.cal = s.cal ∧ (bodySegmentPrepare m b t l a i s).1.dec = s.dec ∧
      (bodySegmentPrepare m b t l a i s).1.trg = s.trg ∧ (bodySegmentPrepare m b t l a i s).1.dsp = s.dsp ∧
      (bodySegmentPrepare m b t l a i s).1.cmd = s.cmd ∧ (bodySegmentPrepare m b t l a i s).1.pending = s.pending ∧
      (bodySegmentPrepare m b t l a i s).1.cap.dram = s.cap.dram ∧
      (bodySegmentPrepare m b t l a i s).1.cap.pages = s.cap.pages ∧
      (bodySegmentPrepare m b t l a i s).1.cap.pool = s.cap.pool ∧
      (bodySegmentPrepare m b t l a i s).1.cap.staged = s.cap.staged ∧
      (bodySegmentPrepare m b t l a i s).1.cap.stagedAnnotations = s.cap.stagedAnnotations ∧
      (bodySegmentPrepare m b t l a i s).1.cap.encoder = s.cap.encoder := by
  unfold bodySegmentPrepare; split <;> simp

@[simp] theorem bodySegmentStatus_frame (i : SegId) :
    (bodySegmentStatus i s).1.pfe = s.pfe ∧ (bodySegmentStatus i s).1.lvl = s.lvl ∧
      (bodySegmentStatus i s).1.cal = s.cal ∧ (bodySegmentStatus i s).1.cap = s.cap ∧
      (bodySegmentStatus i s).1.dec = s.dec ∧ (bodySegmentStatus i s).1.trg = s.trg ∧
      (bodySegmentStatus i s).1.dsp = s.dsp ∧ (bodySegmentStatus i s).1.cmd = s.cmd ∧
      (bodySegmentStatus i s).1.pending = s.pending := by
  simp [bodySegmentStatus]

@[simp] theorem bodySegmentStart_frame (i : SegId) :
    (bodySegmentStart i s).1.pfe = s.pfe ∧ (bodySegmentStart i s).1.lvl = s.lvl ∧
      (bodySegmentStart i s).1.cal = s.cal ∧ (bodySegmentStart i s).1.dsp = s.dsp ∧
      (bodySegmentStart i s).1.pending = s.pending ∧ (bodySegmentStart i s).1.cmd.mask = s.cmd.mask ∧
      (bodySegmentStart i s).1.cmd.frame = s.cmd.frame ∧ (bodySegmentStart i s).1.cmd.response = s.cmd.response ∧
      (bodySegmentStart i s).1.cmd.held = s.cmd.held ∧ (bodySegmentStart i s).1.cap.dram = s.cap.dram ∧
      (bodySegmentStart i s).1.trg.units = s.trg.units ∧ (bodySegmentStart i s).1.trg.branches = s.trg.branches := by
  unfold bodySegmentStart; split <;> simp

@[simp] theorem bodySegmentStop_frame :
    (bodySegmentStop s).1.cal = s.cal ∧ (bodySegmentStop s).1.dsp = s.dsp ∧
      (bodySegmentStop s).1.pending = s.pending ∧ (bodySegmentStop s).1.cmd.mask = s.cmd.mask ∧
      (bodySegmentStop s).1.cmd.frame = s.cmd.frame ∧ (bodySegmentStop s).1.cmd.response = s.cmd.response ∧
      (bodySegmentStop s).1.cmd.held = s.cmd.held ∧ (bodySegmentStop s).1.cap.dram = s.cap.dram ∧
      (bodySegmentStop s).1.lvl.level = s.lvl.level ∧ (bodySegmentStop s).1.lvl.count = s.lvl.count ∧
      (bodySegmentStop s).1.lvl.exhausted = s.lvl.exhausted ∧ (bodySegmentStop s).1.trg.units = s.trg.units ∧
      (bodySegmentStop s).1.trg.branches = s.trg.branches ∧ (bodySegmentStop s).1.pfe.thresholds = s.pfe.thresholds := by
  unfold bodySegmentStop; split <;> simp

@[simp] theorem bodySegmentAbort_frame :
    (bodySegmentAbort s).1.cal = s.cal ∧ (bodySegmentAbort s).1.dsp = s.dsp ∧
      (bodySegmentAbort s).1.pending = s.pending ∧ (bodySegmentAbort s).1.cmd.mask = s.cmd.mask ∧
      (bodySegmentAbort s).1.cmd.frame = s.cmd.frame ∧ (bodySegmentAbort s).1.cmd.response = s.cmd.response ∧
      (bodySegmentAbort s).1.cmd.held = s.cmd.held ∧ (bodySegmentAbort s).1.cap.dram = s.cap.dram ∧
      (bodySegmentAbort s).1.lvl.level = s.lvl.level ∧ (bodySegmentAbort s).1.lvl.count = s.lvl.count ∧
      (bodySegmentAbort s).1.lvl.exhausted = s.lvl.exhausted ∧ (bodySegmentAbort s).1.trg.units = s.trg.units ∧
      (bodySegmentAbort s).1.trg.branches = s.trg.branches ∧ (bodySegmentAbort s).1.pfe.thresholds = s.pfe.thresholds := by
  unfold bodySegmentAbort; split <;> simp

@[simp] theorem bodySegmentRetire_frame (i : SegId) :
    (bodySegmentRetire i s).1.pfe = s.pfe ∧ (bodySegmentRetire i s).1.lvl = s.lvl ∧
      (bodySegmentRetire i s).1.cal = s.cal ∧ (bodySegmentRetire i s).1.dec = s.dec ∧
      (bodySegmentRetire i s).1.trg = s.trg ∧ (bodySegmentRetire i s).1.dsp = s.dsp ∧
      (bodySegmentRetire i s).1.pending = s.pending ∧ (bodySegmentRetire i s).1.cmd.mask = s.cmd.mask ∧
      (bodySegmentRetire i s).1.cmd.frame = s.cmd.frame ∧ (bodySegmentRetire i s).1.cmd.response = s.cmd.response ∧
      (bodySegmentRetire i s).1.cmd.held = s.cmd.held ∧ (bodySegmentRetire i s).1.cap.dram = s.cap.dram := by
  unfold bodySegmentRetire; dsimp only; repeat' split
  all_goals simp

@[simp] theorem bodyContextOpen_frame (i : CtxId) :
    (bodyContextOpen i s).1.pfe = s.pfe ∧ (bodyContextOpen i s).1.lvl = s.lvl ∧ (bodyContextOpen i s).1.cal = s.cal ∧
      (bodyContextOpen i s).1.cap = s.cap ∧ (bodyContextOpen i s).1.trg = s.trg ∧
      (bodyContextOpen i s).1.dsp = s.dsp ∧ (bodyContextOpen i s).1.cmd = s.cmd ∧
      (bodyContextOpen i s).1.pending = s.pending := by
  unfold bodyContextOpen; split <;> simp

@[simp] theorem bodyContextClose_frame (i : CtxId) :
    (bodyContextClose i s).1.pfe = s.pfe ∧ (bodyContextClose i s).1.lvl = s.lvl ∧
      (bodyContextClose i s).1.cal = s.cal ∧ (bodyContextClose i s).1.cap = s.cap ∧
      (bodyContextClose i s).1.trg = s.trg ∧ (bodyContextClose i s).1.dsp = s.dsp ∧
      (bodyContextClose i s).1.cmd = s.cmd ∧ (bodyContextClose i s).1.pending = s.pending := by
  unfold bodyContextClose; split <;> simp

@[simp] theorem bodyContextConfigure_frame (p : ConfigureParams) (i : CtxId) :
    (bodyContextConfigure p i s).1.pfe = s.pfe ∧ (bodyContextConfigure p i s).1.lvl = s.lvl ∧
      (bodyContextConfigure p i s).1.cal = s.cal ∧ (bodyContextConfigure p i s).1.cap = s.cap ∧
      (bodyContextConfigure p i s).1.trg = s.trg ∧ (bodyContextConfigure p i s).1.dsp = s.dsp ∧
      (bodyContextConfigure p i s).1.pending = s.pending ∧ (bodyContextConfigure p i s).1.cmd.mask = s.cmd.mask ∧
      (bodyContextConfigure p i s).1.cmd.frame = s.cmd.frame ∧
      (bodyContextConfigure p i s).1.cmd.response = s.cmd.response ∧
      (bodyContextConfigure p i s).1.cmd.held = s.cmd.held := by
  unfold bodyContextConfigure; split
  · simp
  · split
    · simp
    · dsimp only; split <;> simp

@[simp] theorem bodyContextStart_frame (i : CtxId) :
    (bodyContextStart i s).1.pfe = s.pfe ∧ (bodyContextStart i s).1.lvl = s.lvl ∧
      (bodyContextStart i s).1.cal = s.cal ∧ (bodyContextStart i s).1.cap = s.cap ∧
      (bodyContextStart i s).1.trg = s.trg ∧ (bodyContextStart i s).1.dsp = s.dsp ∧
      (bodyContextStart i s).1.cmd = s.cmd ∧ (bodyContextStart i s).1.pending = s.pending := by
  unfold bodyContextStart; dsimp only; split <;> simp

@[simp] theorem bodyContextStop_frame (i : CtxId) :
    (bodyContextStop i s).1.pfe = s.pfe ∧ (bodyContextStop i s).1.lvl = s.lvl ∧ (bodyContextStop i s).1.cal = s.cal ∧
      (bodyContextStop i s).1.cap = s.cap ∧ (bodyContextStop i s).1.trg = s.trg ∧
      (bodyContextStop i s).1.dsp = s.dsp ∧ (bodyContextStop i s).1.cmd = s.cmd ∧
      (bodyContextStop i s).1.pending = s.pending := by
  unfold bodyContextStop; split <;> simp

@[simp] theorem bodyContextStatus_frame (i : CtxId) :
    (bodyContextStatus i s).1.pfe = s.pfe ∧ (bodyContextStatus i s).1.lvl = s.lvl ∧
      (bodyContextStatus i s).1.cal = s.cal ∧ (bodyContextStatus i s).1.cap = s.cap ∧
      (bodyContextStatus i s).1.trg = s.trg ∧ (bodyContextStatus i s).1.dsp = s.dsp ∧
      (bodyContextStatus i s).1.cmd = s.cmd ∧ (bodyContextStatus i s).1.pending = s.pending := by
  simp [bodyContextStatus]

@[simp] theorem bodyFlashSetLoad_frame (p : List Byte) :
    (bodyFlashSetLoad p s).1.pfe = s.pfe ∧ (bodyFlashSetLoad p s).1.lvl = s.lvl ∧
      (bodyFlashSetLoad p s).1.cal = s.cal ∧ (bodyFlashSetLoad p s).1.cap = s.cap ∧
      (bodyFlashSetLoad p s).1.trg = s.trg ∧ (bodyFlashSetLoad p s).1.dsp = s.dsp ∧
      (bodyFlashSetLoad p s).1.cmd = s.cmd ∧ (bodyFlashSetLoad p s).1.pending = s.pending := by
  unfold bodyFlashSetLoad; repeat' split
  all_goals simp

@[simp] theorem bodyFlashModelClear_frame (i : CtxId) :
    (bodyFlashModelClear i s).1.pfe = s.pfe ∧ (bodyFlashModelClear i s).1.lvl = s.lvl ∧
      (bodyFlashModelClear i s).1.cal = s.cal ∧ (bodyFlashModelClear i s).1.cap = s.cap ∧
      (bodyFlashModelClear i s).1.trg = s.trg ∧ (bodyFlashModelClear i s).1.dsp = s.dsp ∧
      (bodyFlashModelClear i s).1.cmd = s.cmd ∧ (bodyFlashModelClear i s).1.pending = s.pending := by
  unfold bodyFlashModelClear; dsimp only; repeat' split
  all_goals simp

@[simp] theorem bodyRecordsTake_frame (n : Nat) :
    (bodyRecordsTake n s).1.pfe = s.pfe ∧ (bodyRecordsTake n s).1.lvl = s.lvl ∧ (bodyRecordsTake n s).1.cal = s.cal ∧
      (bodyRecordsTake n s).1.cap = s.cap ∧ (bodyRecordsTake n s).1.trg = s.trg ∧
      (bodyRecordsTake n s).1.dsp = s.dsp ∧ (bodyRecordsTake n s).1.cmd = s.cmd ∧
      (bodyRecordsTake n s).1.pending = s.pending := by
  simp [bodyRecordsTake]

@[simp] theorem bodyQueueThresholdSet_frame (n : Nat) :
    (bodyQueueThresholdSet n s).1.pfe = s.pfe ∧ (bodyQueueThresholdSet n s).1.lvl = s.lvl ∧
      (bodyQueueThresholdSet n s).1.cal = s.cal ∧ (bodyQueueThresholdSet n s).1.cap = s.cap ∧
      (bodyQueueThresholdSet n s).1.trg = s.trg ∧ (bodyQueueThresholdSet n s).1.dsp = s.dsp ∧
      (bodyQueueThresholdSet n s).1.pending = s.pending ∧ (bodyQueueThresholdSet n s).1.cmd.mask = s.cmd.mask ∧
      (bodyQueueThresholdSet n s).1.cmd.frame = s.cmd.frame ∧
      (bodyQueueThresholdSet n s).1.cmd.response = s.cmd.response ∧
      (bodyQueueThresholdSet n s).1.cmd.held = s.cmd.held := by
  simp [bodyQueueThresholdSet]

@[simp] theorem bodyQueueStatus_frame :
    (bodyQueueStatus s).1.pfe = s.pfe ∧ (bodyQueueStatus s).1.lvl = s.lvl ∧ (bodyQueueStatus s).1.cal = s.cal ∧
      (bodyQueueStatus s).1.cap = s.cap ∧ (bodyQueueStatus s).1.dec = s.dec ∧ (bodyQueueStatus s).1.trg = s.trg ∧
      (bodyQueueStatus s).1.dsp = s.dsp ∧ (bodyQueueStatus s).1.cmd = s.cmd ∧
      (bodyQueueStatus s).1.pending = s.pending := by
  simp [bodyQueueStatus]

@[simp] theorem bodyQueueAckGap_frame :
    (bodyQueueAckGap s).1.pfe = s.pfe ∧ (bodyQueueAckGap s).1.lvl = s.lvl ∧ (bodyQueueAckGap s).1.cal = s.cal ∧
      (bodyQueueAckGap s).1.cap = s.cap ∧ (bodyQueueAckGap s).1.trg = s.trg ∧ (bodyQueueAckGap s).1.dsp = s.dsp ∧
      (bodyQueueAckGap s).1.pending = s.pending ∧ (bodyQueueAckGap s).1.cmd.mask = s.cmd.mask ∧
      (bodyQueueAckGap s).1.cmd.frame = s.cmd.frame ∧ (bodyQueueAckGap s).1.cmd.response = s.cmd.response ∧
      (bodyQueueAckGap s).1.cmd.held = s.cmd.held := by
  unfold bodyQueueAckGap; repeat' split
  all_goals simp

@[simp] theorem bodyMatchUnitSet_frame (u : Byte) (p : UnitParams) :
    (bodyMatchUnitSet u p s).1.pfe = s.pfe ∧ (bodyMatchUnitSet u p s).1.lvl = s.lvl ∧
      (bodyMatchUnitSet u p s).1.cal = s.cal ∧ (bodyMatchUnitSet u p s).1.cap = s.cap ∧
      (bodyMatchUnitSet u p s).1.dec = s.dec ∧ (bodyMatchUnitSet u p s).1.dsp = s.dsp ∧
      (bodyMatchUnitSet u p s).1.cmd = s.cmd ∧ (bodyMatchUnitSet u p s).1.pending = s.pending ∧
      (bodyMatchUnitSet u p s).1.trg.branches = s.trg.branches ∧
      (bodyMatchUnitSet u p s).1.trg.counters = s.trg.counters ∧ (bodyMatchUnitSet u p s).1.trg.stage = s.trg.stage ∧
      (bodyMatchUnitSet u p s).1.trg.state = s.trg.state := by
  unfold bodyMatchUnitSet; repeat' split
  all_goals simp

@[simp] theorem bodyBranchSet_frame (i j : Byte) (p : BranchParams) :
    (bodyBranchSet i j p s).1.pfe = s.pfe ∧ (bodyBranchSet i j p s).1.lvl = s.lvl ∧
      (bodyBranchSet i j p s).1.cal = s.cal ∧ (bodyBranchSet i j p s).1.cap = s.cap ∧
      (bodyBranchSet i j p s).1.dec = s.dec ∧ (bodyBranchSet i j p s).1.dsp = s.dsp ∧
      (bodyBranchSet i j p s).1.cmd = s.cmd ∧ (bodyBranchSet i j p s).1.pending = s.pending ∧
      (bodyBranchSet i j p s).1.trg.units = s.trg.units ∧ (bodyBranchSet i j p s).1.trg.stage = s.trg.stage ∧
      (bodyBranchSet i j p s).1.trg.state = s.trg.state := by
  unfold bodyBranchSet; repeat' split
  all_goals simp

@[simp] theorem bodyTriggerForce_frame :
    (bodyTriggerForce s).1.pfe = s.pfe ∧ (bodyTriggerForce s).1.lvl = s.lvl ∧ (bodyTriggerForce s).1.cal = s.cal ∧
      (bodyTriggerForce s).1.dec = s.dec ∧ (bodyTriggerForce s).1.dsp = s.dsp ∧ (bodyTriggerForce s).1.cmd = s.cmd ∧
      (bodyTriggerForce s).1.pending = s.pending ∧ (bodyTriggerForce s).1.cap.dram = s.cap.dram ∧
      (bodyTriggerForce s).1.trg.units = s.trg.units ∧ (bodyTriggerForce s).1.trg.branches = s.trg.branches ∧
      (bodyTriggerForce s).1.trg.state = s.trg.state ∧ (bodyTriggerForce s).1.trg.counters = s.trg.counters ∧
      (bodyTriggerForce s).1.trg.stage = s.trg.stage := by
  unfold bodyTriggerForce; split
  · simp [State.sendFire]
  · simp

@[simp] theorem bodyTriggerStatus_frame :
    (bodyTriggerStatus s).1.pfe = s.pfe ∧ (bodyTriggerStatus s).1.lvl = s.lvl ∧ (bodyTriggerStatus s).1.cal = s.cal ∧
      (bodyTriggerStatus s).1.cap = s.cap ∧ (bodyTriggerStatus s).1.dec = s.dec ∧
      (bodyTriggerStatus s).1.trg = s.trg ∧ (bodyTriggerStatus s).1.dsp = s.dsp ∧
      (bodyTriggerStatus s).1.cmd = s.cmd ∧ (bodyTriggerStatus s).1.pending = s.pending := by
  simp [bodyTriggerStatus]

@[simp] theorem bodyViewSet_frame (p : ViewParams) :
    (bodyViewSet p s).1.pfe = s.pfe ∧ (bodyViewSet p s).1.lvl = s.lvl ∧ (bodyViewSet p s).1.cal = s.cal ∧
      (bodyViewSet p s).1.cap = s.cap ∧ (bodyViewSet p s).1.dec = s.dec ∧ (bodyViewSet p s).1.trg = s.trg ∧
      (bodyViewSet p s).1.cmd = s.cmd ∧ (bodyViewSet p s).1.pending = s.pending := by
  unfold bodyViewSet; split <;> simp

@[simp] theorem bodyRefresh_frame :
    (bodyRefresh s).1.pfe = s.pfe ∧ (bodyRefresh s).1.lvl = s.lvl ∧ (bodyRefresh s).1.cal = s.cal ∧
      (bodyRefresh s).1.dec = s.dec ∧ (bodyRefresh s).1.trg = s.trg ∧ (bodyRefresh s).1.cmd = s.cmd ∧
      (bodyRefresh s).1.pending = s.pending ∧ (bodyRefresh s).1.cap.dram = s.cap.dram := by
  unfold bodyRefresh; repeat' split
  all_goals simp

@[simp] theorem bodyDisplayStatus_frame :
    (bodyDisplayStatus s).1.pfe = s.pfe ∧ (bodyDisplayStatus s).1.lvl = s.lvl ∧ (bodyDisplayStatus s).1.cal = s.cal ∧
      (bodyDisplayStatus s).1.cap = s.cap ∧ (bodyDisplayStatus s).1.dec = s.dec ∧
      (bodyDisplayStatus s).1.trg = s.trg ∧ (bodyDisplayStatus s).1.dsp = s.dsp ∧
      (bodyDisplayStatus s).1.cmd = s.cmd ∧ (bodyDisplayStatus s).1.pending = s.pending := by
  simp [bodyDisplayStatus]

@[simp] theorem bodyNoticesRead_frame :
    (bodyNoticesRead s).1.pfe = s.pfe ∧ (bodyNoticesRead s).1.lvl = s.lvl ∧ (bodyNoticesRead s).1.cal = s.cal ∧
      (bodyNoticesRead s).1.cap = s.cap ∧ (bodyNoticesRead s).1.dec = s.dec ∧ (bodyNoticesRead s).1.trg = s.trg ∧
      (bodyNoticesRead s).1.dsp = s.dsp ∧ (bodyNoticesRead s).1.pending = s.pending ∧
      (bodyNoticesRead s).1.cmd.mask = s.cmd.mask ∧ (bodyNoticesRead s).1.cmd.frame = s.cmd.frame ∧
      (bodyNoticesRead s).1.cmd.response = s.cmd.response ∧ (bodyNoticesRead s).1.cmd.held = s.cmd.held := by
  simp [bodyNoticesRead, Cmd.emptied]

@[simp] theorem bodyNoticesMask_frame (m : BitVec 16) :
    (bodyNoticesMask m s).1.pfe = s.pfe ∧ (bodyNoticesMask m s).1.lvl = s.lvl ∧ (bodyNoticesMask m s).1.cal = s.cal ∧
      (bodyNoticesMask m s).1.cap = s.cap ∧ (bodyNoticesMask m s).1.dec = s.dec ∧
      (bodyNoticesMask m s).1.trg = s.trg ∧ (bodyNoticesMask m s).1.dsp = s.dsp ∧
      (bodyNoticesMask m s).1.pending = s.pending ∧ (bodyNoticesMask m s).1.cmd.frame = s.cmd.frame ∧
      (bodyNoticesMask m s).1.cmd.held = s.cmd.held ∧ (bodyNoticesMask m s).1.cmd.response = s.cmd.response ∧
      (bodyNoticesMask m s).1.cmd.pending = s.cmd.pending := by
  simp [bodyNoticesMask]

end Sys2Proof.Machine
end

