-- ==== Sys2Proof/Laws/After.lean ====
section
/-! SUPPORT. Laws/After.lean: every command answers a next state, and what that state is, once for each command. -/

namespace Sys2Proof.Machine

variable (s : State)

/-- The state after a command. -/
def State.after (s : State) (c : Instr) : State :=
  match exec c s with
  | .next t => t
  | .fault _ => s
  | .refused _ => s

@[simp] theorem after_powerOn : s.after .powerOn =
    State.reset.setPending s.pending := rfl

@[simp] theorem after_portSelectAssert : s.after .portSelectAssert =
    if s.cmd.frame = .idle then s.setCmd { s.cmd with frame := .request, response := none, held := none } else s := rfl

@[simp] theorem after_portSelectDeassert : s.after (.portSelectDeassert) =
    s.endFrame := rfl

@[simp] theorem after_unknownRequest (code : Byte) : s.after (.unknownRequest code) =
    if s.portOpen && !recognisedCode code then s.respond (.only .unknown) else s := rfl

@[simp] theorem after_thresholdSet (fit : Fit) (pod code : Byte) : s.after (.thresholdSet fit pod code) =
    request false fit (bodyThresholdSet pod code) s := rfl

@[simp] theorem after_deskewSet (fit : Fit) (level : Byte) (channels : Lines) (offset : Int) :
    s.after (.deskewSet fit level channels offset) =
    request false fit (writeFrontEnd level (·.setOffsets channels offset)) s := rfl

@[simp] theorem after_glitchWidthSet (fit : Fit) (level pods : Byte) (width : Nat) :
    s.after (.glitchWidthSet fit level pods width) =
    request false fit (writeFrontEnd level (·.setWidths pods width)) s := rfl

@[simp] theorem after_frontEndRead (fit : Fit) (level : Byte) : s.after (.frontEndRead fit level) =
    request false fit (bodyFrontEndRead level) s := rfl

@[simp] theorem after_linesRead : s.after .linesRead =
    request false .enough bodyLinesRead s := rfl

@[simp] theorem after_monitorSet (fit : Fit) (writeThreshold : Bool) (threshold : Nat) (writeQuiet : Bool)
    (quiet : Nat) :
    s.after (.monitorSet fit writeThreshold threshold writeQuiet quiet) =
    request false fit (bodyMonitorSet writeThreshold threshold writeQuiet quiet) s := rfl

@[simp] theorem after_monitorRead (fit : Fit) (channels : Lines) : s.after (.monitorRead fit channels) =
    request false fit (bodyMonitorRead channels) s := rfl

@[simp] theorem after_setLevel (fit : Fit) (level : Byte) : s.after (.setLevel fit level) =
    request true fit (bodySetLevel level) s := rfl

@[simp] theorem after_levelStatus : s.after .levelStatus =
    request false .enough bodyLevelStatus s := rfl

@[simp] theorem after_calibrate (fit : Fit) (channels : Lines) (seed tolerance : Nat) :
    s.after (.calibrate fit channels seed tolerance) =
    request false fit (bodyCalibrate channels seed tolerance) s := rfl

@[simp] theorem after_calibrationAbort : s.after .calibrationAbort =
    request false .enough bodyCalibrationAbort s := rfl

@[simp] theorem after_readCalibration : s.after .readCalibration =
    request false .enough bodyReadCalibration s := rfl

@[simp] theorem after_poolThresholdSet (fit : Fit) (threshold : Nat) : s.after (.poolThresholdSet fit threshold) =
    request false fit (bodyPoolThresholdSet threshold) s := rfl

@[simp] theorem after_poolStatus : s.after .poolStatus =
    request false .enough bodyPoolStatus s := rfl

@[simp] theorem after_segmentPrepare (fit : Fit) (segment : Byte) (mask : Lines) (budget : Nat) (target : BitVec 32)
    (limit annotationBudget : Nat) :
    s.after (.segmentPrepare fit segment mask budget target limit annotationBudget) =
      request false fit (onSegment segment (bodySegmentPrepare mask budget target limit annotationBudget)) s := rfl

@[simp] theorem after_segmentStatus (fit : Fit) (segment : Byte) : s.after (.segmentStatus fit segment) =
    request false fit (onSegment segment bodySegmentStatus) s := rfl

@[simp] theorem after_segmentStart (fit : Fit) (segment : Byte) : s.after (.segmentStart fit segment) =
    request false fit (onSegment segment bodySegmentStart) s := rfl

@[simp] theorem after_segmentStop : s.after .segmentStop =
    request false .enough bodySegmentStop s := rfl

@[simp] theorem after_segmentAbort : s.after .segmentAbort =
    request false .enough bodySegmentAbort s := rfl

@[simp] theorem after_segmentRetire (fit : Fit) (segment : Byte) : s.after (.segmentRetire fit segment) =
    request false fit (onSegment segment bodySegmentRetire) s := rfl

@[simp] theorem after_segmentRead (fit : Fit) (segment : Byte) (start : BitVec 48) (count : Nat) :
    s.after (.segmentRead fit segment start count) =
    s.requestRead .entries fit segment start.toNat count := rfl

@[simp] theorem after_annotationRead (fit : Fit) (segment : Byte) (offset : BitVec 32) (count : Nat) :
    s.after (.annotationRead fit segment offset count) =
    s.requestRead .annotations fit segment offset.toNat count := rfl

@[simp] theorem after_contextOpen (fit : Fit) (context : Byte) : s.after (.contextOpen fit context) =
    request false fit (onContext context bodyContextOpen) s := rfl

@[simp] theorem after_contextClose (fit : Fit) (context : Byte) : s.after (.contextClose fit context) =
    request false fit (onOpenContext context bodyContextClose) s := rfl

@[simp] theorem after_contextConfigure (fit : Fit) (context : Byte) (params : ConfigureParams) :
    s.after (.contextConfigure fit context params) =
    request false fit (onOpenContext context (bodyContextConfigure params)) s := rfl

@[simp] theorem after_contextStart (fit : Fit) (context : Byte) : s.after (.contextStart fit context) =
    request false fit (onOpenContext context bodyContextStart) s := rfl

@[simp] theorem after_contextStop (fit : Fit) (context : Byte) : s.after (.contextStop fit context) =
    request false fit (onOpenContext context bodyContextStop) s := rfl

@[simp] theorem after_contextStatus (fit : Fit) (context : Byte) : s.after (.contextStatus fit context) =
    request false fit (onOpenContext context bodyContextStatus) s := rfl

@[simp] theorem after_flashSetLoad (params : List Byte) : s.after (.flashSetLoad params) =
    request false .enough (bodyFlashSetLoad params) s := rfl

@[simp] theorem after_flashModelClear (fit : Fit) (context : Byte) : s.after (.flashModelClear fit context) =
    request false fit (onOpenContext context bodyFlashModelClear) s := rfl

@[simp] theorem after_recordsTake (fit : Fit) (count : Nat) : s.after (.recordsTake fit count) =
    request false fit (bodyRecordsTake count) s := rfl

@[simp] theorem after_queueThresholdSet (fit : Fit) (threshold : Nat) : s.after (.queueThresholdSet fit threshold) =
    request false fit (bodyQueueThresholdSet threshold) s := rfl

@[simp] theorem after_queueStatus : s.after .queueStatus =
    request false .enough bodyQueueStatus s := rfl

@[simp] theorem after_queueAckGap : s.after .queueAckGap =
    request false .enough bodyQueueAckGap s := rfl

@[simp] theorem after_matchUnitSet (fit : Fit) (unit : Byte) (params : UnitParams) :
    s.after (.matchUnitSet fit unit params) =
    request false fit (bodyMatchUnitSet unit params) s := rfl

@[simp] theorem after_branchSet (fit : Fit) (stage branch : Byte) (params : BranchParams) :
    s.after (.branchSet fit stage branch params) =
    request false fit (bodyBranchSet stage branch params) s := rfl

@[simp] theorem after_triggerForce : s.after .triggerForce =
    request false .enough bodyTriggerForce s := rfl

@[simp] theorem after_triggerStatus : s.after .triggerStatus =
    request false .enough bodyTriggerStatus s := rfl

@[simp] theorem after_triggerProgramRead : s.after .triggerProgramRead =
    request false .enough (fun s => tell (.program s.trg.units s.trg.branches) s) s := rfl

@[simp] theorem after_viewSet (fit : Fit) (params : ViewParams) : s.after (.viewSet fit params) =
    request false fit (bodyViewSet params) s := rfl

@[simp] theorem after_refresh : s.after .refresh =
    request false .enough bodyRefresh s := rfl

@[simp] theorem after_displayStatus : s.after .displayStatus =
    request false .enough bodyDisplayStatus s := rfl

@[simp] theorem after_noticesRead : s.after .noticesRead =
    request true .enough bodyNoticesRead s := rfl

@[simp] theorem after_noticesMask (fit : Fit) (mask : BitVec 16) : s.after (.noticesMask fit mask) =
    request true fit (bodyNoticesMask mask) s := rfl

@[simp] theorem after_identify : s.after .identify =
    request true .enough (tell (.identity 0x5E#8 0x0C32#16 1 Config.pageCount 8 16 Config.queueDepth)) s := rfl

@[simp] theorem after_reset : s.after .reset =
    request true .enough (fun s => (s.softReset, .only .ok)) s := rfl

@[simp] theorem after_sampleStep (probes : Vector Int 32) :
    s.after (.sampleStep probes) =
      match s.completeIfDue.exhaustIfDue.pfe.run with
      | some r => s.completeIfDue.exhaustIfDue.sampleRun r probes
      | none => s.completeIfDue.exhaustIfDue := by
  unfold State.after exec execSampleStep
  dsimp only
  cases s.completeIfDue.exhaustIfDue.pfe.run <;> rfl

@[simp] theorem after_quietTimerExpiry (channel : Chan) : s.after (.quietTimerExpiry channel) =
    s.quietExpiry channel := rfl

@[simp] theorem after_idleTimerExpiry (context : CtxId) :
    s.after (.idleTimerExpiry context) = s.expireContext context .async fun c stamp =>
      ({ c with asyncEngine := (c.asyncEngine.expireIdle c.asyncSettings context stamp).1 },
        (c.asyncEngine.expireIdle c.asyncSettings context stamp).2) := rfl

@[simp] theorem after_wordGapTimerExpiry (context : CtxId) :
    s.after (.wordGapTimerExpiry context) = s.expireContext context .clocked fun c stamp =>
      ({ c with clockedEngine := (c.clockedEngine.expireGap c.clockedSettings c.lanes context stamp).1 },
        (c.clockedEngine.expireGap c.clockedSettings c.lanes context stamp).2) := rfl

@[simp] theorem after_stuckTimerExpiry (context : CtxId) :
    s.after (.stuckTimerExpiry context) = s.expireContext context .twoWire fun c stamp =>
      ({ c with twoWireEngine := (c.twoWireEngine.expireStuck c.twoWireSettings context stamp).1 },
        (c.twoWireEngine.expireStuck c.twoWireSettings context stamp).2) := rfl

@[simp] theorem after_busFreeTimerExpiry (context : CtxId) :
    s.after (.busFreeTimerExpiry context) = s.expireContext context .twoWire fun c stamp =>
      ({ c with twoWireEngine := c.twoWireEngine.expireFree c.twoWireSettings stamp }, []) := rfl

@[simp] theorem after_patternHoldExpiry (unit : UnitId) : s.after (.patternHoldExpiry unit) =
    s.stageExpiry.holdExpiry unit := rfl

@[simp] theorem after_stageTimerExpiry : s.after (.stageTimerExpiry) =
    s.stageExpiry := rfl

@[simp] theorem after_calMeasuringEntry : s.after .calMeasuringEntry =
    if s.cal.state = .settling ∧ Config.settlingSteps ≤ s.cal.counted then
      s.setCal { s.cal with state := .measuring } else s := rfl

@[simp] theorem after_calibrationComplete : s.after (.calibrationComplete) =
    s.completeIfDue := rfl

@[simp] theorem after_countExhausted : s.after (.countExhausted) =
    s.exhaustIfDue := rfl

@[simp] theorem after_levelTransitionComplete :
    s.after .levelTransitionComplete =
      match s.lvl.transition with
      | .switching target => s.completeTransition target
      | .steady => s := by
  unfold State.after exec execLevelTransitionComplete
  dsimp only
  cases s.lvl.transition <;> rfl

@[simp] theorem after_fireAccept (index : Nat) : s.after (.fireAccept index) =
    (s.takeFire index).endOfCapture := rfl

@[simp] theorem after_recordPathDelivery (context : CtxId) : s.after (.recordPathDelivery context) =
    s.deliverNext context := rfl

@[simp] theorem after_drainCompletion : s.after .drainCompletion =
    if s.cap.staged = [] ∧ s.cap.stagedAnnotations = [] then s else s.drain := rfl

@[simp] theorem after_segmentReadResponseFormed : s.after .segmentReadResponseFormed =
    s.formRead .entries := rfl

@[simp] theorem after_annotationReadResponseFormed : s.after .annotationReadResponseFormed =
    s.formRead .annotations := rfl

@[simp] theorem after_refreshColumnRead : s.after .refreshColumnRead =
    if s.dsp.state = .reading then s.readColumn else s := rfl

@[simp] theorem after_refreshSendComplete : s.after .refreshSendComplete =
    if s.dsp.state = .sending then s.completeRefresh else s := rfl

@[simp] theorem after_segmentReadEntryTake : s.after .segmentReadEntryTake =
    s.readStep .entries Cap.takeEntry := rfl

@[simp] theorem after_annotationReadEntryTake : s.after .annotationReadEntryTake =
    s.readStep .annotations Cap.takeAnnotation := rfl

/-- Every command takes effect. -/
theorem exec_eq_after (c : Instr) : exec c s = .next (s.after c) := by
  cases c
  case sampleStep probes =>
    rw [after_sampleStep]
    unfold exec execSampleStep
    dsimp only
    cases s.completeIfDue.exhaustIfDue.pfe.run <;> rfl
  case levelTransitionComplete =>
    rw [after_levelTransitionComplete]
    unfold exec execLevelTransitionComplete
    dsimp only
    cases s.lvl.transition <;> rfl
  all_goals rfl

/-- The next state is the state after the command. -/
theorem exec_next_iff (c : Instr) (t : State) : exec c s = .next t ↔ t = s.after c := by
  rw [exec_eq_after, Host.Outcome.next.injEq, eq_comm]

end Sys2Proof.Machine
end

