-- ==== Sys2Proof/Laws/Notices.lean ====
section
/-! SUPPORT. Laws/Notices.lean: what raising each notice does, in one update, and the conditions of the rules as the
claims spell them. -/

namespace Sys2Proof.Machine

variable (s : State)

/-! ## Raising (R181) -/

theorem State.raiseGlitch_eq (x : Lines) : s.raiseGlitch x =
    { s with cmd := { s.cmd with
        pending := if x = 0#32 then s.cmd.pending else s.cmd.pending ||| BitVec.twoPow 14 9
        glitch := s.cmd.glitch ||| x } } := by
  unfold State.raiseGlitch
  split
  · subst_vars; simp
  · rfl

theorem State.raiseActivity_eq (x : Lines) : s.raiseActivity x =
    { s with cmd := { s.cmd with
        pending := if x = 0#32 then s.cmd.pending else s.cmd.pending ||| BitVec.twoPow 14 10
        activity := s.cmd.activity ||| x } } := by
  unfold State.raiseActivity
  split
  · subst_vars; simp
  · rfl

theorem State.raiseLock_eq (x : BitVec 16) : s.raiseLock x =
    { s with cmd := { s.cmd with
        pending := if x = 0#16 then s.cmd.pending else s.cmd.pending ||| BitVec.twoPow 14 7
        lockChange := s.cmd.lockChange ||| x } } := by
  unfold State.raiseLock
  split
  · subst_vars; simp
  · rfl

theorem State.raiseError_eq (x : BitVec 16) : s.raiseError x =
    { s with cmd := { s.cmd with
        pending := if x = 0#16 then s.cmd.pending else s.cmd.pending ||| BitVec.twoPow 14 8
        errorThreshold := s.cmd.errorThreshold ||| x } } := by
  unfold State.raiseError
  split
  · subst_vars; simp
  · rfl

/-- R14: a glitch counter against the threshold. -/
theorem Monitor.checkGlitch_eq (m : Monitor) (t : Nat) : m.checkGlitch t =
    ({ m with armed := decide (m.glitches < t) }, m.armed && decide (t ≤ m.glitches)) := by
  unfold Monitor.checkGlitch
  split
  · simp_all
  · simp_all

/-- R94: an error counter against the threshold. -/
theorem Context.checkErrors_eq (c : Context) : c.checkErrors =
    ({ c with armed := decide (c.errors < c.errorThreshold) }, c.armed && decide (c.errorThreshold ≤ c.errors)) := by
  unfold Context.checkErrors
  split
  · simp_all
  · simp_all

/-- R97: the queue against its threshold. -/
theorem State.checkQueue_eq : s.checkQueue =
    { s with
      dec := { s.dec with armed := decide (s.dec.queue.length < s.dec.threshold) }
      cmd := { s.cmd with pending := if s.dec.armed ∧ s.dec.threshold ≤ s.dec.queue.length
          then s.cmd.pending ||| BitVec.twoPow 14 5 else s.cmd.pending } } := by
  unfold State.checkQueue
  split
  · rename_i h
    simp [h, Nat.not_le.mpr h, State.setDec]
  · rename_i h
    split
    · rename_i ha
      simp [h, ha, Nat.not_lt.mp h, State.setDec, State.raise, State.setCmd, Cmd.raise, Notice.index]
    · rename_i ha
      simp only [ha, Bool.false_eq_true, false_and, if_false, h, decide_false]
      rw [← Bool.eq_false_iff.mpr ha]

/-- R46: the pool against its threshold. -/
theorem State.checkPool_eq : s.checkPool =
    { s with
      cap := { s.cap with poolArmed := decide (s.cap.poolThreshold ≤ s.cap.pool.count) }
      cmd := { s.cmd with pending := if s.cap.poolArmed ∧ s.cap.pool.count < s.cap.poolThreshold
          then s.cmd.pending ||| BitVec.twoPow 14 4 else s.cmd.pending } } := by
  unfold State.checkPool
  split
  · rename_i h
    split
    · rename_i ha
      simp [h, ha, Nat.not_le.mpr h, State.setCap, State.raise, State.setCmd, Cmd.raise, Notice.index]
    · rename_i ha
      simp only [ha, Bool.false_eq_true, false_and, if_false, Nat.not_le.mpr h, decide_false]
      rw [← Bool.eq_false_iff.mpr ha]
  · rename_i h
    simp [h, Nat.not_lt.mp h, State.setCap]

/-! ## Conditions -/

theorem isCapturing_iff (g : SegState) : g.isCapturing = true ↔ g = .preTrigger ∨ g = .postTrigger := by
  cases g <;> simp [SegState.isCapturing]

theorem capturing?_isSome : s.capturing?.isSome = true ↔ ∃ i, s.captures i := by
  simp only [State.capturing?, List.find?_isSome, everyId, List.mem_finRange, true_and, isCapturing_iff]
  rfl

theorem capturing?_isNone : s.capturing?.isNone = true ↔ s.noCapture := by
  rw [← Option.not_isSome, Bool.not_eq_true', ← Bool.not_eq_true, capturing?_isSome]
  simp [State.noCapture]

theorem capturing?_eq_none : s.capturing? = none ↔ s.noCapture := by
  rw [← capturing?_isNone, Option.isNone_iff_eq_none]

theorem captures_of_capturing? {s : State} {i : SegId} (h : s.capturing? = some i) : s.captures i := by
  have := List.find?_some h
  exact (isCapturing_iff _).mp this

/-- The segment that alone captures is the one the operations find. -/
theorem capturing?_of_only {s : State} {i : SegId} (h : s.capturesOnly i) : s.capturing? = some i := by
  have hs := (capturing?_isSome s).mpr ⟨i, h.1⟩
  obtain ⟨j, hj⟩ := Option.isSome_iff_exists.mp hs
  rw [hj, h.2 j (captures_of_capturing? hj)]

theorem draining?_isSome : s.draining?.isSome = true ↔ ∃ i : SegId, s.cap.segments[i].drainPending = true := by
  simp only [State.draining?, List.find?_isSome, everyId, List.mem_finRange, true_and]
  rfl

theorem draining?_of_some {s : State} {i : SegId} (h : s.draining? = some i) :
    s.cap.segments[i].drainPending = true := by
  have := List.find?_some h
  exact this

theorem isActive_iff : s.cal.isActive = true ↔ s.calibrates := by
  unfold Cal.isActive State.calibrates; cases s.cal.state <;> simp

theorem isSwitching_iff : s.lvl.isSwitching = true ↔ s.switches := by
  unfold Lvl.isSwitching State.switches; cases s.lvl.transition <;> simp

/-- A byte that carries a number names it. -/
theorem idOf_eq {n : Nat} (b : Byte) (id : Fin n) (h : b.toNat = id.val) : idOf n b = some id := by
  rw [idOf_of_lt b (by omega)]
  exact congrArg some (Fin.ext h)

end Sys2Proof.Machine
end

