-- ==== Sys2Proof/Laws/Pages.lean ====
section
/-! SUPPORT. Laws/Pages.lean: what an allocation, a rotation and a release do to the pages that the pool and the chains
hold (R43 to R45). -/

namespace Sys2Proof.Machine

theorem linked_nil (m : PageMap) (owner : PageOwner) : linked m owner [] := fun _ _ h => nomatch h

theorem linked_cons {m : PageMap} {owner : PageOwner} {p : Nat} {pages : List Nat} :
    linked m owner (p :: pages) ↔ PageMap.get m p = ⟨owner, pages.head?⟩ ∧ linked m owner pages := by
  constructor
  · intro h
    refine ⟨?_, fun k q e => h (k + 1) q e⟩
    rw [h 0 p rfl, List.head?_eq_getElem?]
    rfl
  · rintro ⟨h, rest⟩ k q e
    match k with
    | 0 =>
      cases e
      rw [h, List.head?_eq_getElem?]
      rfl
    | k + 1 => exact rest k q e

theorem linked_congr {m m' : PageMap} {owner : PageOwner} {pages : List Nat} (h : linked m owner pages)
    (same : ∀ p ∈ pages, PageMap.get m' p = PageMap.get m p) : linked m' owner pages := fun k p e => by
  rw [same p (List.mem_of_getElem? e)]
  exact h k p e

/-- Two linked lists, the first one's last page linked to the second one's head, are linked together. -/
theorem linked_append {m : PageMap} {owner : PageOwner} {front : List Nat} {last : Nat} {back : List Nat} :
    linked m owner (front ++ last :: back) ↔ (∀ (k p : Nat), front[k]? = some p →
      PageMap.get m p = ⟨owner, (front ++ [last])[k + 1]?⟩) ∧ linked m owner (last :: back) := by
  induction front with
  | nil => simp
  | cons p front ih =>
    rw [List.cons_append, linked_cons, ih]
    have heads : (front ++ last :: back).head? = (front ++ [last]).head? := by cases front <;> rfl
    constructor
    · rintro ⟨h, links, rest⟩
      refine ⟨fun k q e => ?_, rest⟩
      match k with
      | 0 =>
        cases e
        rw [h, heads, List.head?_eq_getElem?]
        rfl
      | k + 1 => exact links k q e
    · rintro ⟨links, rest⟩
      refine ⟨?_, fun k q e => links (k + 1) q e, rest⟩
      rw [links 0 p rfl, heads, List.head?_eq_getElem?]
      rfl

theorem Chain.holds_congr {c : Chain} {m m' : PageMap} {owner : PageOwner} {pages : List Nat}
    (h : c.holds m owner pages) (same : ∀ p ∈ pages, PageMap.get m' p = PageMap.get m p) : c.holds m' owner pages :=
  ⟨h.1, h.2.1, h.2.2.1, linked_congr h.2.2.2 same⟩

theorem chainPages_linked {m : PageMap} {owner : PageOwner} :
    ∀ {pages : List Nat}, linked m owner pages → chainPages m pages.length pages.head? = pages
  | [], _ => rfl
  | p :: pages, h => by
    obtain ⟨here, rest⟩ := linked_cons.mp h
    show p :: chainPages m pages.length (PageMap.get m p).next = _
    rw [here, chainPages_linked rest]

/-- The pages of a chain in chain order. -/
theorem Chain.holds.chainPages {c : Chain} {m : PageMap} {owner : PageOwner} {pages : List Nat}
    (h : c.holds m owner pages) : chainPages m c.count c.head = pages := by
  rw [h.1, h.2.1, chainPages_linked h.2.2.2]

/-! ## Allocation (R44) -/

/-- The pool's head page is taken. -/
theorem takePage_holds {m : PageMap} {pool : Chain} {p : Nat} {rest : List Nat}
    (h : pool.holds m .free (p :: rest)) : ∃ left, takePage m pool = some (p, left) ∧ left.holds m .free rest := by
  obtain ⟨count, head, tail, links⟩ := h
  obtain ⟨here, links⟩ := linked_cons.mp links
  refine ⟨_, by simp only [takePage, count, List.length_cons, Nat.add_eq_zero_iff, Nat.succ_ne_self, and_false, if_false,
    head, List.head?_cons]; rfl, ?_⟩
  cases rest with
  | nil => exact ⟨rfl, rfl, rfl, links⟩
  | cons q rest =>
    rw [if_neg (by simp)]
    refine ⟨by simp, by rw [here], by rw [tail, List.getLast?_cons_cons], links⟩

/-- A page that a chain does not hold becomes its tail. -/
theorem linkPage_holds {m : PageMap} (wf : PageMap.wf m) {c : Chain} {owner : PageOwner} {pages : List Nat} {p : Nat}
    (h : c.holds m owner pages) (nodup : (pages ++ [p]).Nodup) :
    (linkPage m c p owner).2.holds (linkPage m c p owner).1 owner (pages ++ [p])
      ∧ ∀ q, q ∉ pages ++ [p] → PageMap.get (linkPage m c p owner).1 q = PageMap.get m q := by
  obtain ⟨count, head, tail, links⟩ := h
  rcases List.eq_nil_or_concat pages with rfl | ⟨front, t, rfl⟩
  · simp only [linkPage, tail, List.getLast?_nil]
    refine ⟨⟨by rw [count]; rfl, rfl, rfl, linked_cons.mpr ⟨?_, linked_nil _ _⟩⟩, ?_⟩
    · rw [PageMap.get_set wf, if_pos rfl]; rfl
    · intro q out
      rw [PageMap.get_set wf, if_neg (by simpa using out)]
  · have apart : t ≠ p := by
      rintro rfl
      simp [List.nodup_append] at nodup
    have back : ∀ q, PageMap.get (PageMap.setNext (PageMap.set m p ⟨owner, none⟩) t (some p)) q
        = if q = t then ⟨(PageMap.get m t).owner, some p⟩ else if q = p then ⟨owner, none⟩ else PageMap.get m q := by
      intro q
      rw [PageMap.setNext, PageMap.get_set (PageMap.set_wf wf _ _), PageMap.get_set wf, PageMap.get_set wf, if_neg apart]
    simp only [List.concat_eq_append] at *
    simp only [linkPage, tail, List.getLast?_concat]
    obtain ⟨links, last⟩ := linked_append.mp links
    obtain ⟨last, -⟩ := linked_cons.mp last
    refine ⟨⟨by simp [count], by rw [head]; cases front <;> rfl, by simp, ?_⟩, ?_⟩
    · rw [List.append_assoc, List.singleton_append, linked_append]
      refine ⟨fun k q e => ?_, linked_cons.mpr ⟨?_, linked_cons.mpr ⟨?_, linked_nil _ _⟩⟩⟩
      · have mem := List.mem_of_getElem? e
        have other : q ≠ t ∧ q ≠ p := by
          simp [List.nodup_append] at nodup
          exact nodup.2.2 q mem
        rw [back, if_neg other.1, if_neg other.2]
        exact links k q e
      · rw [back, if_pos rfl, last]; rfl
      · rw [back, if_neg (Ne.symm apart), if_pos rfl]; rfl
    · intro q out
      simp only [List.mem_append, List.mem_singleton, not_or] at out
      rw [back, if_neg out.1.2, if_neg out.2]

/-! ## Rotation (R45, R63) -/

/-- A rotation moves the head page of a chain to its tail and leaves every other chain. -/
theorem rotateChain_holds {m : PageMap} (wf : PageMap.wf m) {c : Chain} {owner : PageOwner} {pages : List Nat}
    (h : c.holds m owner pages) (nodup : pages.Nodup) :
    ∃ turned, turned.Perm pages ∧ (rotateChain m c).2.holds (rotateChain m c).1 owner turned
      ∧ ∀ q, q ∉ pages → PageMap.get (rotateChain m c).1 q = PageMap.get m q := by
  obtain ⟨count, head, tail, links⟩ := h
  match pages with
  | [] | [_] => exact ⟨_, .refl _, by
      have few : c.count < 2 := by simp [count]
      simp only [rotateChain, few, if_true]
      exact ⟨⟨count, head, tail, links⟩, fun _ _ => trivial⟩⟩
  | p :: q :: rest =>
    obtain ⟨here, links⟩ := linked_cons.mp links
    have many : ¬ c.count < 2 := by simp [count]
    obtain ⟨front, t, tails⟩ : ∃ front t, q :: rest = front ++ [t] := by
      rcases List.eq_nil_or_concat (q :: rest) with e | ⟨front, t, e⟩
      · exact nomatch e
      · exact ⟨front, t, by rw [e, List.concat_eq_append]⟩
    generalize q :: rest = others at *
    subst tails
    have last : c.tail = some t := by rw [tail, ← List.cons_append, List.getLast?_concat]
    have apart : p ≠ t := by rintro rfl; simp at nodup
    simp only [rotateChain, many, if_false, head, List.head?_cons, last]
    have get : ∀ x, PageMap.get (PageMap.setNext (PageMap.setNext m p none) t (some p)) x
        = if x = t then ⟨(PageMap.get m t).owner, some p⟩ else if x = p then ⟨(PageMap.get m p).owner, none⟩
          else PageMap.get m x := by
      intro x
      rw [PageMap.setNext, PageMap.get_set (PageMap.setNext_wf wf _ _), PageMap.setNext, PageMap.get_set wf,
        PageMap.get_set wf, if_neg (Ne.symm apart)]
    obtain ⟨links, final⟩ := linked_append.mp links
    obtain ⟨final, -⟩ := linked_cons.mp final
    refine ⟨front ++ [t] ++ [p], List.perm_append_comm, ⟨by simp [count], ?_, by simp, ?_⟩, ?_⟩
    · rw [here]; cases front <;> rfl
    · rw [List.append_assoc, List.singleton_append, linked_append]
      refine ⟨fun k x e => ?_, linked_cons.mpr ⟨?_, linked_cons.mpr ⟨?_, linked_nil _ _⟩⟩⟩
      · have mem := List.mem_of_getElem? e
        have other : x ≠ t ∧ x ≠ p := by
          simp [List.nodup_append] at nodup
          exact ⟨nodup.2.2 x mem, fun e => nodup.1.1 (e ▸ mem)⟩
        rw [get, if_neg other.1, if_neg other.2]
        exact links k x e
      · rw [get, if_pos rfl, final]; rfl
      · rw [get, if_neg apart, if_pos rfl, here]; rfl
    · intro x out
      simp only [List.mem_cons, List.mem_append, List.not_mem_nil, or_false, not_or] at out
      rw [get, if_neg out.2.2, if_neg out.1]

/-! ## Release (R45) -/

theorem ownPages_get {m : PageMap} (wf : PageMap.wf m) (owner : PageOwner) (pages : List Nat) (q : Nat) :
    PageMap.get (ownPages m owner pages) q
      = if q ∈ pages then ⟨owner, (PageMap.get m q).next⟩ else PageMap.get m q := by
  induction pages generalizing m with
  | nil => simp [ownPages]
  | cons p pages ih =>
    rw [ownPages, ih (PageMap.setOwner_wf wf p owner), PageMap.setOwner, PageMap.get_set wf]
    by_cases here : q = p
    · subst here; simp
    · simp [here]

/-- A chain's pages follow the pool's, and no other page changes. -/
theorem State.release_holds (s : State) (wf : PageMap.wf s.cap.pages) {c : Chain} {owner : PageOwner}
    {pool pages : List Nat} (free : s.cap.pool.holds s.cap.pages .free pool) (held : c.holds s.cap.pages owner pages)
    (nodup : (pool ++ pages).Nodup) :
    (s.release c).cap.pool.holds (s.release c).cap.pages .free (pool ++ pages)
      ∧ ∀ q, q ∉ pool ++ pages → PageMap.get (s.release c).cap.pages q = PageMap.get s.cap.pages q := by
  have order := held.chainPages
  obtain ⟨count, head, tail, links⟩ := held
  rcases List.eq_nil_or_concat pages with rfl | ⟨front, t, rfl⟩
  · simp only [State.release, head, List.head?_nil, List.append_nil]
    exact ⟨free, by simp⟩
  · simp only [List.concat_eq_append] at *
    obtain ⟨h, heads⟩ : ∃ h, (front ++ [t]).head? = some h := by cases front <;> exact ⟨_, rfl⟩
    obtain ⟨poolCount, poolHead, poolTail, poolLinks⟩ := free
    have owned := ownPages_get wf .free (front ++ [t])
    have ended : ∀ q, PageMap.get (PageMap.setNext (ownPages s.cap.pages .free (front ++ [t])) t none) q
        = if q = t then ⟨.free, none⟩ else PageMap.get (ownPages s.cap.pages .free (front ++ [t])) q := by
      intro q
      have mine := owned t
      rw [if_pos (List.mem_append_right _ (List.mem_singleton_self t))] at mine
      rw [PageMap.setNext, PageMap.get_set (ownPages_wf wf _ _), mine]
    obtain ⟨links, final⟩ := linked_append.mp links
    have chain : ∀ m : PageMap, (∀ q ∈ front ++ [t], PageMap.get m q
        = PageMap.get (PageMap.setNext (ownPages s.cap.pages .free (front ++ [t])) t none) q) →
        linked m .free (front ++ [t]) := by
      intro m same
      refine linked_append.mpr ⟨fun k q e => ?_, linked_cons.mpr ⟨?_, linked_nil _ _⟩⟩
      · have mem := List.mem_of_getElem? e
        have other : q ≠ t := by
          rintro rfl
          simp [List.nodup_append] at nodup
          exact nodup.2.1.2 q mem rfl
        rw [same q (by simp [mem]), ended, if_neg other, owned, if_pos (by simp [mem]), links k q e]
      · rw [same t (by simp), ended, if_pos rfl]; rfl
    simp only [State.release, head, heads, tail, List.getLast?_concat, State.checkPool_frame, State.setCap]
    rw [head.trans heads] at order
    rw [order]
    rcases List.eq_nil_or_concat pool with rfl | ⟨first, pt, rfl⟩
    · simp only [poolTail, List.getLast?_nil]
      refine ⟨⟨by simp [poolCount, count], heads.symm, by simp, chain _ fun _ _ => rfl⟩, ?_⟩
      · intro q out
        simp only [List.nil_append, List.mem_append, List.mem_singleton, not_or] at out
        rw [ended, if_neg out.2, owned, if_neg (by simp [out.1, out.2])]
    · simp only [List.concat_eq_append] at *
      simp only [poolTail, List.getLast?_concat]
      have apart : pt ∉ front ++ [t] := fun mem =>
        (List.disjoint_of_nodup_append nodup) (show pt ∈ first ++ [pt] by simp) mem
      have get : ∀ q, PageMap.get (PageMap.setNext
          (PageMap.setNext (ownPages s.cap.pages .free (front ++ [t])) t none) pt (some h)) q
          = if q = pt then ⟨(PageMap.get s.cap.pages pt).owner, some h⟩
            else PageMap.get (PageMap.setNext (ownPages s.cap.pages .free (front ++ [t])) t none) q := by
        intro q
        have here : pt ≠ t := by rintro rfl; simp at apart
        rw [PageMap.setNext, PageMap.get_set (PageMap.setNext_wf (ownPages_wf wf _ _) _ _), ended pt, if_neg here,
          owned pt, if_neg apart]
      obtain ⟨poolLinks, poolFinal⟩ := linked_append.mp poolLinks
      obtain ⟨poolFinal, -⟩ := linked_cons.mp poolFinal
      have kept : ∀ q, q ∈ first → q ∉ front ++ [t] ∧ q ≠ pt := fun q mem =>
        ⟨fun other => (List.disjoint_of_nodup_append nodup) (show q ∈ first ++ [pt] by simp [mem]) other, by
          rintro rfl
          exact (List.disjoint_of_nodup_append (List.Nodup.of_append_left nodup)) mem (by simp)⟩
      refine ⟨⟨by rw [poolCount, count, ← List.length_append], by rw [poolHead]; cases first <;> rfl,
        by rw [← List.append_assoc, List.getLast?_concat], ?_⟩, ?_⟩
      · rw [List.append_assoc, List.singleton_append, linked_append]
        refine ⟨fun k q e => ?_, linked_cons.mpr ⟨?_, chain _ fun q mem => ?_⟩⟩
        · obtain ⟨out, other⟩ := kept q (List.mem_of_getElem? e)
          rw [get, if_neg other, ended, if_neg (by rintro rfl; simp at out), owned, if_neg out, poolLinks k q e]
        · rw [get, if_pos rfl, poolFinal, heads]
        · rw [get, if_neg (by rintro rfl; exact apart mem)]
      · intro q out
        simp only [List.mem_append, not_or, List.mem_singleton] at out
        rw [get, if_neg out.1.2, ended, if_neg out.2.2, owned, if_neg (by simp [out.2.1, out.2.2])]

end Sys2Proof.Machine
end

