-- ==== Sys2Proof/Laws/Samples.lean ====
section
/-! SUPPORT. Laws/Samples.lean: what a gap does to a context, what an advance does to the pattern register, and what the
comparisons of a calibration run count. -/

namespace Sys2Proof.Machine

/-! ## Gaps (R87, R90) -/

/-- A RUNNING context at a gap begin. -/
theorem Context.gapBegin_takesGap (c : Context) (h : c.state = .running) : c.takesGap c.gapBegin := by
  simp only [Context.gapBegin, h, if_true]
  refine ⟨?_, ?_, ?_, ?_, ?_⟩ <;> intro p <;>
    simp [Context.gap, p, AsyncEngine.gap, ClockedEngine.gap, FlashEngine.gap, TwoWireEngine.gap,
      TwoWireEngine.closeMessage, TwoWireEngine.openMessage]

/-- A RUNNING context at a suspension for a calibration. -/
theorem Context.suspendForCal_takesGap (c : Context) (h : c.state = .running) :
    ∃ g, c.takesGap g ∧ c.suspendForCal = { g with state := .suspended .calibration } :=
  ⟨c.gapBegin, c.gapBegin_takesGap h, by simp only [Context.suspendForCal, Context.gapBegin, h, if_true]⟩

/-! ## The pattern (R32) -/

theorem advancePattern_advances (p : BitVec 15) : advances p (advancePattern p) := by
  constructor
  · cases h : p.getLsbD 14 <;> cases k : p.getLsbD 13 <;>
      simp only [advancePattern, BitVec.getLsbD_or, BitVec.getLsbD_shiftLeft, h, k] <;> rfl
  · intro n below
    have shifted : n + 1 < 15 := by omega
    simp only [advancePattern, BitVec.getLsbD_or, BitVec.getLsbD_shiftLeft, shifted]
    split <;> simp [BitVec.getLsbD_one]

/-- One advance leaves no choice. -/
theorem advances_unique {p q : BitVec 15} (h : advances p q) : q = advancePattern p := by
  apply BitVec.eq_of_getLsbD_eq
  intro i below
  have k := advancePattern_advances p
  match i with
  | 0 => rw [h.1, k.1]
  | n + 1 => rw [h.2 n (by omega), k.2 n (by omega)]

/-- The registers of a seed are those the model computes. -/
theorem patternOf_eq {seed : Nat} {reg : Nat → BitVec 15} (h : patternOf seed reg) (n : Nat) :
    reg n = patternAfter seed n := by
  induction n with
  | zero => exact h.1
  | succ n ih => rw [advances_unique (h.2 n), ih]; rfl

/-! ## Comparisons (R34) -/

theorem mismatchAt_iff {seed : Nat} {reg : Nat → BitVec 15} (h : patternOf seed reg) (p : Nat) (value : Bool)
    (i : Fin 16) : mismatchAt seed p value i = true ↔ differsAt reg p value ((i.val : Int) - 8) := by
  simp [mismatchAt, differsAt, lagOf, Config.firstComparison, Config.lastComparison, reference, chip, patternOf_eq h,
    and_assoc]

/-- The comparisons of consecutive pattern steps add, for each lag, one for every step that differs. -/
theorem compareValues_count (seed : Nat) (value : Nat → Bool) (i : Fin 16) :
    ∀ (n p : Nat) (counters : Vector Nat 16), (compareValues seed value n p counters)[i]
      = counters[i] + (List.range' p n).countP fun q => mismatchAt seed q (value q) i
  | 0, _, counters => rfl
  | n + 1, p, counters => by
    rw [compareValues, compareValues_count seed value i n, List.range'_succ, List.countP_cons]
    simp only [compareValue, mapIds, Fin.getElem_fin, Vector.getElem_ofFn]
    split <;> omega

end Sys2Proof.Machine
end

