-- ==== Sys2Proof/Laws/Served.lean ====
section
/-! SUPPORT. Laws/Served.lean: what CAP serves for a slot of a page (R52), and where the retained entries of a segment come
from (R47, R48, R63). -/

namespace Sys2Proof.Machine

/-! ## The staged writes over DRAM (R52) -/

/-- Writes in order over a region that each of them fills whole or leaves alone: the last one that fills it is read. -/
theorem foldl_region {α : Type} (write : Memory → α → Memory) (base n : Nat) (hit : α → Bool) (bytes : α → List Byte) :
    ∀ (l : List α) (m : Memory), Memory.wf m → (∀ x ∈ l, ∀ m, Memory.wf m → Memory.wf (write m x)) →
      (∀ x ∈ l, ∀ m, Memory.wf m → ∀ k, k < n →
        Memory.read (write m x) (base + k) = if hit x then (bytes x).getD k 0#8 else Memory.read m (base + k)) →
      ∀ k, k < n → Memory.read (l.foldl write m) (base + k)
        = match (l.filter hit).getLast? with
          | some x => (bytes x).getD k 0#8
          | none => Memory.read m (base + k)
  | [], _, _, _, _, _, _ => rfl
  | x :: l, m, wf, keeps, fills, k, below => by
    rw [List.foldl_cons, foldl_region write base n hit bytes l (write m x) (keeps x (by simp) m wf)
      (fun y mem => keeps y (by simp [mem])) (fun y mem => fills y (by simp [mem])) k below, List.filter_cons]
    have here := fills x (by simp) m wf k below
    cases last : (l.filter hit).getLast? with
    | some y =>
      cases hx : hit x <;> simp [last, List.getLast?_cons]
    | none =>
      rw [List.getLast?_eq_none_iff] at last
      cases hx : hit x <;> simp [last, here, hx]

/-- A staged entry over a slot of a record page. -/
theorem StagedEntry.read_writeTo_entry (e : StagedEntry) {m : Memory} (wf : Memory.wf m) {page slot k : Nat}
    (inPage : e.slot < 510) (slotIn : slot < 510) (below : k < 8) :
    Memory.read (e.writeTo m) (entryAddress page slot + k)
      = if e.page = page ∧ e.slot = slot then e.entry.encode.getD k 0#8
        else Memory.read m (entryAddress page slot + k) := by
  have size : e.entry.encode.length = 8 := rfl
  have other : ∀ h : PageHeader, Memory.read (Memory.writeBytes m (headerAddress e.page) h.encode)
      (entryAddress page slot + k) = Memory.read m (entryAddress page slot + k) := by
    intro h
    have size : h.encode.length = 16 := rfl
    rw [Memory.read_writeBytes wf, if_neg]
    simp only [entryAddress, headerAddress, Config.pageBytes, size]
    omega
  have placed : ∀ m' : Memory, Memory.wf m' →
      Memory.read m' (entryAddress page slot + k) = Memory.read m (entryAddress page slot + k) →
      Memory.read (Memory.writeBytes m' (entryAddress e.page e.slot) e.entry.encode) (entryAddress page slot + k)
        = if e.page = page ∧ e.slot = slot then e.entry.encode.getD k 0#8
          else Memory.read m (entryAddress page slot + k) := by
    intro m' wf' same
    rw [Memory.read_writeBytes wf', same, size]
    by_cases hit : e.page = page ∧ e.slot = slot
    · rw [if_pos hit, hit.1, hit.2, if_pos (by omega), Nat.add_sub_cancel_left]
    · rw [if_neg hit, if_neg]
      simp only [entryAddress, Config.pageBytes]
      omega
  unfold StagedEntry.writeTo
  cases e.header with
  | none => exact placed m wf rfl
  | some h => exact placed _ (Memory.writeBytes_wf wf _ _) (other h)

/-- A staged entry over a header. -/
theorem StagedEntry.read_writeTo_header (e : StagedEntry) {m : Memory} (wf : Memory.wf m) {page k : Nat}
    (inPage : e.slot < 510) (below : k < 16) :
    Memory.read (e.writeTo m) (headerAddress page + k)
      = if e.page = page ∧ e.header ≠ none then ((e.header.map PageHeader.encode).getD []).getD k 0#8
        else Memory.read m (headerAddress page + k) := by
  have size : e.entry.encode.length = 8 := rfl
  have other : ∀ m' : Memory, Memory.wf m' →
      Memory.read (Memory.writeBytes m' (entryAddress e.page e.slot) e.entry.encode) (headerAddress page + k)
        = Memory.read m' (headerAddress page + k) := by
    intro m' wf'
    rw [Memory.read_writeBytes wf', if_neg]
    simp only [entryAddress, headerAddress, Config.pageBytes, size]
    omega
  unfold StagedEntry.writeTo
  cases he : e.header with
  | none => simpa using other m wf
  | some h =>
    have size : h.encode.length = 16 := rfl
    simp only [other _ (Memory.writeBytes_wf wf _ _), Memory.read_writeBytes wf, size]
    by_cases hit : e.page = page
    · rw [hit, if_pos (by omega), if_pos (by simp), Nat.add_sub_cancel_left]; rfl
    · rw [if_neg, if_neg (by simp [hit])]
      simp only [headerAddress, Config.pageBytes]
      omega

/-- A staged annotation over a region of another page. -/
theorem StagedAnnotation.read_writeTo_other (a : StagedAnnotation) {m : Memory} (wf : Memory.wf m) {page k : Nat}
    (inPage : a.slot < 256) (below : k < 4096) (apart : a.page ≠ page) :
    Memory.read (a.writeTo m) (page * 4096 + k) = Memory.read m (page * 4096 + k) := by
  have size : a.annotation.encode.length = 16 := by
    simp only [Annotation.encode, List.length_append, leBytes, List.length_cons, List.length_nil]
  rw [StagedAnnotation.writeTo, Memory.read_writeBytes wf, if_neg]
  simp only [annotationAddress, Config.pageBytes, size]
  omega

theorem StagedEntry.foldl_wf : ∀ (l : List StagedEntry) {m : Memory}, Memory.wf m →
    Memory.wf (l.foldl (fun m e => e.writeTo m) m)
  | [], _, wf => wf
  | e :: l, _, wf => StagedEntry.foldl_wf l (e.writeTo_wf wf)

/-- An entry that stands at a slot of a page without staged annotations is served byte by byte. -/
theorem Cap.served_entry {c : Cap} (wf : Memory.wf c.dram) (slots : ∀ e ∈ c.staged, e.slot < 510)
    (slots' : ∀ a ∈ c.stagedAnnotations, a.slot < 256) {page slot : Nat} (slotIn : slot < 510)
    (apart : ∀ a ∈ c.stagedAnnotations, a.page ≠ page) {x : Entry} (stands : c.standsEntry page slot x) :
    Memory.readBytes c.served (entryAddress page slot) 8 = x.encode := by
  have size : x.encode.length = 8 := rfl
  have kept := StagedEntry.foldl_wf c.staged wf
  apply List.ext_getElem (by simp [Memory.readBytes, size])
  intro k hk hk'
  rw [size] at hk'
  simp only [Memory.readBytes, List.getElem_map, List.getElem_range, Cap.served]
  have skip := foldl_region (fun m (a : StagedAnnotation) => a.writeTo m) (entryAddress page slot) 8 (fun _ => false)
    (fun _ => []) c.stagedAnnotations _ kept (fun a _ m h => a.writeTo_wf h) (fun a mem m h k below => by
      have same := a.read_writeTo_other h (page := page) (k := 16 + 8 * slot + k) (slots' a mem) (by omega) (apart a mem)
      simpa [entryAddress, Config.pageBytes, Nat.add_assoc] using same) k hk'
  have take := foldl_region (fun m (e : StagedEntry) => e.writeTo m) (entryAddress page slot) 8
    (fun e => decide (e.page = page ∧ e.slot = slot)) (fun e => e.entry.encode) c.staged _ wf
    (fun e _ m h => e.writeTo_wf h) (fun e mem m h k below => by
      simpa using e.read_writeTo_entry h (slots e mem) slotIn below) k hk'
  rw [skip]
  simp only [List.filter_false, List.getLast?_nil]
  rw [take]
  rw [Cap.standsEntry] at stands
  cases last : (c.staged.filter fun e => decide (e.page = page ∧ e.slot = slot)).getLast? with
  | some e =>
    rw [last] at stands
    simp only at stands ⊢
    rw [stands, List.getD_eq_getElem _ _ (by rw [size]; exact hk')]
  | none =>
    rw [last] at stands
    have byte := stands k hk'
    rw [List.getElem?_eq_getElem (by rw [size]; exact hk')] at byte
    exact Option.some.inj byte

/-! ## The retained entries (R47, R48, R63) -/

theorem slotEntries_length (m : Memory) (page : Nat) :
    ∀ n slot sequence tick, (slotEntries m page n slot sequence tick).length = n
  | 0, _, _, _ => rfl
  | n + 1, slot, sequence, tick => by rw [slotEntries, List.length_cons, slotEntries_length m page n]

theorem entryTick_eq (previous : Nat) (x : Entry) : entryTick previous x = x.tickAfter previous := by
  rcases x with ⟨_ | _ | _ | _, _, _⟩ <;> rfl

/-- An entry of consecutive slots: its sequence number, what is served there, and its tick from the one before. -/
theorem slotEntries_get (m : Memory) (page : Nat) : ∀ (n slot sequence tick i : Nat), i < n →
    ∃ e, (slotEntries m page n slot sequence tick)[i]? = some e ∧ e.sequence = sequence + i
      ∧ e.kind = (servedEntry m page (slot + i)).kind ∧ e.state = (servedEntry m page (slot + i)).state
      ∧ (i = 0 → e.tick = (servedEntry m page (slot + i)).tickAfter tick)
      ∧ ∀ f, i ≠ 0 → (slotEntries m page n slot sequence tick)[i - 1]? = some f →
        e.tick = (servedEntry m page (slot + i)).tickAfter f.tick
  | n + 1, slot, sequence, tick, 0, _ => by
    refine ⟨_, rfl, rfl, rfl, rfl, fun _ => entryTick_eq _ _, fun f h => absurd rfl h⟩
  | n + 1, slot, sequence, tick, i + 1, below => by
    obtain ⟨e, at_, seq, kind, state, first, later⟩ := slotEntries_get m page n (slot + 1) (sequence + 1)
      (entryTick tick (servedEntry m page slot)) i (by omega)
    have shift : slot + 1 + i = slot + (i + 1) := by omega
    rw [shift] at kind state first later
    refine ⟨e, at_, by omega, kind, state, fun h => absurd h (by omega), fun f _ before => ?_⟩
    match i with
    | 0 =>
      cases before
      exact first rfl
    | i + 1 => exact later f (by omega) before

/-- The retained entries of a chain, the tail page with its fill. -/
theorem pageEntries_length (m : Memory) (fill : Nat) : ∀ (pages : List Nat) (sequence : Nat), pages ≠ [] →
    (pageEntries m fill pages sequence).length = 510 * (pages.length - 1) + fill
  | [p], sequence, _ => by rw [pageEntries, slotEntries_length]; simp
  | p :: q :: pages, sequence, _ => by
    rw [pageEntries, List.length_append, slotEntries_length, pageEntries_length m fill (q :: pages) _ (by simp)]
    simp only [Config.entriesPerPage, List.length_cons]
    omega

/-- Entry `i` of a chain lies in slot i mod 510 of page i / 510 of it. -/
theorem pageEntries_get (m : Memory) (fill : Nat) (full : fill ≤ 510) : ∀ (pages : List Nat) (sequence i p : Nat),
    i < 510 * (pages.length - 1) + fill → pages[i / 510]? = some p →
    ∃ e, (pageEntries m fill pages sequence)[i]? = some e ∧ e.sequence = sequence + i
      ∧ e.kind = (servedEntry m p (i % 510)).kind ∧ e.state = (servedEntry m p (i % 510)).state
      ∧ (i % 510 = 0 → e.tick = (servedEntry m p (i % 510)).tickAfter (servedHeader m p).baseTick)
      ∧ ∀ f, i % 510 ≠ 0 → (pageEntries m fill pages sequence)[i - 1]? = some f →
        e.tick = (servedEntry m p (i % 510)).tickAfter f.tick
  | [], _, i, p, _, at_ => nomatch at_
  | [page], sequence, i, p, below, at_ => by
    have small : i < 510 := by simp at below; omega
    rw [Nat.div_eq_of_lt small] at at_
    cases at_
    rw [Nat.mod_eq_of_lt small]
    have got := slotEntries_get m page fill 0 sequence (servedHeader m page).baseTick i (by simpa using below)
    simpa [pageEntries] using got
  | page :: q :: pages, sequence, i, p, below, at_ => by
    by_cases small : i < 510
    · rw [Nat.div_eq_of_lt small] at at_
      cases at_
      rw [Nat.mod_eq_of_lt small]
      obtain ⟨e, here, rest⟩ := slotEntries_get m page 510 0 sequence (servedHeader m page).baseTick i small
      simp only [Nat.zero_add] at rest
      have front : ∀ j, j < 510 → (pageEntries m fill (page :: q :: pages) sequence)[j]?
          = (slotEntries m page 510 0 sequence (servedHeader m page).baseTick)[j]? := by
        intro j h
        rw [pageEntries]
        exact List.getElem?_append_left (by rw [slotEntries_length]; exact h)
      rw [front i small, front (i - 1) (by omega)]
      exact ⟨e, here, rest⟩
    · have back : ∀ j, 510 ≤ j → (pageEntries m fill (page :: q :: pages) sequence)[j]?
          = (pageEntries m fill (q :: pages) (sequence + 510))[j - 510]? := by
        intro j h
        rw [pageEntries, List.getElem?_append_right (by rw [slotEntries_length]; exact h), slotEntries_length]
        rfl
      have page' : i / 510 = (i - 510) / 510 + 1 := by omega
      have slot' : i % 510 = (i - 510) % 510 := by omega
      rw [page', List.getElem?_cons_succ] at at_
      obtain ⟨e, here, seq, kind, state, first, later⟩ := pageEntries_get m fill full (q :: pages) (sequence + 510)
        (i - 510) p (by simp only [List.length_cons] at below ⊢; omega) at_
      rw [← slot'] at kind state first later
      refine ⟨e, by rw [back i (by omega), here], by omega, kind, state, first, fun f inside before => later f inside ?_⟩
      rw [back (i - 1) (by omega)] at before
      rw [← before, show i - 510 - 1 = i - 1 - 510 by omega]

end Sys2Proof.Machine
end

