-- ==== Sys2Proof/Laws/Trigger.lean ====
section
/-! SUPPORT. Laws/Trigger.lean: the visit of a stage's branches and the evaluation of one event (R160, R161): everything
that an event does, once. -/

namespace Sys2Proof.Machine

/-- A branch of the visit counts the event. -/
def visitCounts (branches : Vector Branch 4) (matched : UnitId → Bool) (b : BranchId) : Bool :=
  branches[b].enabled && matched branches[b].unit

/-- R160: a visit that takes no branch raises the counters of those that count; one that takes a branch takes the first
that reaches its target. -/
theorem visitBranches_spec (branches : Vector Branch 4) (matched : UnitId → Bool) :
    ∀ (l : List BranchId) (n : Vector Nat 4), l.Pairwise (· < ·) →
      ((visitBranches branches matched l n).2 = none →
        (∀ b ∈ l, visitCounts branches matched b = true → n[b] + 1 ≠ branches[b].target)
        ∧ ∀ b : BranchId, (visitBranches branches matched l n).1[b]
            = if b ∈ l ∧ visitCounts branches matched b = true then n[b] + 1 else n[b])
      ∧ ∀ br, (visitBranches branches matched l n).2 = some br → ∃ b ∈ l, br = branches[b]
          ∧ visitCounts branches matched b = true ∧ n[b] + 1 = branches[b].target
          ∧ ∀ j ∈ l, j < b → visitCounts branches matched j = true → n[j] + 1 ≠ branches[j].target
  | [], n, _ => by simp [visitBranches]
  | b :: rest, n, h => by
    obtain ⟨hb, hr⟩ := List.pairwise_cons.mp h
    by_cases hc : visitCounts branches matched b = true
    · by_cases ht : n[b] + 1 = branches[b].target
      · have : visitBranches branches matched (b :: rest) n = (n, some branches[b]) := by
          have hc' := hc
          simp only [visitCounts] at hc'
          simp only [visitBranches, hc', if_true, ht]
        rw [this]
        refine ⟨nofun, fun br hbr => ⟨b, by simp, by simpa using hbr.symm, hc, ht, ?_⟩⟩
        intro j hj hlt
        rcases List.mem_cons.mp hj with rfl | hj
        · exact absurd hlt (lt_irrefl _)
        · exact absurd (hb j hj) (not_lt.mpr hlt.le)
      · have : visitBranches branches matched (b :: rest) n
            = visitBranches branches matched rest (n.set b (n[b] + 1)) := by
          have hc' := hc
          simp only [visitCounts] at hc'
          simp only [visitBranches, hc', if_true, ht, if_false]
        rw [this]
        obtain ⟨h1, h2⟩ := visitBranches_spec branches matched rest (n.set b (n[b] + 1)) hr
        have hne : ∀ j : BranchId, j ∈ rest → (n.set b (n[b] + 1))[j] = n[j] := fun j hj => by
          have : b ≠ j := (hb j hj).ne
          have : (b : Nat) ≠ j := fun e => this (Fin.ext e)
          simp [Vector.getElem_set_ne, this]
        refine ⟨fun hn => ⟨?_, fun j => ?_⟩, fun br hbr => ?_⟩
        · intro j hj hcj
          rcases List.mem_cons.mp hj with rfl | hj
          · exact ht
          · have := (h1 hn).1 j hj hcj
            rwa [hne j hj] at this
        · rw [(h1 hn).2 j]
          by_cases hjb : j = b
          · subst hjb
            have : j ∉ rest := fun m => lt_irrefl _ (hb j m)
            simp [this, hc]
          · have hjb' : (b : Nat) ≠ j := fun e => hjb (Fin.ext e.symm)
            simp [hjb, Vector.getElem_set_ne, hjb']
        · obtain ⟨b', hb', e, cc, tt, mm⟩ := h2 br hbr
          refine ⟨b', List.mem_cons_of_mem _ hb', e, cc, by rwa [hne b' hb'] at tt, ?_⟩
          intro j hj hlt hcj
          rcases List.mem_cons.mp hj with rfl | hj
          · exact ht
          · have := mm j hj hlt hcj
            rwa [hne j hj] at this
    · have : visitBranches branches matched (b :: rest) n = visitBranches branches matched rest n := by
        have hc' := hc
        simp only [visitCounts] at hc'
        rw [visitBranches, if_neg hc']
      rw [this]
      obtain ⟨h1, h2⟩ := visitBranches_spec branches matched rest n hr
      refine ⟨fun hn => ⟨?_, fun j => ?_⟩, fun br hbr => ?_⟩
      · intro j hj hcj
        rcases List.mem_cons.mp hj with rfl | hj
        · exact absurd hcj hc
        · exact (h1 hn).1 j hj hcj
      · rw [(h1 hn).2 j]
        by_cases hjb : j = b
        · subst hjb; simp [hc]
        · simp [hjb]
      · obtain ⟨b', hb', e, cc, tt, mm⟩ := h2 br hbr
        refine ⟨b', List.mem_cons_of_mem _ hb', e, cc, tt, ?_⟩
        intro j hj hlt hcj
        rcases List.mem_cons.mp hj with rfl | hj
        · exact absurd hcj hc
        · exact mm j hj hlt hcj

/-- R160, R161: an evaluated event. -/
theorem evaluate_takesEvent (s : State) (m : UnitId → Bool) (tick : Nat) :
    ∃ (q : Trg) (sent : List Fire) (n : Bool), s.trg.takesEvent (fun i => m i = true) tick q sent n
      ∧ s.evaluate m tick = { s with
          trg := q, cap := { s.cap with fires := s.cap.fires ++ sent }
          cmd := { s.cmd with pending := if n then s.cmd.pending ||| BitVec.twoPow 14 2 else s.cmd.pending } } := by
  have hp : (everyId 4).Pairwise (· < ·) := by decide
  have hm : ∀ b : BranchId, b ∈ everyId 4 := by decide
  obtain ⟨h1, h2⟩ := visitBranches_spec s.trg.branches[s.trg.stage] m (everyId 4) s.trg.counters[s.trg.stage] hp
  have hcount : ∀ b, s.trg.countsEvent (fun i => m i = true) b
      ↔ visitCounts s.trg.branches[s.trg.stage] m b = true := by
    intro b; simp [Trg.countsEvent, visitCounts]
  unfold State.evaluate
  rcases hv : visitBranches s.trg.branches[s.trg.stage] m (everyId 4) s.trg.counters[s.trg.stage] with ⟨n, _ | br⟩
  · rw [hv] at h1
    obtain ⟨hn, hc⟩ := h1 rfl
    refine ⟨{ s.trg with counters := s.trg.counters.set s.trg.stage n }, [], false, ⟨?_, ?_⟩, ?_⟩
    · intro b hb
      exact absurd hb.2.1 (hn b (hm b) ((hcount b).mp hb.1))
    · intro _
      refine ⟨rfl, rfl, rfl, fun i j hi => ?_, fun j => ⟨fun h => ?_, fun h => ?_⟩⟩
      · have : (s.trg.stage : Nat) ≠ i := fun e => hi (Fin.ext e.symm)
        simp [Vector.getElem_set_ne, this]
      · have := hc j
        rw [if_pos ⟨hm j, (hcount j).mp h⟩] at this
        simpa using this
      · have := hc j
        rw [if_neg (fun k => h ((hcount j).mpr k.2))] at this
        simpa using this
    · simp [State.setTrg]
  · rw [hv] at h2
    obtain ⟨b, -, rfl, hb, ht, hl⟩ := h2 br rfl
    have hb' := (hcount b).mpr hb
    set br := s.trg.branches[s.trg.stage][b] with hbr
    refine ⟨{ s.trg with counters := zeroCounters, stage := br.next, entryTick := s.trg.time,
                         outstanding := br.fire || s.trg.outstanding,
                         lastFire := if br.fire then some (tick, false) else s.trg.lastFire },
      (if br.fire then [⟨tick, false, true⟩] else []), br.notice, ⟨?_, ?_⟩, ?_⟩
    · intro b' h'
      have : b' = b := by
        rcases lt_trichotomy b' b with k | k | k
        · exact absurd h'.2.1 (hl b' (hm b') k ((hcount b').mp h'.1))
        · exact k
        · exact absurd ht (h'.2.2 b k hb')
      subst this
      refine ⟨rfl, fun i j => ?_, rfl, rfl⟩
      simp [zeroCounters]
    · intro hno
      exact absurd ⟨hb', ht, fun j hj hc => hl j (hm j) hj ((hcount j).mp hc)⟩ (hno b)
    · cases hf : br.fire <;> cases hn : br.notice <;>
        simp [State.branchActions, State.sendFire, State.setTrg, State.setCap, State.raise, State.setCmd, Cmd.raise,
          Notice.index, Trg.enterStage, hf, hn]

end Sys2Proof.Machine
end

