-- ==== Sys2Proof/WellFormed.lean ====
section
/-! DEFINITION. WellFormed.lean: which commands can arise. A request carries at most 65,535 parameter bytes (Table 13-1),
and UNKNOWN_REQUEST is a code outside 0x01 to 0x2E (R185). An ill-formed command is none of the device's events; the
meanings are total all the same. -/

namespace Sys2Proof

/-- The number of filter entries, rows or descriptors that one count byte carries. -/
def fitsCountByte (n : Nat) : Bool := decide (n ≤ 255)

/-- The settings of CONTEXT_CONFIGURE that are lists. -/
def ProtocolParams.wellFormed : ProtocolParams → Bool
  | .twoWire _ _ settings => fitsCountByte settings.filter.length
  | .async .. | .clocked .. | .flash .. | .unknown => true

/-- A command that can arise. -/
def Instr.wellFormed : Instr → Bool
  | .unknownRequest code => decide (code.toNat = 0 ∨ 0x2E < code.toNat)
  | .flashSetLoad params => decide (params.length ≤ 65535)
  | .contextConfigure _ _ params => params.protocol.wellFormed
  | .viewSet _ params => fitsCountByte params.rows.length
  | .powerOn | .portSelectAssert | .portSelectDeassert | .thresholdSet .. | .deskewSet .. | .glitchWidthSet ..
  | .frontEndRead .. | .linesRead | .monitorSet .. | .monitorRead .. | .setLevel .. | .levelStatus | .calibrate ..
  | .calibrationAbort | .readCalibration | .poolThresholdSet .. | .poolStatus | .segmentPrepare .. | .segmentStatus ..
  | .segmentStart .. | .segmentStop | .segmentAbort | .segmentRetire .. | .segmentRead .. | .annotationRead ..
  | .contextOpen .. | .contextClose .. | .contextStart .. | .contextStop .. | .contextStatus .. | .flashModelClear ..
  | .recordsTake .. | .queueThresholdSet .. | .queueStatus | .queueAckGap | .matchUnitSet .. | .branchSet ..
  | .triggerForce | .triggerStatus | .triggerProgramRead | .refresh | .displayStatus | .noticesRead | .noticesMask ..
  | .identify | .reset | .sampleStep .. | .quietTimerExpiry .. | .idleTimerExpiry .. | .wordGapTimerExpiry ..
  | .stuckTimerExpiry .. | .busFreeTimerExpiry .. | .patternHoldExpiry .. | .stageTimerExpiry | .calMeasuringEntry
  | .calibrationComplete | .countExhausted | .levelTransitionComplete | .fireAccept .. | .recordPathDelivery ..
  | .drainCompletion | .segmentReadResponseFormed | .annotationReadResponseFormed | .refreshColumnRead
  | .refreshSendComplete | .segmentReadEntryTake | .annotationReadEntryTake => true

end Sys2Proof
end

