-- ==== Sys2Proof/Tests/Slice0.lean ====
section
/-! SUPPORT. Tests/Slice0.lean: the model's own tests: ill-formed commands refused, the manual's worked examples, and for
every statement with hypotheses a witness theorem that meets them. -/

namespace Sys2Proof.Tests

open Sys2Proof.Machine

/-! ## Helpers -/

/-- After power-on, in an open request frame. -/
def ready : State := { State.reset with cmd := { Cmd.reset with frame := .request } }

/-- The same, resting in STANDBY. -/
def resting : State :=
  { ready with lvl := ⟨.standby, .steady, none, 0, false⟩, pfe := { Pfe.reset with run := none, active := none } }

/-- `ready` with a sampling run that has formed a sample. -/
def sampled : State := { ready with pfe := { Pfe.reset with run := some ⟨0, 1, 25, 1⟩ } }

/-- A state with segment 2 replaced. -/
def withSegment (s : State) (g : Segment) : State :=
  { s with cap := { s.cap with segments := s.cap.segments.set 2 g } }

/-- A state with context 5 replaced. -/
def withContext (s : State) (c : Context) : State :=
  { s with dec := { s.dec with contexts := s.dec.contexts.set 5 c } }

/-- `ready` with segment 2 capturing before its trigger. -/
def capturing : State := withSegment sampled { state := .preTrigger, startTick := some 0 }

/-- `ready` with CAL measuring. -/
def measuring : State := { ready with cal := { Cal.reset with state := .measuring } }

/-- `ready` with a transition to ECONOMY in progress. -/
def switching : State :=
  { ready with lvl := { Lvl.reset with transition := .switching .economy }, pfe := { Pfe.reset with run := none } }

theorem admits_of {s : State} (h : s.cmd.frame = .request) (k : s.cmd.held = none) (l : s.lvl.level ≠ .standby) :
    s.admits := ⟨⟨h, k⟩, fun r => l r.1⟩

theorem ready_admits : ready.admits := admits_of rfl rfl (by decide)

theorem withSegment_admits (s : State) (h : s.admits) (g : Segment) : (withSegment s g).admits := h

theorem withContext_admits (s : State) (h : s.admits) (c : Context) : (withContext s c).admits := h

theorem sampled_admits : sampled.admits := admits_of rfl rfl (by decide)

theorem capturing_only : capturing.capturesOnly 2 := by
  constructor
  · exact .inl rfl
  · simp only [State.captures]; decide

theorem ready_noCapture : ready.noCapture := by simp only [State.noCapture, State.captures]; decide

theorem ready_steady : ¬ ready.switches := by rintro ⟨t, h⟩; exact nomatch h

theorem ready_uncalibrated : ¬ ready.calibrates := by simp only [State.calibrates]; decide

theorem measuring_calibrates : measuring.calibrates := .inr rfl

theorem switching_switches : switching.switches := ⟨.economy, rfl⟩

/-! ## Well-formed commands -/

theorem test_unknownRequest_recognised_illFormed : (Instr.unknownRequest 0x2E#8).wellFormed = false := by decide

theorem test_unknownRequest_above_wellFormed : (Instr.unknownRequest 0x2F#8).wellFormed = true := by decide

theorem test_flashSetLoad_tooLong_illFormed : (Instr.flashSetLoad (List.replicate 65536 0#8)).wellFormed = false := by
  simp only [Instr.wellFormed, List.length_replicate]; decide

theorem test_configure_filterTooLong_illFormed :
    (Instr.contextConfigure .enough 0#8
      ⟨.twoWire none none ⟨List.replicate 256 (0, 0), 0, 0, 0, 0⟩, false, false, 1⟩).wellFormed = false := by
  simp only [Instr.wellFormed, ProtocolParams.wellFormed, fitsCountByte, List.length_replicate]; decide

theorem test_viewSet_rowsTooMany_illFormed :
    (Instr.viewSet .enough ⟨none, 0, 1, false, List.replicate 256 (.channel 0#8)⟩).wellFormed = false := by
  simp only [Instr.wellFormed, fitsCountByte, List.length_replicate]; decide

/-! ## The manual's worked examples -/

/-- Table 1-3: glitch width 2, raw 0 1 1 0 0 1 1 1; the pulse of steps 1 and 2 ends at step 3, the rise is accepted at
step 7 and dated at step 5. -/
theorem test_glitch_filter_example :
    ((GlitchFilter.begin false).feed 2 1 [true, true, false, false, true, true, true]).2
      = [false, false, true, false, false, false, false]
    ∧ ((GlitchFilter.begin false).feed 2 1 [true, true, false, false, true, true, true]).1.accepted = true
    ∧ ((List.range 8).map fun i =>
        ((GlitchFilter.begin false).feed 2 1 [true, true, false, false, true, true, true]).1.history.getLsbD (7 - i))
      = [false, false, false, false, false, true, true, true] := by decide

/-- Table 1-6: the activity monitor with a quiet time of 1,000 ticks. -/
theorem test_activity_example :
    let m1 := Monitor.fresh.sample false 1000 5000 true
    let m2 := m1.sample false 1000 7000 true
    let m3 := m2.sample false 1000 7400 true
    let m4 := m3.sample false 1000 8100 true
    let m5 := m4.sample false 1000 9100 false
    m1.remembered = some 5000 ∧ m2.remembered = some 7000 ∧ m2.activity = .quiet ∧ m3.activity = .active
      ∧ m4.quietFrom = some 8100 ∧ m4.edges = 4 ∧ m5.activity = .quiet ∧ m5.remembered = none := by decide

/-- R16: a last change at FULL at tick 102 with Q = 2 expires at tick 104; R7: not where that is the first
sample of its run. -/
theorem test_expiry_kept_over_a_transition :
    (⟨2, 0, true, .active, none, some 102, some 104⟩ : Monitor).quietDue false 2 103 = false
    ∧ (⟨2, 0, true, .active, none, some 102, some 104⟩ : Monitor).quietDue false 4 104 = true
    ∧ (Monitor.sample ⟨2, 0, true, .active, none, some 102, some 104⟩ false 4 104 false).activity = .quiet
    ∧ (Monitor.sample ⟨2, 0, true, .active, none, some 102, some 104⟩ true 4 104 false).activity = .active := by decide

/-- R15: a last change at FULL at tick 103, Q = 1 written while no run exists: at ECONOMY that Q acts as 4, so that the
channel is ACTIVE at tick 104 and QUIET at tick 108. -/
theorem test_quiet_time_written_before_economy :
    (Monitor.sample ⟨2, 0, true, .active, none, some 103, none⟩ false 4 104 false)
      = ⟨2, 0, true, .active, none, some 103, some 107⟩
    ∧ (Monitor.sample ⟨2, 0, true, .active, none, some 103, some 107⟩ false 4 108 false).activity = .quiet := by decide

/-- 3.3: seed 1 gives fourteen zero chips and then a one at chip 14. -/
theorem test_pattern_seed_one :
    (List.range 14).all (fun i => !chip 1 i) = true ∧ chip 1 14 = true := by decide

/-- Table 4-5: the entries of a change after 40,000,000 ticks and after 2^24 ticks. -/
theorem test_long_gap_entries :
    formedEntries .change 40000000 0x07#32 0x06#32 = [⟨.extend, 2, 0x07#32⟩, ⟨.change, 6445568, 0x06#32⟩]
    ∧ formedEntries .change 16777216 0x06#32 0x02#32 = [⟨.extend, 1, 0x06#32⟩, ⟨.change, 0, 0x02#32⟩] := by decide

/-- Table 8-11, transfer 2: the program of 32 bytes at 0x0120F0 wraps in its page. -/
theorem test_page_wrap_example :
    endAddressOf {} none ⟨0x42#8, 3, 1, false, 0#4, 0, .toTarget, 1, .programPage⟩ 0x0120F0 32
      = (0x01200F, [(.pageWrap, true)]) := by decide

/-- Table 8-11, transfer 7: eight bytes read at 0x0003FC with wrap length 16. -/
theorem test_wrapped_read_example :
    endAddressOf {} (wrapOf 0x05#8) ⟨0x6C#8, 3, 4, true, 10#4, 4, .fromTarget, 4, .read⟩ 0x0003FC 8
      = (0x0003F3, [(.wrappedRead, true)]) := by decide

/-- Table 8-3: three bits 1, 1, 0, most significant first, are 6. -/
theorem test_partial_word_example :
    ({} : ClockedSettings).number [true, true, false] = 6
    ∧ ({} : ClockedSettings).number [true, false, true, false, false, true, true, true] = 0xA7 := by decide

/-- 7.10: at period 444,441 the centre of bit 4 lies 1,999,984 fine units after the start edge. -/
theorem test_bit_centre_example : centre 0 444441 4 = 1999984 := by decide

/-- R21: at ECONOMY the last stamp is 2^48 - 4: the sample that carries it exhausts the count. -/
theorem test_economy_exhaustion :
    Lvl.advance ⟨.economy, .steady, none, 2 ^ 48 - 4, false⟩ 4
      = ⟨.economy, .steady, none, 2 ^ 48 - 1, true⟩ := by decide

/-- R158: a two-wire address is compared in the mask's low seven bits, a flash address in all of them. -/
theorem test_record_address_compare :
    let compare : RecordCompare := ⟨0x7F#7, 0#32, 0#32, Vector.replicate 4 0#8, Vector.replicate 4 0#8, 0x150#32,
      0x1FF#32⟩
    let r : Record := ⟨0, .message, 0, 0, 0#32, 0, [], none, none, some 0x50, 0, none, none, none, none, none, none, none⟩
    recordPasses compare r = true ∧ recordPasses compare { r with kind := .flashOp } = false := by decide

/-- R158: AFTER_GAP is a flag like the others; a payload position beyond the length fails its compare. -/
theorem test_record_compare :
    recordPasses ⟨0x08#7, 0#32, 0x08#32, Vector.replicate 4 0#8, Vector.replicate 4 0#8, 0#32, 0#32⟩
      ⟨5, .word, 0, 9, 0x08#32, 1, [0xA7#8], none, none, none, 0, none, none, none, none, none, none, none⟩ = true
    ∧ recordPasses ⟨0x08#7, 0#32, 0#32, Vector.replicate 4 0#8, #v[0#8, 1#8, 0#8, 0#8], 0#32, 0#32⟩
      ⟨5, .word, 0, 9, 0x08#32, 1, [0xA7#8], none, none, none, 0, none, none, none, none, none, none, none⟩
      = false := by decide

/-- Table 13-3: a CHANGE with delta 250 and state 0x07. -/
theorem test_entry_layout :
    Entry.encode ⟨.change, 250, 0x07#32⟩ = [7#8, 0#8, 0#8, 0#8, 250#8, 0#8, 0#8, 1#8] := by decide

/-- Table 13-2 and R185: the response bytes of a RECORDS_TAKE on the empty queue. -/
theorem test_records_take_bytes :
    ((ready.after (.recordsTake .enough 3)).cmd.response.map Response.bytes)
      = some [0xA5#8, 0#8, 8#8, 0#8, 0#8, 0#8, 0#8, 0#8, 0#8, 0#8, 0#8, 0#8] := by decide

/-- R185: the codes that the rule names. -/
theorem test_request_codes :
    requestCode (.setLevel .enough 0#8) = some 0x08 ∧ requestCode (.calibrate .enough 0#32 0 0) = some 0x0A
      ∧ requestCode (.segmentStart .enough 0#8) = some 0x11 ∧ requestCode (.recordsTake .enough 0) = some 0x1F
      ∧ requestCode (.flashSetLoad []) = some 0x1D ∧ requestCode .reset = some 0x2E := by decide

/-- Table 13-1 and R185: SET_LEVEL to ECONOMY, NOTICES_MASK of kinds 0 and 13, a surplus byte ignored. -/
theorem test_frames_decode :
    decodeFrame [0x08#8, 1#8, 0#8, 1#8] = some (.setLevel .enough 1#8)
    ∧ decodeFrame [0x2C#8, 2#8, 0#8, 0x01#8, 0x20#8, 0xFF#8] = some (.noticesMask .enough 0x2001#16)
    ∧ decodeFrame [0x07#8, 4#8, 0#8, 1#8, 0#8, 0#8, 0x80#8] = some (.monitorRead .enough 0x80000001#32)
    ∧ decodeFrame [0x2E#8, 0#8, 0#8] = some .reset ∧ decodeFrame [0x2F#8, 0#8, 0#8] = some (.unknownRequest 0x2F#8) := by
  decide

/-- R178, R179: a request that is not complete is none; one with too few parameter bytes is short. -/
theorem test_frames_incomplete :
    decodeFrame [0x08#8, 1#8] = none ∧ decodeFrame [0x08#8, 1#8, 0#8] = none
    ∧ decodeFrame [0x08#8, 0#8, 0#8] = some (.setLevel .short 0#8) := by decide

/-- Table 13-2: two filler bytes, the marker, status OK, data length 0, and filler again. -/
theorem test_returned_bytes :
    ((List.range 8).map ((ready.after (.setLevel .enough 0#8)).cmd.returnedByte 2))
      = [0xFF#8, 0xFF#8, 0xA5#8, 0#8, 0#8, 0#8, 0xFF#8, 0xFF#8] := by decide

/-! ## Single commands -/

theorem test_threshold_set : (ready.after (.thresholdSet .enough 3#8 9#8)).pfe.thresholds[3] = 9#8 := by decide

theorem test_deskew_clamped :
    (ready.after (.deskewSet .enough 0#8 0x200#32 (-20))).pfe.full.offsets[9] = -8 := by decide

theorem test_glitch_width_clamped : (ready.after (.glitchWidthSet .enough 1#8 2#8 99)).pfe.economy.widths[1] = 15 := by
  decide

theorem test_short_parameters : (ready.after (.thresholdSet .short 3#8 9#8)).cmd.response = some ⟨.badParam, .none⟩ := by
  decide

theorem test_unknown_request : (ready.after (.unknownRequest 0x2F#8)).cmd.response = some ⟨.unknown, .none⟩ := by decide

theorem test_set_level_begins : (ready.after (.setLevel .enough 1#8)).lvl.transition = .switching .economy := by decide

theorem test_set_level_own_destination :
    (ready.after (.setLevel .enough 0#8)).cmd.response = some ⟨.ok, .none⟩ := by decide

theorem test_standby_level : (resting.after .linesRead).cmd.response = some ⟨.level, .none⟩ := by decide

theorem test_segment_prepare_limit :
    ((ready.after (.segmentPrepare .enough 2#8 0#32 0 0#32 0 0)).cap.segments[2]).limit = 2 := by decide

theorem test_segment_start_without_sample :
    ((withSegment ready { state := .primed }).after (.segmentStart .enough 2#8)).cmd.response
      = some ⟨.level, .none⟩ := by decide

theorem test_segment_start_pool :
    ((withSegment sampled { state := .primed }).after (.segmentStart .enough 2#8)).cap.pool
      = ⟨some 2, some 32767, 32766⟩ := by decide

theorem test_segment_stop : ((capturing.after .segmentStop).cap.segments[2]).sealReason = some .stopped := by decide

/-- R54, R74: an abort while DROPPING counts the episode in a pinned segment. -/
theorem test_abort_counts_dropping :
    (({ withSegment sampled { state := .preTrigger, pins := 1, dropouts := 3 } with
        cap := { (withSegment sampled { state := .preTrigger, pins := 1, dropouts := 3 }).cap with
          encoder := ⟨.dropping 2, 0#32, 0⟩ } } : State).after .segmentAbort).cap.segments[2].dropouts = 4 := by decide

theorem test_segment_retire_vacant :
    (ready.after (.segmentRetire .enough 0#8)).cmd.response = some ⟨.notFound, .none⟩ := by decide

theorem test_context_open : ((ready.after (.contextOpen .enough 5#8)).dec.contexts[5]).state = .idle := by decide

theorem test_context_start_unconfigured :
    ((withContext ready { state := .idle }).after (.contextStart .enough 5#8)).cmd.response
      = some ⟨.wrongState, .none⟩ := by decide

theorem test_queue_threshold_clamped : (ready.after (.queueThresholdSet .enough 600)).dec.threshold = 512 := by decide

theorem test_match_unit_elapsed_zero : (ready.after (.matchUnitSet .enough 4#8 (.elapsed 0#32))).trg.units[4]
    = .elapsed 1 := by decide

theorem test_trigger_force_idle : (ready.after .triggerForce).cmd.response = some ⟨.wrongState, .none⟩ := by decide

theorem test_refresh_no_segment : (ready.after .refresh).cmd.response = some ⟨.notFound, .none⟩ := by decide

theorem test_pool_threshold_raises : (ready.after (.poolThresholdSet .enough 32768)).cap.poolArmed = true := by decide

theorem test_calibrate_seed_zero : (ready.after (.calibrate .enough 1#32 0 5000)).cal.pattern = 1#15
    ∧ (ready.after (.calibrate .enough 1#32 0 5000)).cal.tolerance = 1023 := by decide

theorem test_exhausted_calibrate :
    ({ ready with lvl := { ready.lvl with exhausted := true } }.after (.calibrate .enough 1#32 1 1)).cmd.response
      = some ⟨.level, .none⟩ := by decide

theorem test_table_word_spells_nothing : decodeTableWord 8 0x2E = none := by decide

/-! ## Witnesses: a state and operands that meet each statement's hypotheses, each clause at a boundary -/

/-- `ready` with one command waiting. -/
def waiting : State := { ready with pending := [.portSelectAssert] }

theorem witness_StepRunsTheFrontCommand : waiting.pending = .portSelectAssert :: [] ∧ ready.pending = [] := ⟨rfl, rfl⟩

theorem witness_CommandsKeepTheWaitingCommands : exec .identify waiting = .next (waiting.after .identify) :=
  exec_eq_after _ _

theorem waiting_steps : step waiting = .next ready := rfl

/-- A state with a listed byte and a listed page map entry. -/
def listed : State :=
  { waiting with cap := { Cap.reset with dram := [(4112, 7#8)], pages := [(9, ⟨.records 0, none⟩)] } }

theorem witness_StepKeepsMemoryCanonical : listed.memoryCanonical ∧ ∃ t, step listed = .next t :=
  ⟨⟨by decide, by decide⟩, _, rfl⟩

theorem witness_StepKeepsRangesOfTheRules : waiting.inRange ∧ ∃ t, step waiting = .next t := by
  refine ⟨⟨?_, ?_, ?_, ?_, ?_, ?_, ?_, ?_, ?_, ?_⟩, _, rfl⟩
  · simp only [Pfe.inRange, FrontEnd.inRange]; decide
  · simp only [Cal.inRange]; decide
  · decide
  · decide
  · decide
  · simp only [Context.inRange]; decide
  · decide
  · decide
  · decide
  · decide

/-- Segment 2 capturing with its START entry staged, the sequencer RUNNING. -/
def sound : State :=
  { capturing with
    pending := [.portSelectAssert]
    cap := { capturing.cap with encoder := ⟨.encoding 2, 0#32, 0⟩, staged := [⟨0, 0, ⟨.start, 0, 0#32⟩, none⟩] }
    trg := { Trg.reset with state := .running } }

theorem witness_StepKeepsOneCapture : sound.captureSound ∧ ∃ t, step sound = .next t := by
  refine ⟨⟨?_, ?_, ?_, ?_, ?_, ?_, ?_, ?_, ?_⟩, _, rfl⟩
  · simp only [State.holdsEncoder, State.captures]; decide
  · simp only [State.nothingStaged]; decide
  · exact fun _ => ⟨2, .inl (.inl rfl)⟩
  · decide
  · simp only [State.noCapture, State.captures]; decide
  · simp only [State.captures]; decide
  · decide
  · decide
  · exact fun _ => ⟨rfl, rfl⟩

/-- A state with CAP and TRG as after power-on: no segment captures, and encoder and sequencer follow. -/
theorem noCapture_sound (s : State) (h : s.cap = Cap.reset ∧ s.trg = Trg.reset) : s.captureSound := by
  cases s
  obtain ⟨rfl, rfl⟩ := h
  constructor
  case steady => rintro ⟨i, h⟩; exact absurd h (by revert i; simp only [State.captures]; decide)
  case running => show Trg.reset.state = .running ↔ ∃ i : SegId, Cap.reset.segments[i].state = .preTrigger; decide
  case finished => show Trg.reset.state = .done ↔ ∃ i : SegId, Cap.reset.segments[i].state = .postTrigger; decide
  all_goals simp only [State.holdsEncoder, State.nothingStaged, State.noCapture, State.captures]; decide

/-- Context 5 RUNNING at ECONOMY as ASYNC, at the least period there; context 6 a powered-down flash target. -/
def tracking : State :=
  { waiting with dec := { waiting.dec with
      level := .economy
      contexts := (waiting.dec.contexts.set 5
        { state := .running, protocol := some .async, asyncEngine := { period := 4096 } }).set 6
        { state := .running, protocol := some .flash, flashEngine := { model := { poweredDown := true } } } } }

theorem witness_StepKeepsRangesOfTheRules_periods :
    tracking.captureSound ∧ tracking.periodsSound ∧ tracking.modelsSound ∧ ∃ t, step tracking = .next t := by
  refine ⟨noCapture_sound _ ⟨rfl, rfl⟩, ⟨?_, ?_, ?_, ?_, ?_⟩, ?_, _, rfl⟩
  · decide
  · simp only [AsyncSettings.effective]; decide
  · simp only [State.calibrates]; decide
  · simp only [State.calibrates]; decide
  · exact fun h => absurd rfl h
  · simp only [State.modelsSound]; decide

theorem witness_StepKeepsRangesOfTheRules_pages :
    waiting.captureSound ∧ waiting.memoryCanonical ∧ waiting.pagesSound ∧ ∃ t, step waiting = .next t := by
  have empty (owner : PageOwner) : ({} : Chain).holds [] owner [] := ⟨rfl, rfl, rfl, fun _ _ h => nomatch h⟩
  have none : ∀ i : SegId, waiting.cap.segments[i].records = {} ∧ waiting.cap.segments[i].annotations = {} := by decide
  refine ⟨noCapture_sound _ ⟨rfl, rfl⟩, ⟨by decide, by decide⟩, ⟨List.range 32768, fun _ => [], fun _ => [], ⟨?_, ?_, ?_, ?_⟩, ?_, ?_⟩, _, rfl⟩
  · exact List.length_range.symm
  · rw [List.head?_range]; rfl
  · rw [List.getLast?_range]; rfl
  · intro k p h
    obtain ⟨below, rfl⟩ := List.getElem?_eq_some_iff.mp h
    rw [List.length_range] at below
    rw [List.getElem_range]
    show pageDefault k = _
    by_cases last : k + 1 < 32768
    · simp [pageDefault, Config.pageCount, last]
    · simp [pageDefault, Config.pageCount, last]
  · exact fun i => ⟨(none i).1 ▸ empty _, (none i).2 ▸ empty _, fun _ => ⟨rfl, rfl⟩⟩
  · rw [show ((List.finRange 8).flatMap fun _ => ([] : List Nat) ++ []) = [] from rfl, List.append_nil]

theorem witness_StepKeepsRangesOfTheRules_pool :
    waiting.poolSound ∧ waiting.stagedSound ∧ ∃ t, step waiting = .next t := by
  refine ⟨⟨by decide, by decide⟩, ⟨?_, ?_, ?_⟩, _, rfl⟩
  · intro i h
    exact absurd h (by revert i; simp only [State.captures]; decide)
  · exact fun e h => nomatch h
  · exact fun a h => nomatch h

/-- A pending LOCK_CHANGE with context 0 in its detail set. -/
def noticed : State := { waiting with cmd := { waiting.cmd with pending := 0x80#14, lockChange := 1#16 } }

theorem witness_StepKeepsDetailSetsWithTheirKinds : noticed.noticesSound ∧ ∃ t, step noticed = .next t := by
  refine ⟨?_, _, rfl⟩
  simp only [State.noticesSound]; decide

/-- Branch 0 of stage 0 one short of its target. -/
def counting : State :=
  { waiting with trg := { Trg.reset with
      state := .running
      branches := Trg.reset.branches.set 0 (Trg.reset.branches[0].set 0 ⟨true, 0, 4, 1, false, true⟩)
      counters := Trg.reset.counters.set 0 (Trg.reset.counters[0].set 0 3) } }

theorem witness_StepKeepsBranchCountersBelowTargets : counting.triggerSound ∧ ∃ t, step counting = .next t := by
  refine ⟨?_, _, rfl⟩
  simp only [State.triggerSound]; decide

theorem witness_OnlyDrainCompletionsWriteDram : exec .identify listed = .next (listed.after .identify)
    ∧ Instr.identify ≠ .drainCompletion ∧ Instr.identify ≠ .powerOn := ⟨exec_eq_after _ _, by decide, by decide⟩

theorem witness_LevelAndCountChangeOnlyWhereStated :
    exec .levelTransitionComplete switching = .next (switching.after .levelTransitionComplete)
    ∧ (switching.after .levelTransitionComplete).lvl.level ≠ switching.lvl.level
    ∧ exec (.sampleStep (Vector.replicate 32 0)) sampled = .next (sampled.after (.sampleStep (Vector.replicate 32 0))) :=
  ⟨exec_eq_after _ _, by decide, exec_eq_after _ _⟩

theorem witness_PortSelectFramesRequests :
    (∃ k, requestCode .identify = some k) ∧ ¬ State.reset.takesRequests
    ∧ (∃ k, Instr.unknownRequest 0x2F#8 = .unknownRequest k)
    ∧ State.reset.cmd.frame = .idle ∧ ready.cmd.frame ≠ .idle ∧ ready.cap.read = none
    ∧ ∃ r, ({ ready with cap := { ready.cap with read := some ⟨.entries, 2, 0, 1, false, [], [], true⟩ } }
        : State).cap.read = some r :=
  ⟨⟨0x2D, rfl⟩, (fun h => nomatch h.1), ⟨_, rfl⟩, rfl, by decide, rfl, _, rfl⟩

theorem witness_TurnedAwayRequestsHaveNoEffect :
    requestCode .linesRead = some 5 ∧ 5 ∉ standbyCodes ∧ resting.takesRequests ∧ resting.restsInStandby
    ∧ resting.cap.read = none ∧ ready.cap.read = none
    ∧ (0#8).toNat = 0 ∧ 0x2E < (0x2F#8).toNat ∧ ready.takesRequests
    ∧ parameterFit (.setLevel .short 0#8) = some .short
    ∧ (∃ k, requestCode (.setLevel .short 0#8) = some k ∧ k ∈ standbyCodes)
    ∧ parameterFit (.thresholdSet .short 0#8 0#8) = some .short ∧ ¬ ready.restsInStandby
    ∧ ready.admits ∧ [0#8].length < 2 ∧ [0#8, 1#8, 0#8].length < 2 + 8 * ([0#8, 1#8, 0#8].getD 1 0#8).toNat :=
  ⟨rfl, by decide, ⟨rfl, rfl⟩, ⟨rfl, rfl⟩, rfl, rfl, rfl, by decide, ⟨rfl, rfl⟩, rfl, ⟨_, rfl, by decide⟩, rfl, ready_admits.2,
    ready_admits, by decide, by decide⟩

theorem witness_ResetRequestKeepsAndClears :
    ready.takesRequests ∧ ready.lvl.transition = .steady ∧ ready.lvl.level ≠ .standby
    ∧ resting.takesRequests ∧ resting.lvl.level = .standby ∧ switching.takesRequests ∧ switching.switches :=
  ⟨⟨rfl, rfl⟩, rfl, by decide, ⟨rfl, rfl⟩, rfl, ⟨rfl, rfl⟩, switching_switches⟩

theorem witness_NoticesReadReturnsAndEmptiesTheSets : noticed.takesRequests ∧ resting.takesRequests
    ∧ (ready.cmd.mask.getLsbD 13 = true)
    ∧ ({ ready with cmd := { ready.cmd with mask := 0#14 } } : State).cmd.mask.getLsbD 13 = false :=
  ⟨⟨rfl, rfl⟩, ⟨rfl, rfl⟩, by decide, by decide⟩

theorem witness_AttentionLineFollowsPendingAndMask : noticed.takesRequests ∧ resting.takesRequests :=
  ⟨⟨rfl, rfl⟩, rfl, rfl⟩

theorem witness_StatusRequestsReturnStateAndChangeNone :
    ready.admits ∧ 2 ≤ (2#8).toNat ∧ (7#8).toNat = (7 : SegId).val ∧ 8 ≤ (8#8).toNat ∧ capturing.admits
    ∧ 0 < (withSegment ready { records := ⟨some 0, some 0, 1⟩, written := 510 }).cap.segments[2].records.count
    ∧ 0 < (withSegment ready { records := ⟨some 0, some 0, 1⟩, written := 510 }).cap.segments[2].written
    ∧ ready.cap.segments[7].records.count = 0 ∧ resting.takesRequests
    ∧ (withSegment ready { annotations := ⟨some 0, some 0, 1⟩ }).cap.segments[2].annotationsStored = 0 :=
  ⟨ready_admits, by decide, rfl, by decide, sampled_admits, by decide, by decide, rfl, ⟨rfl, rfl⟩, rfl⟩

theorem witness_FrontEndWritesStoreClampOrRefuse :
    ready.admits ∧ 4 ≤ (4#8).toNat ∧ (3#8).toNat < 4 ∧ 2 ≤ (2#8).toNat ∧ (1#8).toNat = 1
    ∧ capturing.admits ∧ capturing.pfe.active = some .full
    ∧ (∃ i, capturing.captures i) ∧ measuring.admits ∧ measuring.calibrates
    ∧ ¬ (ready.pfe.active = some .economy ∧ ((∃ i, ready.captures i) ∨ ready.calibrates)) :=
  ⟨ready_admits, by decide, by decide, by decide, rfl, sampled_admits, rfl, ⟨2, .inl rfl⟩, ready_admits,
    measuring_calibrates, fun h => nomatch h.1⟩

theorem witness_MonitorSetAndMonitorRead : ready.admits ∧ (0x80000000#32).getLsbD 31 = true :=
  ⟨ready_admits, by decide⟩

theorem witness_GlitchFilterSuppressesShortPulses :
    (15 : Nat) ≤ 15 ∧ (GlitchFilter.begin true).openRun = none ∧ 1 ≤ (15 : Nat) := ⟨by decide, rfl, by decide⟩

/-- R4: an open run of length 4 met by width 4, 5 and 0. -/
theorem witness_GlitchFilterSuppressesShortPulses_width :
    let f : GlitchFilter := { GlitchFilter.begin false with openRun := some ⟨3, 4⟩ }
    f.openRun = some ⟨3, 4⟩ ∧ 4 + 1 ≤ 4 + 1 ∧ 4 + 1 < 5 + 1 ∧ (f.sample 4 7 true).1.accepted = true
    ∧ (f.sample 5 7 true).1.openRun = some ⟨3, 5⟩ ∧ (f.sample 0 7 true).1.history.getLsbD 4 = true
    ∧ (f.sample 0 7 true).1.history.getLsbD 5 = false ∧ (f.sample 0 7 false).2 = true := by decide

/-- A run at FULL that has taken `taken` samples and formed `formed`. -/
def running (taken formed : Nat) : State := { ready with pfe := { Pfe.reset with run := some ⟨0, 1, taken, formed⟩ } }

theorem witness_SampleStepTakesOneSample :
    ((running 25 1).pfe.run = some ⟨0, 1, 25, 1⟩ ∧ (running 25 1).lvl.exhausted = false
      ∧ (running 25 1).cal.state ≠ .measuring ∧ (running 25 1).lvl.request = none
      ∧ (running 25 1).lvl.count + 1 ≤ 2 ^ 48 - 1)
    ∧ (∃ (raw : Chan → Bool) (ends : Chan → Prop),
      (∀ c : Chan, raw c = true ↔ (20000 : Int) * ((running 25 1).pfe.thresholds[c.val / 8]'(by omega)).toNat
        < (Vector.replicate 32 (0 : Int))[c])
      ∧ ∀ c : Chan, ends c ↔ 25 ≠ 0 ∧ ((running 25 1).pfe.filters[c].sample
        ((running 25 1).pfe.inUse.widths[c.val / 8]'(by omega)) 25 (raw c)).2 = true)
    ∧ (((GlitchFilter.begin false).sample 1 1 true).1.sample 1 2 false).2 = true
    ∧ (measuring.cal.state = .measuring ∧ ∃ c : Chan, measuring.cal.compared[c] ≤ 17422)
    ∧ (running 0 0).pfe.run = some ⟨0, 1, 0, 0⟩ ∧ (running 24 0).pfe.run = some ⟨0, 1, 24, 0⟩
    ∧ (0 < 1 ∧ (1 + 0 : Int) ≤ 1) ∧ resting.pfe.run = none ∧ resting.cal.state ≠ .measuring :=
  ⟨⟨rfl, rfl, by decide, rfl, by decide⟩,
    ⟨fun c => decide ((20000 : Int) * ((running 25 1).pfe.thresholds[c.val / 8]'(by omega)).toNat
      < (Vector.replicate 32 (0 : Int))[c]), _, fun _ => decide_eq_true_iff, fun _ => Iff.rfl⟩,
    by decide, ⟨rfl, 0, by decide⟩, rfl, rfl, by decide, rfl, by decide⟩

/-- A capture with a request to go to ECONOMY after it. -/
theorem witness_SampleStepTakesOneSample_request :
    let s : State := { capturing with lvl := { capturing.lvl with request := some .economy } }
    s.pfe.run = some ⟨0, 1, 25, 1⟩ ∧ s.lvl.exhausted = false ∧ s.cal.state ≠ .measuring ∧ s.lvl.count + 1 ≤ 2 ^ 48 - 1
    ∧ s.lvl.request = some .economy ∧ ¬ s.switches ∧ ¬ s.noCapture :=
  ⟨rfl, rfl, by decide, by decide, rfl, (by rintro ⟨_, h⟩; cases h), fun h => h 2 (.inl rfl)⟩

theorem witness_SampleStepTakesOneSample_contexts :
    let c (p : Protocol) : Context := { state := .running, protocol := some p, errorThreshold := 1 }
    let d : Dec := ready.dec
    let r : Record := recordOf 5 .idle 3 9 1#32 []
    ({ state := .idle } : Context).state ≠ .running ∧ (c .async).state = .running
    ∧ (c .async).protocol = some .async ∧ (c .clocked).protocol = some .clocked ∧ (c .flash).protocol = some .flash
    ∧ (c .twoWire).protocol = some .twoWire
    -- an error unit that reaches the threshold, one that does not, a good unit
    ∧ (∃ k ∈ [0, 1, 2, 4, 5, 6, 16, 18, 19, 20], r.flags.getLsbD k = true)
    ∧ ((c .async).armed = true ∧ (c .async).errorThreshold ≤ min ((c .async).errors + 1) 65535)
    ∧ (∀ k ∈ [0, 1, 2, 4, 5, 6, 16, 18, 19, 20], ({ r with flags := 8#32 } : Record).flags.getLsbD k = false)
    -- what becomes of them
    ∧ ((c .async).emit [.record r, .lockChange]).error = true ∧ ((c .async).emit [.record r, .lockChange]).lock = true
    ∧ ((c .clocked).read d 5 ⟨0, 0#32, 0#32⟩ 1).context.fresh = false := by decide

/-- The last sample of the count is still to come. -/
def lastTick : State := { sampled with lvl := { sampled.lvl with count := 2 ^ 48 - 1 } }

/-- The count is exhausted and the run has not ended; context 5 runs. -/
def exhausted : State :=
  withContext { sampled with lvl := ⟨.full, .steady, none, 2 ^ 48 - 1, true⟩ } { state := .running }

/-- The same while CAL settles, context 5 suspended by it. -/
def exhaustedCalibration : State :=
  { exhausted with
    cal := { Cal.reset with state := .settling }
    dec := { exhausted.dec with contexts := exhausted.dec.contexts.set 5 { state := .suspended .calibration } } }

theorem witness_ExhaustedCountEndsTheRun :
    lastTick.pfe.run = some ⟨0, 1, 25, 1⟩ ∧ lastTick.lvl.exhausted = false ∧ lastTick.cal.state ≠ .measuring
    ∧ lastTick.lvl.request = none ∧ 2 ^ 48 - 1 < lastTick.lvl.count + 1
    ∧ exhausted.pfe.run = some ⟨0, 1, 25, 1⟩ ∧ exhausted.lvl.exhausted = true ∧ exhausted.cal.state = .idle
    ∧ exhausted.lvl.request = none ∧ (∀ i j, exhausted.captures i → exhausted.captures j → i = j)
    ∧ exhausted.dec.contexts[5].state = .running :=
  ⟨rfl, rfl, by decide, rfl, by decide, rfl, rfl, rfl, rfl, by simp only [State.captures]; decide, rfl⟩

/-- The same with segment 2 capturing and a request to go to ECONOMY after it. -/
def closing : State :=
  withSegment { exhausted with lvl := { exhausted.lvl with request := some .economy } }
    { state := .preTrigger, startTick := some 0 }

theorem witness_ExhaustedCountEndsTheRun_capturing :
    closing.pfe.run = some ⟨0, 1, 25, 1⟩ ∧ closing.lvl.exhausted = true ∧ closing.cal.state = .idle
    ∧ (∀ i j, closing.captures i → closing.captures j → i = j) ∧ closing.lvl.request = some .economy ∧ ¬ closing.switches
    ∧ closing.captures 2 ∧ closing.cap.segments[2].retirePending = false ∧ closing.dec.contexts[5].state = .running :=
  ⟨rfl, rfl, rfl, by simp only [State.captures]; decide, rfl, (by rintro ⟨_, h⟩; cases h),
    .inl rfl, rfl, rfl⟩

/-- What a gap leaves of a context, for each protocol. -/
theorem witness_gaps (p : Option Protocol) :
    let c : Context := { state := .running, protocol := p }
    c.state = .running ∧ c.takesGap c.gapBegin := ⟨rfl, Context.gapBegin_takesGap _ rfl⟩

theorem witness_ExhaustedCountEndsTheRun_calibrating :
    let full : State := { exhaustedCalibration with cal := { exhaustedCalibration.cal with
      state := .measuring, counted := 17422, compared := Vector.replicate 32 17422 } }
    exhaustedCalibration.pfe.run = some ⟨0, 1, 25, 1⟩ ∧ exhaustedCalibration.lvl.exhausted = true
    ∧ exhaustedCalibration.calibrates ∧ exhaustedCalibration.captureSound ∧ exhaustedCalibration.noCapture
    ∧ exhaustedCalibration.lvl.request = none
    ∧ exhaustedCalibration.cal.state ≠ .measuring
    ∧ exhaustedCalibration.dec.contexts[5].state = .suspended .calibration
    ∧ full.calibrates ∧ full.captureSound ∧ full.noCapture ∧ full.cal.counted ≤ 17422
    ∧ ∃ c : Chan, full.cal.compared[c] ≤ 17422 :=
  ⟨rfl, rfl, .inl rfl, noCapture_sound _ ⟨rfl, rfl⟩, by simp only [State.noCapture, State.captures]; decide, rfl, by decide, rfl,
    .inr rfl, noCapture_sound _ ⟨rfl, rfl⟩, by simp only [State.noCapture, State.captures]; decide, by decide, 0, by decide⟩

/-- Channel 31 active since its last change at tick 1, with a quiet time of 1. -/
def quietening : State :=
  { ready with pfe := { Pfe.reset with
      run := some ⟨0, 1, 26, 2⟩, quietTime := 1, monitors := Pfe.reset.monitors.set 31 ⟨2, 0, true, .active, none, some 1, some 2⟩ } }

theorem witness_QuietTimerExpiryMakesTheChannelQuiet :
    quietening.pfe.run = some ⟨0, 1, 26, 2⟩ ∧ 24 ≤ 26 ∧ quietening.pfe.monitors[31].activity = .active
    ∧ quietening.pfe.monitors[31].quietFrom = some 1 ∧ quietening.pfe.monitors[31].expiry = some 2
    ∧ 2 ≤ (Run.mk 0 1 26 2).nextStamp ∧ (Run.mk 0 1 26 2).nextStamp < 3 ∧ 0 < (Run.mk 0 1 26 2).formed
    -- the first sample of a run, at the expiry tick
    ∧ (24 ≤ (Run.mk 2 1 24 0).taken ∧ (Run.mk 2 1 24 0).formed = 0 ∧ 2 ≤ (Run.mk 2 1 24 0).nextStamp)
    ∧ (⟨0, 0, true, .quiet, some 1000, none, none⟩ : Monitor).remembered = some 1000 ∧ 1999 - 1000 < 1000
    ∧ 1000 ≤ 2000 - 1000 ∧ (⟨2, 0, true, .active, none, some 5, some 7⟩ : Monitor).expiry = some 7 ∧ 6 < 7 ∧ 7 ≤ 7
    -- the expiry not fixed yet
    ∧ (⟨2, 0, true, .active, none, some 5, none⟩ : Monitor).expiry = none ∧ 7 = 5 + max 1 2 :=
  ⟨rfl, by decide, by decide, by decide, by decide, by decide, by decide, by decide, by decide, rfl, by decide, by decide,
    rfl, by decide, by decide, rfl, rfl⟩

theorem witness_SetLevelFollowsItsCases :
    ready.takesRequests ∧ 3 ≤ (3#8).toNat ∧ (2#8).toNat = levelByte .standby
    ∧ (ready.lvl.transition = .steady ∧ ready.lvl.level = .full) ∧ switching.lvl.transition = .switching .economy
    ∧ switching.takesRequests ∧ switching.switches ∧ Level.standby ≠ .economy
    ∧ capturing.takesRequests ∧ (∃ i, capturing.captures i)
    ∧ measuring.takesRequests ∧ measuring.noCapture ∧ ¬ measuring.switches ∧ measuring.calibrates
    ∧ ready.noCapture ∧ ¬ ready.switches ∧ ¬ ready.calibrates ∧ ready.pfe.run ≠ none
    ∧ resting.takesRequests ∧ resting.noCapture ∧ resting.pfe.run = none ∧ resting.lvl.level = .standby :=
  ⟨⟨rfl, rfl⟩, by decide, rfl, ⟨rfl, rfl⟩, rfl, ⟨rfl, rfl⟩, switching_switches, by decide, ⟨rfl, rfl⟩,
    ⟨2, .inl rfl⟩, ⟨rfl, rfl⟩, ready_noCapture, ready_steady, measuring_calibrates, ready_noCapture, ready_steady,
    ready_uncalibrated, by decide, ⟨rfl, rfl⟩, ready_noCapture, rfl, rfl⟩

/-- A transition to a level in progress, with a count and a pending request. -/
def toLevel (l : Level) (count : Nat) (request : Option Level) : State :=
  withContext { switching with lvl := { switching.lvl with transition := .switching l, count, request } }
    { state := .running, protocol := some .async, asyncSettings := { upper := 4095 } }

theorem witness_TransitionCompletionEntersTheLevel :
    (toLevel .standby 0 none).lvl.transition = .switching .standby ∧ (toLevel .standby 0 none).pfe.run = none
    ∧ (toLevel .economy 3 none).lvl.transition = .switching .economy ∧ (toLevel .economy 3 none).lvl.request = none
    ∧ (toLevel .economy 3 none).dec.contexts[5].state = .running
    ∧ (toLevel .economy 3 none).dec.contexts[5].protocol = some .async
    ∧ (toLevel .economy 3 none).dec.contexts[5].asyncSettings.upper < 4096
    ∧ (toLevel .economy 3 none).lvl.exhausted = false ∧ 4 % 4 = 0 ∧ 3 ≤ 4 ∧ 4 < 3 + 4
    ∧ (toLevel .economy (2 ^ 48 - 1) none).lvl.count ≤ 2 ^ 48 ∧ 2 ^ 48 % 4 = 0
    ∧ (toLevel .full 7 (some .economy)).lvl.request = some .economy
    -- the memory port: nothing left to finish, and a drawing refresh
    ∧ (toLevel .standby 0 none).lvl.request = none ∧ (toLevel .standby 0 none).nothingStaged
    ∧ (toLevel .standby 0 none).cap.read = none ∧ (toLevel .standby 0 none).dsp.state ≠ .reading
    ∧ ¬ ((toLevel .standby 0 none).nothingStaged ∧ (toLevel .standby 0 none).cap.read = none
      ∧ RefreshState.reading ≠ .reading) :=
  ⟨rfl, rfl, rfl, rfl, rfl, rfl, by decide, rfl, rfl, by decide, by decide, by decide, by decide, rfl, rfl, ⟨rfl, rfl⟩,
    rfl, by decide, fun h => h.2.2 rfl⟩

theorem witness_CalibrateBeginsAndAbortEndsTheRun :
    exhausted.admits ∧ exhausted.lvl.exhausted = true ∧ capturing.admits ∧ capturing.lvl.exhausted = false
    ∧ (∃ i, capturing.captures i) ∧ switching.admits ∧ switching.switches ∧ measuring.admits ∧ measuring.calibrates
    ∧ ready.admits ∧ ready.lvl.exhausted = false ∧ ready.noCapture ∧ ¬ ready.switches ∧ ¬ ready.calibrates
    ∧ ready.cal.state = .idle :=
  ⟨admits_of rfl rfl (by decide), rfl, sampled_admits, rfl, ⟨2, .inl rfl⟩, admits_of rfl rfl (by decide),
    switching_switches, ready_admits, measuring_calibrates, ready_admits, rfl, ready_noCapture, ready_steady,
    ready_uncalibrated, rfl⟩

theorem witness_CalibrationEntersMeasuringAndCompletes :
    let settling : State := { ready with cal := { Cal.reset with state := .settling, counted := 1024 } }
    let done : State := { measuring with cal := { measuring.cal with compared := Vector.replicate 32 17423, channels := 1#32 } }
    settling.cal.state = .settling ∧ 1024 ≤ settling.cal.counted ∧ done.cal.state = .measuring
    ∧ (∀ c : Chan, 17422 < done.cal.compared[c]) ∧ done.cal.channels.getLsbD 0 = true
    ∧ done.cal.channels.getLsbD 31 = false ∧ done.pfe.active = some .full :=
  ⟨rfl, by decide, rfl, by decide, by decide, by decide, rfl⟩

/-- A run whose CAL has counted `n` pattern steps of seed 5 and compared none. -/
def patterned (n : Nat) (st : CalState) : State :=
  { running (24 + n) n with
    cal := { Cal.reset with state := st, counted := n, channels := 1#32, seed := 5, pattern := patternAfter 5 ((n - 1) / 4) } }

theorem witness_CalibrationEntersMeasuringAndCompletes_samples :
    (∀ n st, (patterned n st).pfe.run = some ⟨0, 1, 24 + n, n⟩ ∧ (patterned n st).lvl.exhausted = false
      ∧ (patterned n st).lvl.request = none ∧ (∃ c : Chan, (patterned n st).cal.compared[c] ≤ 17422)
      ∧ (patterned n st).cal.counted = n ∧ (patterned n st).cal.pattern = patternAfter 5 ((n - 1) / 4)
      ∧ (patterned n st).cal.channels.getLsbD 0 = true ∧ (patterned n st).cal.channels.getLsbD 31 = false)
    ∧ (patterned 1024 .settling).calibrates ∧ (patterned 1040 .measuring).calibrates
    ∧ (patterned 17423 .measuring).calibrates ∧ ready.cal.state = .idle
    ∧ patternOf (patterned 8 .settling).cal.seed (patternAfter 5) :=
  ⟨fun _ _ => ⟨rfl, rfl, rfl, ⟨0, Nat.zero_le _⟩, rfl, rfl, (by decide : (1#32).getLsbD 0 = true),
      (by decide : (1#32).getLsbD 31 = false)⟩, .inl rfl, .inr rfl, .inr rfl, rfl, rfl,
    fun _ => advancePattern_advances _⟩

/-- R32: stage 15 of seed 16384 and stage 14 of seed 8192 both enter stage 1. -/
theorem test_pattern_taps : patternAfter 16384 1 = 1#15 ∧ patternAfter 8192 1 = 0x4001#15 ∧ patternAfter 24576 1 = 0x4000#15 := by
  decide

theorem witness_PoolThresholdSetComparesAtOnce : ready.admits ∧ ready.cap.pool.count = 32768
    ∧ min 40000 32768 ≤ ready.cap.pool.count
    ∧ ({ ready with cap := { ready.cap with pool := {} } } : State).cap.pool.count < min 1 32768 :=
  ⟨ready_admits, rfl, by decide, by decide⟩

theorem witness_SegmentPrepareClampsAndPrimes :
    ready.admits ∧ 8 ≤ (8#8).toNat ∧ (7#8).toNat = (7 : SegId).val ∧ ready.cap.segments[7].state = .vacant
    ∧ capturing.admits ∧ capturing.cap.segments[2].state ≠ .vacant ∧ capturing.cap.segments[2].state ≠ .primed :=
  ⟨ready_admits, by decide, rfl, rfl, sampled_admits, by decide, by decide⟩

/-- Segment 2 primed; the run's first conditioned sample has been formed. -/
def primed : State := withSegment sampled { state := .primed }

/-- Segment 2 primed, in any other state. -/
def primedIn (s : State) : State := withSegment s { state := .primed }

theorem primed_noCapture : primed.noCapture := by simp only [State.noCapture, State.captures]; decide

theorem witness_SegmentStartIsRefusedOrBegins_refused :
    ready.admits ∧ 8 ≤ (8#8).toNat ∧ (2#8).toNat = (2 : SegId).val ∧ ready.cap.segments[2].state = .vacant
    ∧ capturing.cap.segments[2].state ≠ .primed ∧ primed.admits ∧ primed.cap.segments[2].state = .primed
    ∧ (∃ i, (primedIn { ready with cap := { ready.cap with
        segments := ready.cap.segments.set 7 { state := .preTrigger } } }).captures i)
    ∧ (∃ i : SegId, (primedIn { ready with cap := { ready.cap with
        segments := ready.cap.segments.set 7 { state := .sealed, drainPending := true } } }).cap.segments[i].drainPending
          = true)
    ∧ primed.noCapture ∧ (∀ i : SegId, primed.cap.segments[i].drainPending = false)
    ∧ (primedIn switching).switches ∧ (∀ r, (primedIn ready).pfe.run = some r → r.formed = 0)
    ∧ ¬ primed.switches ∧ primed.lvl.exhausted = false ∧ (∃ r, primed.pfe.run = some r ∧ r.formed ≠ 0)
    ∧ ({ primed with cal := { primed.cal with state := .settling } } : State).calibrates ∧ ¬ primed.calibrates
    ∧ ({ primed with cap := { primed.cap with pool := ⟨some 4, some 4, 1⟩ } } : State).cap.pool.count < 2 :=
  ⟨ready_admits, by decide, rfl, rfl, by decide, sampled_admits, rfl, ⟨7, .inl rfl⟩, ⟨7, rfl⟩, primed_noCapture,
    by decide, ⟨.economy, rfl⟩, (fun r h => by cases h; rfl), (fun ⟨_, h⟩ => nomatch h), rfl, ⟨_, rfl, by decide⟩,
    .inl rfl, ready_uncalibrated, by decide⟩

theorem witness_SegmentStartIsRefusedOrBegins :
    primed.admits ∧ primed.memoryCanonical ∧ (2#8).toNat = (2 : SegId).val ∧ primed.cap.segments[2].state = .primed
    ∧ primed.noCapture ∧ (∀ i : SegId, primed.cap.segments[i].drainPending = false) ∧ ¬ primed.switches
    ∧ primed.lvl.exhausted = false ∧ primed.pfe.run = some ⟨0, 1, 25, 1⟩ ∧ ¬ primed.calibrates
    ∧ 2 ≤ primed.cap.pool.count ∧ primed.cap.pool.head = some 0 ∧ (PageMap.get primed.cap.pages 0).next = some 1
    ∧ primed.cap.poolArmed = decide (primed.cap.poolThreshold ≤ primed.cap.pool.count) :=
  ⟨sampled_admits, ⟨by decide, by decide⟩, rfl, rfl, primed_noCapture, by decide, (fun ⟨_, h⟩ => nomatch h), rfl, rfl,
    ready_uncalibrated, by decide, rfl, by decide, by decide⟩

/-- Segment 2 in state `g` with the encoder in state `st`, `n` staged entries and a pool. -/
def encoding (g : Segment) (st : EncoderState) (n : Nat) (pool : Chain) : State :=
  { withSegment sampled g with cap := { (withSegment sampled g).cap with
      encoder := ⟨st, 0#32, 0⟩, pool, staged := List.replicate n ⟨0, 0, ⟨.start, 0, 0#32⟩, none⟩ } }

/-- A capturing segment whose tail page is full. -/
def pageFull (st : SegState) (budget limit : Nat) (records : Chain) : Segment :=
  { state := st, mask := BitVec.allOnes 32, budget, limit, target := 1, startTick := some 0, records, written := 510,
    triggerTick := some 0 }

theorem witness_EncoderStoresEntriesAndAsksForPages :
    let one : Chain := ⟨some 0, some 0, 1⟩
    let free : Chain := ⟨some 5, some 5, 1⟩
    ready.cap.encoder.state = .idle
    ∧ (encoding (pageFull .preTrigger 2 3 one) (.encoding 2) 0 {}).captures 2
    ∧ (encoding (pageFull .preTrigger 2 3 one) (.encoding 2) 0 {}).cap.segments[2] = pageFull .preTrigger 2 3 one
    ∧ (pageFull .preTrigger 2 3 one).startTick = some 0 ∧ (pageFull .preTrigger 2 3 one).records.count ≠ 0
    ∧ (pageFull .preTrigger 2 3 one).written ≠ 0 ∧ (pageFull .preTrigger 2 3 one).retirePending = false
    ∧ (encoding (pageFull .preTrigger 2 3 one) (.encoding 2) 0 {}).cap.encoder.state = .encoding 2
    ∧ (encoding (pageFull .preTrigger 2 3 one) (.dropping 2) 0 {}).cap.encoder.state = .dropping 2
    -- a page is needed; refused for each reason, allocated, rotated
    ∧ 510 < (510 - 1) % 510 + 1 + 1
    ∧ ((pageFull .preTrigger 2 3 one).records.count < 2
        ∧ (encoding (pageFull .preTrigger 2 3 one) (.encoding 2) 0 {}).cap.pool.count = 0)
    ∧ (pageFull .postTrigger 1 1 one).limit ≤ (pageFull .postTrigger 1 1 one).records.count
    ∧ (pageFull .postTrigger 1 2 one).records.count < (pageFull .postTrigger 1 2 one).limit
    ∧ (encoding (pageFull .preTrigger 2 3 one) (.encoding 2) 0 free).cap.pool.head = some 5
    ∧ (encoding (pageFull .preTrigger 2 3 one) (.encoding 2) 0 free).memoryCanonical
    ∧ (pageFull .preTrigger 1 2 one).budget ≤ (pageFull .preTrigger 1 2 one).records.count
    ∧ 2 ≤ (pageFull .preTrigger 2 3 ⟨some 0, some 1, 2⟩).records.count
    ∧ (PageMap.get ready.cap.pages 0).next = some 1 :=
  ⟨rfl, .inl rfl, rfl, rfl, by decide, by decide, rfl, rfl, rfl, by decide, by decide, by decide, by decide, rfl,
    ⟨by decide, by decide⟩, by decide, by decide, by decide⟩

theorem witness_EncoderStoresEntriesAndAsksForPages_fifo :
    let one : Chain := ⟨some 0, some 0, 1⟩
    -- the FIFO's boundaries, and a store that reaches the target
    4096 < (encoding (pageFull .preTrigger 2 3 one) (.encoding 2) 4096 {}).cap.staged.length + 1
    ∧ (encoding (pageFull .preTrigger 2 3 one) (.encoding 2) 4095 {}).cap.staged.length + 1 ≤ 4096
    ∧ 2048 < (encoding (pageFull .preTrigger 2 3 one) (.dropping 2) 2049 {}).cap.staged.length
    ∧ (encoding (pageFull .preTrigger 2 3 one) (.dropping 2) 2048 {}).cap.staged.length ≤ 2048 := by
  simp only [encoding, List.length_replicate]; decide

theorem witness_EncoderStoresEntriesAndAsksForPages_target :
    let u := (encoding { pageFull .postTrigger 1 2 ⟨some 0, some 0, 1⟩ with written := 5 } (.encoding 2) 0 {}).placeEntry 2
      ⟨.change, 7, 1#32⟩
    u.cap.segments[2].state = .postTrigger ∧ u.cap.segments[2].target ≤ u.cap.segments[2].postCount := by decide

theorem witness_SegmentStopSealsTheCapture :
    ready.admits ∧ ready.noCapture ∧ capturing.admits ∧ capturing.capturesOnly 2
    ∧ capturing.cap.segments[2].retirePending = false ∧ capturing.lvl.request = none
    ∧ ({ capturing with lvl := { capturing.lvl with request := some .standby } } : State).capturesOnly 2
    ∧ capturing.lvl.transition = .steady :=
  ⟨ready_admits, ready_noCapture, sampled_admits, capturing_only, rfl, rfl, capturing_only, rfl⟩

/-- Segment 2 capturing with both chains held and no pin. -/
def chained : State :=
  withSegment sampled { state := .postTrigger, records := ⟨some 3, some 3, 1⟩, annotations := ⟨some 4, some 4, 1⟩ }

theorem witness_SegmentAbortEndsTheCapture :
    let requested : State := { chained with lvl := { chained.lvl with request := some .economy } }
    let dropping : State := { chained with cap := { chained.cap with encoder := ⟨.dropping 2, 0#32, 0⟩ } }
    ready.admits ∧ ready.noCapture ∧ chained.admits ∧ chained.capturesOnly 2 ∧ chained.lvl.request = none
    ∧ requested.admits ∧ requested.capturesOnly 2 ∧ requested.lvl.request = some .economy
    ∧ requested.lvl.transition = .steady ∧ dropping.admits ∧ dropping.capturesOnly 2
    ∧ dropping.cap.encoder.state = .dropping 2
    ∧ chained.cap.segments[2].pins = 0
    ∧ (withSegment sampled { state := .preTrigger, pins := 1 }).cap.segments[2].pins ≠ 0 := by
  have only : chained.capturesOnly 2 := ⟨.inr rfl, by simp only [State.captures]; decide⟩
  exact ⟨ready_admits, ready_noCapture, sampled_admits, only, rfl, sampled_admits, only, rfl, rfl, sampled_admits, only,
    rfl, rfl, by decide⟩

/-- Segment 2 sealed with both chains held, drained and unpinned. -/
def retirable : State :=
  withSegment ready { state := .sealed, records := ⟨some 3, some 3, 1⟩, annotations := ⟨some 4, some 4, 1⟩ }

theorem witness_SegmentRetireFollowsItsTable :
    let held (g : Segment) : State := withSegment ready g
    ready.admits ∧ 8 ≤ (8#8).toNat ∧ (2#8).toNat = (2 : SegId).val ∧ ready.cap.segments[2].state = .vacant
    ∧ capturing.cap.segments[2].state = .preTrigger
    ∧ (held { state := .sealed, retirePending := true }).cap.segments[2].retirePending = true
    ∧ (held { state := .sealed, drainPending := true }).cap.segments[2].drainPending = true
    ∧ (held { state := .sealed, pins := 1 }).cap.segments[2].pins ≠ 0
    ∧ (held { state := .primed }).cap.segments[2].records = {}
    ∧ retirable.admits ∧ retirable.cap.segments[2].state = .sealed ∧ retirable.cap.segments[2].pins = 0
    ∧ retirable.cap.segments[2].records.head = some 3 ∧ retirable.cap.segments[2].annotations.tail = some 4
    ∧ chainPages retirable.cap.pages 1 (some 3) = [3] ∧ chainPages retirable.cap.pages 1 (some 4) = [4]
    ∧ ([3] ++ [4] ++ retirable.cap.pool.tail.toList).Nodup ∧ PageMap.wf retirable.cap.pages :=
  ⟨ready_admits, by decide, rfl, rfl, rfl, rfl, rfl, by decide, rfl, ready_admits, rfl, rfl, rfl, rfl, rfl, rfl, by decide,
    by decide⟩

/-- A read of segment 2 in flight, in state `g`. -/
def reading (kind : ReadKind) (remaining : Nat) (g : Segment) : State :=
  { withSegment ready g with cap := { (withSegment ready g).cap with
      read := some ⟨kind, 2, 0, remaining, false, [], [], true⟩ } }

theorem witness_ReadsTakeAPinAndFixTheirRange :
    capturing.admits ∧ capturing.cap.read = none ∧ 8 ≤ (8#8).toNat ∧ (2#8).toNat = (2 : SegId).val
    ∧ capturing.captures 2 ∧ capturing.cap.segments[2].retirePending = false
    ∧ ¬ ((ready.captures 2 ∨ ready.cap.segments[2].state = .sealed) ∧ ready.cap.segments[2].retirePending = false)
    ∧ (reading .entries 1 {}).takesRequests ∧ (reading .entries 1 {}).cap.read ≠ none :=
  ⟨sampled_admits, rfl, by decide, rfl, .inl rfl, rfl, by simp only [State.captures]; decide, ⟨rfl, rfl⟩, by decide⟩

/-- R180: a short read and one in STANDBY wait, too, while a read is in flight. -/
theorem test_refused_reads_wait :
    ((reading .entries 1 {}).after (.segmentRead .short 9#8 0#48 0)).cmd.response = none
    ∧ ((reading .entries 1 {}).after (.segmentRead .short 9#8 0#48 0)).cmd.held
      = some ⟨.entries, .short, 9#8, 0, 0⟩
    ∧ ({ reading .entries 1 {} with lvl := resting.lvl }.after (.annotationRead .enough 2#8 0#32 1)).cmd.held
      = some ⟨.annotations, .enough, 2#8, 0, 1⟩ := by decide

theorem witness_ReadsTakeEntriesAndFormResponses :
    let one : Segment := { state := .sealed, pins := 1, written := 1, records := ⟨some 0, some 0, 1⟩ }
    let note : Segment := { state := .sealed, pins := 1, annotationsStored := 1, annotations := ⟨some 1, some 1, 1⟩ }
    (reading .entries 1 one).cap.read = some ⟨.entries, 2, 0, 1, false, [], [], true⟩
    ∧ (reading .entries 1 one).cap.segments[2] = one ∧ one.discarded = none
    ∧ ((reading .entries 1 one).cap.retainedEntries one)[0]? = some ⟨0, .start, 0#32, 0⟩
    ∧ ((reading .annotations 1 note).cap.annotationAt note 0).isSome = true
    ∧ (reading .entries 0 one).cap.read = some ⟨.entries, 2, 0, 0, false, [], [], true⟩
    ∧ ¬ (one.state = .retiring ∧ one.pins ≤ 1) ∧ (reading .entries 0 one).cmd.held = none
    ∧ (0 < ({ one with firstRetained := 510, written := 1020 } : Segment).firstRetained)
    -- an aborted segment, and the memory port waiting
    ∧ (0, 0) = ({ one with discarded := some (0, 0) } : Segment).discarded.getD (one.written, one.annotationsStored)
    ∧ (reading .entries 0 one).nothingStaged ∧ (reading .entries 0 one).dsp.state ≠ .reading
    -- a read held behind it: turned away, short, of an absent segment, refused, taken
    ∧ (∃ h : HeldRead, h = ⟨.entries, .enough, 2#8, 0, 65⟩ ∧ h.segment.toNat = (2 : SegId).val)
    ∧ resting.restsInStandby ∧ ¬ (reading .entries 0 one).restsInStandby
    ∧ (HeldRead.mk .annotations .short 2#8 0 0).fit = .short ∧ 8 ≤ (8#8).toNat ∧ one.state = .sealed
    ∧ ¬ ((ready.captures 2 ∨ ready.cap.segments[2].state = .sealed) ∧ ready.cap.segments[2].retirePending = false) :=
  ⟨rfl, rfl, rfl, by decide, by decide, rfl, by decide, rfl, by decide, rfl, ⟨rfl, rfl⟩, by decide, ⟨_, rfl, rfl⟩,
    ⟨rfl, rfl⟩, (fun h => nomatch h.1), rfl, by decide, rfl, by simp only [State.captures]; decide⟩

/-- Segment 2 capturing with two entries and an annotation stored: the START entry drained, the rest staged. -/
def serving : State :=
  let s := withSegment sampled
    { state := .preTrigger, records := ⟨some 3, some 3, 1⟩, annotations := ⟨some 4, some 4, 1⟩, written := 2,
      annotationsStored := 1 }
  { s with cap := { s.cap with
      pages := [(3, ⟨.records 2, none⟩), (4, ⟨.annotations 2, none⟩)]
      staged := [⟨3, 1, ⟨.change, 7, 1#32⟩, none⟩]
      stagedAnnotations := [⟨4, 0, ⟨5, 1, 15, .gap, 0#16, true, 0#8, 255⟩⟩] } }

theorem witness_ReadsTakeEntriesAndFormResponses_served :
    let g := serving.cap.segments[2]
    serving.memoryCanonical ∧ serving.stagedSound ∧ g.records.holds serving.cap.pages (.records 2) [3] ∧ g.written = 2
    ∧ g.annotations.holds serving.cap.pages (.annotations 2) [4]
    ∧ serving.cap.standsHeader 3 ⟨0, 0#32⟩ ∧ serving.cap.standsEntry 3 0 ⟨.start, 0, 0#32⟩
    ∧ serving.cap.standsEntry 3 1 ⟨.change, 7, 1#32⟩
    ∧ serving.cap.standsAnnotation 4 0 ⟨5, 1, 15, .gap, 0#16, true, 0#8, 255⟩
    -- what is served
    ∧ serving.cap.retainedEntries g = [⟨0, .start, 0#32, 0⟩, ⟨1, .change, 1#32, 7⟩]
    ∧ serving.cap.annotationAt g 0 = some ⟨5, 1, 15, .gap, 0#16, true, 0#8, 255⟩
    ∧ serving.cap.annotationAt g 256 = none := by
  have one (m : PageMap) (owner : PageOwner) (p : Nat) (h : PageMap.get m p = ⟨owner, none⟩) : linked m owner [p] :=
    linked_cons.mpr ⟨h, linked_nil _ _⟩
  refine ⟨⟨by decide, by decide⟩, ⟨?_, ?_, ?_⟩, ⟨rfl, rfl, rfl, one _ _ _ rfl⟩, rfl, ⟨rfl, rfl, rfl, one _ _ _ rfl⟩, ?_, ?_,
    rfl, rfl, by decide, by decide, by decide⟩
  · intro i h
    have only : ∀ i : SegId, serving.captures i → i = 2 := by simp only [State.captures]; decide
    exact only i h ▸ ⟨by decide, by decide⟩
  · intro e h
    cases List.mem_singleton.mp h
    exact ⟨by decide, 2, .inl (.inl rfl), rfl⟩
  · intro a h
    cases List.mem_singleton.mp h
    exact ⟨by decide, 2, .inl (.inl rfl), rfl⟩
  · show ∀ k, k < 16 → _
    decide
  · show ∀ k, k < 8 → _
    decide

/-- A refresh of segment 2, in state `g`, being sent. -/
def sending (g : Segment) : State :=
  { withSegment ready g with dsp := { ready.dsp with active := ⟨some 2, 0, 1, false, [.channel 31]⟩, state := .sending } }

/-- Segment 2, in state `g`, with one staged entry. -/
def draining (g : Segment) : State :=
  { withSegment ready g with cap := { (withSegment ready g).cap with staged := [⟨3, 0, ⟨.start, 0, 0#32⟩, none⟩] } }

theorem witness_DeferredRetireCompletes :
    let last : Segment := { state := .retiring, pins := 1, retirePending := true, written := 1 }
    let aborted : Segment := { last with discarded := some (0, 0) }
    let sealing (pins : Nat) : Segment := { state := .sealed, drainPending := true, retirePending := true, pins }
    (reading .entries 0 last).cap.read = some ⟨.entries, 2, 0, 0, false, [], [], true⟩
    ∧ (reading .entries 0 last).cap.segments[2] = last ∧ last.state = .retiring ∧ last.pins ≤ 1
    ∧ (reading .entries 0 last).cmd.held = none
    ∧ (reading .annotations 1 aborted).cap.read = some ⟨.annotations, 2, 0, 1, false, [], [], true⟩
    ∧ (reading .annotations 1 aborted).cap.segments[2] = aborted ∧ aborted.discarded = some (0, 0) ∧ 0 ≤ 0
    ∧ (sending last).dsp.state = .sending ∧ (sending last).dsp.active.segment = some 2
    ∧ (sending last).cap.segments[2].state = .retiring ∧ (sending last).dsp.pending = false
    ∧ (draining (sealing 0)).cap.staged.length + (draining (sealing 0)).cap.stagedAnnotations.length = 1
    ∧ (draining (sealing 0)).cap.segments[2].drainPending = true
    ∧ (∀ j : SegId, (draining (sealing 0)).cap.segments[j].drainPending = true → j = 2)
    ∧ (draining (sealing 0)).cap.segments[2].retirePending = true ∧ (draining (sealing 0)).cap.segments[2].pins = 0
    ∧ (draining (sealing 1)).cap.segments[2].pins ≠ 0 :=
  ⟨rfl, rfl, rfl, by decide, rfl, rfl, rfl, rfl, by decide, rfl, rfl, rfl, rfl, rfl, rfl, by decide, rfl, rfl, by decide⟩

/-- A fire at tick 5 on its way to segment 2, in state `g`. -/
def firing (g : Segment) : State :=
  { withSegment sampled g with cap := { (withSegment sampled g).cap with fires := [⟨5, true, true⟩] } }

theorem firing_only (g : Segment) (h : g.state = .preTrigger ∨ g.state = .postTrigger) : (firing g).capturesOnly 2 := by
  refine ⟨?_, ?_⟩
  · simpa [State.captures, firing, withSegment] using h
  · intro j
    have : ∀ j : SegId, j ≠ 2 → (firing g).cap.segments[j].state = .vacant := by
      intro j hj
      have : (2 : Nat) ≠ j.val := fun e => hj (Fin.ext e.symm)
      simp [firing, withSegment, Vector.getElem_set_ne, this, sampled, ready, State.reset, Cap.reset]
    intro hc
    by_contra hj
    rcases hc with hc | hc <;> rw [this j hj] at hc <;> exact nomatch hc

theorem witness_FireIsAcceptedInPreTriggerOnly :
    let pre : State := firing { state := .preTrigger, startTick := some 5, firstRetainedTick := 1 }
    pre.cap.fires[0]? = some ⟨5, true, true⟩ ∧ pre.lvl.request = none ∧ pre.capturesOnly 2
    ∧ pre.cap.segments[2].state = .preTrigger ∧ pre.cap.segments[2].startTick = some 5
    ∧ pre.cap.segments[2].retirePending = false
    ∧ (if 5 < 5 + pre.cap.segments[2].firstRetainedTick then pre.cap.segments[2].firstRetainedTick else 5 - 5) = 1
    ∧ (firing { state := .vacant }).noCapture
    ∧ (firing { state := .postTrigger }).capturesOnly 2 ∧ (Fire.mk 5 true false).live = false :=
  ⟨rfl, rfl, firing_only _ (.inl rfl), rfl, rfl, rfl, rfl, by simp only [State.noCapture, State.captures]; decide,
    firing_only _ (.inr rfl), rfl⟩

/-- A fire that seals at once, with a request to go to ECONOMY after the capture. -/
theorem witness_FireIsAcceptedInPreTriggerOnly_request :
    let s : State := { firing { state := .preTrigger, startTick := some 5 } with
      lvl := { ready.lvl with request := some .economy } }
    s.capturesOnly 2 ∧ s.lvl.request = some .economy ∧ ¬ s.switches ∧ s.cap.segments[2].target ≤ 0 ∧ ¬ s.noCapture :=
  ⟨firing_only _ (.inl rfl), rfl, (by rintro ⟨_, h⟩; cases h), by decide, fun h => h 2 (.inl rfl)⟩

theorem witness_DrainCompletionWritesOneEntry :
    let last : State := { (withSegment ready { state := .sealed, drainPending := true }) with
      cap := { (withSegment ready { state := .sealed, drainPending := true }).cap with
        staged := [⟨32767, 509, ⟨.change, 2 ^ 24 - 1, 0xFFFFFFFF#32⟩, some ⟨0, 0#32⟩⟩] } }
    let note : State := { (withSegment ready { state := .sealed, drainPending := true }) with
      cap := { (withSegment ready { state := .sealed, drainPending := true }).cap with
        stagedAnnotations := [⟨32767, 255, ⟨0, 0, 15, .message, 0#16, true, 0#8, 255⟩⟩] } }
    last.memoryCanonical
    ∧ last.cap.staged = ⟨32767, 509, ⟨.change, 2 ^ 24 - 1, 0xFFFFFFFF#32⟩, some ⟨0, 0#32⟩⟩ :: []
    ∧ last.cap.stagedAnnotations = [] ∧ last.cap.segments[2].drainPending = true
    ∧ (∀ j : SegId, last.cap.segments[j].drainPending = true → j = 2) ∧ last.cap.segments[2].retirePending = false
    ∧ note.memoryCanonical ∧ note.cap.staged = []
    ∧ note.cap.stagedAnnotations = ⟨32767, 255, ⟨0, 0, 15, .message, 0#16, true, 0#8, 255⟩⟩ :: []
    ∧ note.cap.segments[2].drainPending = true ∧ (∀ j : SegId, note.cap.segments[j].drainPending = true → j = 2)
    ∧ note.cap.segments[2].retirePending = false ∧ note.cap.read = none ∧ note.dsp.state ≠ .reading
    ∧ ready.nothingStaged :=
  ⟨⟨by decide, by decide⟩, rfl, rfl, rfl, by decide, rfl, ⟨by decide, by decide⟩, rfl, rfl, rfl, by decide, rfl, rfl,
    by decide, rfl, rfl⟩

theorem witness_LayoutsReadBackAndFramesDecode :
    (⟨.change, 2 ^ 24 - 1, 0#32⟩ : Entry).delta < 2 ^ 24 ∧ (⟨2 ^ 48 - 1, 0#32⟩ : PageHeader).baseTick < 2 ^ 48
    ∧ (⟨2 ^ 48 - 1, 2 ^ 32 - 1, 15, .gap, 0#16, true, 0#8, 255⟩ : Annotation).startTick < 2 ^ 48
    ∧ 1 ≤ (0x2E#8).toNat ∧ (0x2E#8).toNat ≤ 0x2E ∧ (0#8).toNat = 0 ∧ 0x2E < (0x2F#8).toNat
    ∧ [7#8].length = (1#8).toNat + 256 * (0#8).toNat ∧ ([] : List Byte).length < (1#8).toNat + 256 * (0#8).toNat
    ∧ [8#8, 0#8].length < 3 ∧ ready.cmd.response = none
    ∧ (ready.after (.setLevel .enough 0#8)).cmd.response = some ⟨.ok, .none⟩
    ∧ (0x08#8 ≠ 0x1D#8 ∧ parameterFit (requestOf 0x08#8 [1#8]) = some .enough)
    ∧ parameterFit (requestOf 0x08#8 []) ≠ none ∧ (0x0F#8).toNat = 0x0F ∧ (List.replicate 5 0#8).length < 6
    ∧ (0x24#8).toNat = 0x24 ∧ (List.replicate 4 0#8).length < 5 ∧ (0x03#8).toNat = 0x03 ∧ [0#8, 0#8].length < 3
    ∧ (0x23#8).toNat = 0x23 ∧ [0#8].length < 2 ∧ [0#8, 0#8, 0#8].length < 4 := by decide

theorem witness_LayoutsReadBackAndFramesDecode_records :
    (ready.after (.recordsTake .enough 3)).cmd.response = some ⟨.ok, .records true 0 0 []⟩
    ∧ ([] : List Record).length ≤ 16 := by decide

theorem witness_LayoutsReadBackAndFramesDecode_transaction :
    let r (k : RecordKind) : Record := recordOf 5 k 3 9 0x8000#32 []
    (r .flashOp).kind = .flashOp ∧ (r .flashOp).flags.getLsbD 15 = true ∧ (r .gap).kind ≠ .flashOp
    ∧ ({ r .flashOp with flags := 0#32 } : Record).flags.getLsbD 15 = false
    ∧ ({ r .message with ack := some ⟨true, some 2, some false⟩ } : Record).ack = some ⟨true, some 2, some false⟩
    ∧ (r .message).ack = none ∧ (r .brk).encode.getD 0 0#8 = 0x15#8 ∧ (r .gap).encode.length = 32 := by decide

theorem witness_LayoutsReadBackAndFramesDecode_context (b : Byte) :
    ∃ report : ContextReport, report.engine = .flash {} (some b) false none := ⟨⟨.idle, some .flash, { }, false, false, 1,
    false, 0, 0, 0, {}, {}, {}, {}, .flash {} (some b) false none⟩, rfl⟩

/-- Context 5 in a state. -/
def inState (st : CtxState) : State := withContext ready { state := st }

theorem witness_ContextOpenAndClose :
    ready.admits ∧ 16 ≤ (16#8).toNat ∧ (5#8).toNat = (5 : CtxId).val ∧ ready.dec.contexts[5].state = .free
    ∧ (inState .idle).admits ∧ (inState .idle).dec.contexts[5].state = .idle
    ∧ (inState .running).dec.contexts[5].state = .running
    ∧ (∃ reason, (inState (.suspended .standby)).dec.contexts[5].state = .suspended reason) :=
  ⟨ready_admits, by decide, rfl, rfl, ready_admits, rfl, rfl, ⟨_, rfl⟩⟩

theorem witness_ContextConfigureClampsAndRefuses :
    (inState .idle).admits ∧ (5#8).toNat = (5 : CtxId).val ∧ (inState .idle).dec.contexts[5].state = .idle
    ∧ acceptProtocol .unknown = none
    ∧ (acceptProtocol (.twoWire (some 31#8) (some 0#8) ⟨[(127, 127)], 0, 0, 0, 0⟩)).isSome = true
    ∧ (acceptProtocol (.async (some 31#8)
        ⟨9, some .odd, 2, some .inverted, true, some 511, 255, some .auto, 1024, 1024, 1024⟩)).isSome = true
    ∧ (acceptProtocol (.clocked (some 0#8) (some 1#8) none none
        ⟨some .falling, some .activeHigh, 32, some .lsbFirst, some true, 1⟩)).isSome = true
    ∧ (acceptProtocol (.flash (some 0#8) (some 1#8) (some 2#8) (some 3#8) none none ⟨some .b, 12, 7, 7⟩)).isSome = true
    ∧ (acceptProtocol (.clocked (some 0#8) (some 1#8) (some 2#8) (some 31#8)
        ⟨some .falling, some .activeHigh, 32, some .lsbFirst, some true, 1⟩)).isSome = true
    ∧ (acceptProtocol (.flash (some 0#8) (some 1#8) (some 2#8) (some 3#8) (some 4#8) (some 31#8)
        ⟨some .b, 12, 7, 7⟩)).isSome = true
    ∧ ¬ ([some 0, some 1, some 0, none].filterMap (id : Option Chan → Option Chan)).Nodup
    ∧ ([some 0, some 1, none, some 31].filterMap (id : Option Chan → Option Chan)).Nodup
    ∧ clamp 1024 268435455 1 < clamp 1024 268435455 2000 ∧ 32 ≤ (32#8).toNat ∧ 7 < 8 ∧ 127 < 128
    ∧ (∃ a, some 512 = some a ∧ 2 ^ clamp 5 9 12 ≤ a)
    ∧ (withContext ready { state := .idle, errors := 1 }).dec.contexts[5].armed = true
    ∧ min (max 0 1) 65535 ≤ (withContext ready { state := .idle, errors := 1 }).dec.contexts[5].errors :=
  ⟨ready_admits, rfl, rfl, rfl, by decide, by decide, by decide, by decide, by decide, by decide, by decide, by decide,
    by decide, by decide, by decide, by decide, ⟨512, rfl, by decide⟩, rfl, by decide⟩

/-- Context 5 idle with the asynchronous protocol, at a decode level. -/
def startable (level : Level) (upper : Nat) : State :=
  let s := withContext ready { state := .idle, protocol := some .async, asyncSettings := { upper } }
  { s with dec := { s.dec with level } }

theorem witness_ContextStartEntersTheStateOfItsTable :
    (startable .economy 4095).admits ∧ 16 ≤ (16#8).toNat ∧ (5#8).toNat = (5 : CtxId).val
    ∧ ready.dec.contexts[5].state = .free ∧ (inState .idle).dec.contexts[5].protocol = none
    ∧ (inState .running).dec.contexts[5].state ≠ .idle ∧ (startable .economy 4095).dec.contexts[5].state = .idle
    ∧ (startable .economy 4095).dec.contexts[5].protocol ≠ none ∧ (startable .economy 4095).dec.level = .economy
    ∧ (startable .economy 4095).dec.contexts[5].asyncSettings.upper < 4096
    ∧ (startable .standby 4096).dec.level = .standby
    ∧ ¬ ((startable .economy 4096).dec.contexts[5].asyncSettings.upper < 4096) :=
  ⟨ready_admits, by decide, rfl, rfl, rfl, by decide, rfl, by decide, rfl, by decide, rfl, by decide⟩

theorem witness_ContextStopAndStatus :
    ready.admits ∧ 16 ≤ (16#8).toNat ∧ (5#8).toNat = (5 : CtxId).val ∧ ready.dec.contexts[5].state = .free
    ∧ (inState .idle).admits ∧ (inState .idle).dec.contexts[5].state = .idle
    ∧ (inState .running).dec.contexts[5].state = .running ∧ (inState .running).dec.contexts[5].state ≠ .free
    ∧ (inState .running).dec.contexts[5].protocol = none
    ∧ ∀ p : Protocol, (withContext ready { state := .running, protocol := some p }).dec.contexts[5].protocol = some p :=
  ⟨ready_admits, by decide, rfl, rfl, ready_admits, rfl, rfl, by decide, rfl, fun _ => rfl⟩

theorem witness_FlashSetLoadAndModelClear :
    let row : List Byte := [0x31#8, 0#8, 1#8, 0#8, 15#8, 0#8, 1#8, 3#8]
    let flash (st : CtxState) : State := withContext ready { state := st, protocol := some .flash }
    ready.admits ∧ (0#8).toNat = 0 ∧ (1#8).toNat = 1
    ∧ descriptorOf row = some ⟨0x31#8, 0, 1, false, 0#4, 15, .none, 1, .enable⟩
    ∧ (List.replicate 32 row).length ≤ 32 ∧ ¬ ([0x31#8, 0x31#8] : List Byte).Nodup ∧ ([0x31#8] : List Byte).Nodup
    ∧ (∃ i : CtxId, (flash .running).dec.contexts[i].state = .running
        ∧ (flash .running).dec.contexts[i].protocol = some .flash
        ∧ (flash .running).dec.contexts[i].flashSettings.set = .a)
    ∧ 2 ≤ (2#8).toNat ∧ 32 < (33#8).toNat ∧ (11#8).toNat = effectCode .other
    ∧ (flash .idle).admits ∧ 16 ≤ (16#8).toNat ∧ (5#8).toNat = (5 : CtxId).val
    ∧ (flash .idle).dec.contexts[5].protocol = some .flash ∧ (flash .idle).dec.contexts[5].state ≠ .running
    ∧ (inState .idle).dec.contexts[5].protocol ≠ some .flash :=
  ⟨ready_admits, rfl, rfl, by decide, by decide, by decide, by decide, ⟨5, rfl, rfl, rfl⟩, by decide, by decide, rfl,
    ready_admits, by decide, rfl, rfl, by decide, by decide⟩

theorem witness_FlashSetLoadAndModelClear_badDescriptor :
    ready.admits ∧ (1#8).toNat ≠ 0 ∧ (1#8).toNat ≠ 3 ∧ (1#8).toNat ≠ 4 ∧ (3#8).toNat ≠ 1 ∧ (3#8).toNat ≠ 2
    ∧ (3#8).toNat ≠ 4 ∧ 15 < (16#8).toNat ∧ 2 < (3#8).toNat ∧ 11 < (12#8).toNat ∧ 32 ≤ 32
    ∧ (List.replicate 248 0#8).length % 8 = 0 ∧ (List.replicate 248 0#8).length + 8 ≤ 8 * 32 :=
  ⟨ready_admits, by simp only [List.length_replicate]; decide⟩

/-- A record of context 5. -/
def someRecord : Record := recordOf 5 .idle 3 9 0#32 []

/-- `ready` with a queue of `n` records. -/
def queued (n : Nat) (isOpen : Bool) : State :=
  { ready with dec := { ready.dec with
      queue := List.replicate n someRecord, isOpen, lost := if isOpen then 0 else 1,
      span := if isOpen then none else some ⟨5, 3, 9⟩ } }

theorem queued_length (n : Nat) (isOpen : Bool) : (queued n isOpen).dec.queue.length = n := List.length_replicate

theorem witness_RecordsTakeRemovesTheOldest : (queued 17 true).admits ∧ (queued 17 true).dec.queue.length = 17 :=
  ⟨ready_admits, by decide⟩

theorem witness_QueueThresholdAndStatus : (queued 1 true).admits ∧ min (max 0 1) 512 ≤ (queued 1 true).dec.queue.length
    ∧ (queued 1 true).dec.queue.length < min (max 600 1) 512 ∧ (queued 1 true).takesRequests :=
  ⟨ready_admits, by decide, by decide, rfl, rfl⟩

theorem witness_QueueAckGapAppendsTheGap :
    (queued 0 true).admits ∧ (queued 0 true).dec.isOpen = true ∧ (queued 512 false).admits
    ∧ (queued 512 false).dec.isOpen = false ∧ 512 ≤ (queued 512 false).dec.queue.length
    ∧ (queued 511 false).dec.queue.length < 512 ∧ (queued 511 false).dec.span = some ⟨5, 3, 9⟩ :=
  ⟨ready_admits, rfl, ready_admits, rfl, (queued_length 512 false).ge, by rw [queued_length]; decide, rfl⟩

/-- The record of context 5 on the path behind one of context 4 of the same moment. -/
def onPath (s : State) (toQueue : Bool) : State :=
  { s with dec := { s.dec with path := [[⟨{ someRecord with context := 4 }, true, false, none⟩,
      ⟨someRecord, toQueue, false, none⟩]] } }

theorem witness_RecordPathDeliversToQueueAndSequencer :
    ready.dec.path = []
    ∧ (onPath (queued 511 true) true).dec.path = ([⟨{ someRecord with context := 4 }, true, false, none⟩]
        ++ ⟨someRecord, true, false, none⟩ :: []) :: []
    ∧ someRecord.context = 5 ∧ ({ someRecord with context := 4 } : Record).context ≠ 5
    ∧ (onPath (queued 511 true) true).dec.isOpen = true ∧ (onPath (queued 511 true) true).dec.queue.length < 512
    ∧ 512 ≤ (onPath (queued 512 true) true).dec.queue.length
    ∧ (onPath (queued 0 false) true).dec.isOpen = false ∧ (onPath (queued 0 false) true).dec.span = some ⟨5, 3, 9⟩ :=
  ⟨rfl, rfl, rfl, by decide, rfl, (queued_length 511 true).trans_lt (by decide), (queued_length 512 true).ge, rfl, rfl⟩

/-- A record of context 5 on its way to the sequencer and to the annotation writer of segment 2. -/
def onPathOf (s : State) : State := { s with dec := { s.dec with path := [[⟨someRecord, false, true, some 2⟩]] } }

/-- The sequencer RUNNING with unit 0 matching every IDLE record and branch 0 of stage 0 one match short of `target`. -/
def watching (target : Nat) : State :=
  onPathOf { ready with trg := { Trg.reset with
    state := .running
    units := Trg.reset.units.set 0 (.record none ⟨BitVec.allOnes 7, 0#32, 0#32, Vector.replicate 4 0#8,
      Vector.replicate 4 0#8, 0#32, 0#32⟩)
    branches := Trg.reset.branches.set 0 (Trg.reset.branches[0].set 0 ⟨true, 0, target, 1, true, true⟩) } }

theorem watching_matches (target : Nat) : (watching target).trg.units[0].matchesRecord someRecord = true := by
  show MatchUnit.matchesRecord (.record none _) someRecord = true
  decide

theorem witness_RecordPathDeliversToQueueAndSequencer_event :
    (watching 1).dec.path = ([] ++ ⟨someRecord, false, true, some 2⟩ :: []) :: [] ∧ someRecord.context = 5
    ∧ (watching 1).trg.state = .running ∧ (watching 1).trg.outstanding = false
    ∧ (watching 1).trg.takesBranch (fun u => (watching 1).trg.units[u].matchesRecord someRecord = true) 0
    ∧ (∀ b, ¬ (watching 2).trg.takesBranch (fun u => (watching 2).trg.units[u].matchesRecord someRecord = true) b)
    ∧ (watching 2).trg.countsEvent (fun u => (watching 2).trg.units[u].matchesRecord someRecord = true) 0 := by
  refine ⟨rfl, rfl, rfl, rfl, ⟨⟨rfl, watching_matches 1⟩, rfl, fun j h => absurd h (Fin.not_lt_zero j)⟩, ?_,
    ⟨rfl, watching_matches 2⟩⟩
  have counts : ∀ b : BranchId, (watching 2).trg.counters[(watching 2).trg.stage][b] + 1
      ≠ (watching 2).trg.branches[(watching 2).trg.stage][b].target
      ∨ (watching 2).trg.branches[(watching 2).trg.stage][b].enabled = false := by decide
  rintro b ⟨⟨on, -⟩, target, -⟩
  rcases counts b with h | h
  · exact h target
  · exact absurd (on.symm.trans h) (by decide)

/-- Segment 2 capturing with `stored` annotations in a chain. -/
def annotating (st : SegState) (stored budget : Nat) (annotations pool : Chain) : State :=
  let s := withSegment sampled { state := st, startTick := some 3, annotations, annotationsStored := stored,
                                 annotationBudget := budget }
  onPathOf { s with cap := { s.cap with pool } }

theorem witness_AnnotationWriterStoresOrDrops :
    let one : Chain := ⟨some 1, some 1, 1⟩
    let two : Chain := ⟨some 0, some 1, 2⟩
    let free : Chain := ⟨some 5, some 5, 1⟩
    (annotating .preTrigger 256 2 one free).dec.path = ([] ++ ⟨someRecord, false, true, some 2⟩ :: []) :: []
    ∧ someRecord.context = 5 ∧ (annotating .preTrigger 256 2 one free).captures 2
    ∧ (annotating .preTrigger 256 2 one free).cap.segments[2].startTick = some 3
    ∧ (annotating .preTrigger 256 2 one free).cap.segments[2].annotations.tail = some 1
    ∧ (annotating .preTrigger 256 2 one free).cap.segments[2].annotations.count ≠ 0
    ∧ (annotating .preTrigger 256 2 one free).memoryCanonical
    -- dropped: the FIFO full, the count saturated, a page refused in either state
    ∧ 64 ≤ (List.replicate 64 (StagedAnnotation.mk 1 0 ⟨0, 0, 0, .idle, 0#16, false, 0#8, 0⟩)).length
    ∧ (annotating .preTrigger (2 ^ 32 - 1) 2 one free).cap.segments[2].annotationsStored = 2 ^ 32 - 1
    ∧ (annotating .preTrigger 256 2 one {}).cap.pool.count = 0
    ∧ (annotating .postTrigger 256 1 one free).cap.segments[2].annotationBudget ≤ one.count
    -- stored: in the tail page, in an allocated page, in a rotated one
    ∧ (annotating .preTrigger 255 2 one free).cap.segments[2].annotationsStored % 256 ≠ 0
    ∧ (annotating .preTrigger 256 2 one free).cap.pool.head = some 5
    ∧ (annotating .preTrigger 256 1 one free).cap.segments[2].annotationBudget ≤ one.count
    ∧ (annotating .preTrigger 256 2 two {}).cap.segments[2].annotations.head = some 0
    ∧ (PageMap.get (annotating .preTrigger 256 2 two {}).cap.pages 0).next = some 1 :=
  ⟨rfl, rfl, .inl rfl, rfl, rfl, by decide, ⟨by decide, by decide⟩, by decide, rfl, rfl, by decide, by decide, rfl,
    by decide, rfl, by decide⟩

/-- Context 5 running under a run whose next conditioned sample carries stamp 100. -/
def timed (c : Context) : State :=
  withContext { ready with pfe := { Pfe.reset with run := some ⟨0, 1, 124, 100⟩ } } { c with state := .running }

theorem witness_ProtocolTimersExpire :
    let idle : Context :=
      { protocol := some .async
        asyncSettings := { idleLength := 25 }
        asyncEngine := { period := 1024, markSince := some 0, idleArmed := true } }
    let word : Context := { protocol := some .clocked, clockedEngine := { outBits := [true], gapTimer := some 100 } }
    let stuck : Context :=
      { protocol := some .twoWire, twoWireSettings := { stuckLimit := 100 }, twoWireEngine := { hold := .clockLow } }
    let open_ : Context := { stuck with twoWireEngine := { stuck.twoWireEngine with state := .address } }
    let free : Context :=
      { protocol := some .twoWire
        twoWireSettings := { busFree := 100 }
        twoWireEngine := { state := .waitFree, freeOrigin := some 0 } }
    (timed idle).pfe.run = some ⟨0, 1, 124, 100⟩ ∧ 24 ≤ 124 ∧ (timed idle).dec.contexts[5].state = .running
    ∧ idle.asyncEngine.phase = .huntSync ∧ idle.asyncEngine.tracker ≠ .acquire
    ∧ max 0 (idle.asyncEngine.lastCharacter.getD 0) ≤ (Run.mk 0 1 124 100).nextStamp
    ∧ idle.asyncSettings.idleLength * idle.asyncEngine.period ≤ 256 * ((Run.mk 0 1 124 100).nextStamp - 0)
    ∧ word.clockedEngine.gapTimer = some 100 ∧ 100 ≤ (Run.mk 0 1 124 100).nextStamp ∧ word.clockedEngine.outBits ≠ []
    ∧ stuck.twoWireEngine.hold ≠ .none ∧ stuck.twoWireEngine.state = .busFree
    ∧ stuck.twoWireEngine.holdOrigin + stuck.twoWireSettings.stuckLimit ≤ (Run.mk 0 1 124 100).nextStamp
    ∧ open_.twoWireEngine.state = .address ∧ passesFilter [] open_.twoWireEngine.address = true
    ∧ passesFilter [(0#7, 0x7F#7)] (some 1#7) = false
    ∧ free.twoWireEngine.state = .waitFree ∧ free.twoWireEngine.freeOrigin = some 0
    ∧ 0 + free.twoWireSettings.busFree ≤ (Run.mk 0 1 124 100).nextStamp :=
  ⟨rfl, by decide, rfl, rfl, by decide, by decide, by decide, rfl, by decide, by decide, by decide, rfl, by decide, rfl,
    rfl, by decide, rfl, rfl, by decide⟩

/-- Two lanes of a context, clock on channel 0 and data on channel 31, with the other roles of the protocols. -/
def lanes : Lanes :=
  { data := some 31, clock := some 0, out := some 1, select := some 2, inn := some 3, d0 := some 4, d1 := some 5 }

/-- A reading with every line high at stamp 1,000. -/
def high (changed : Lines) (fresh : Bool) : Reading := ⟨1000, 1, BitVec.allOnes 32, changed, fresh⟩

theorem witness_AsyncEngineFollowsItsRules :
    let s : AsyncSettings := {}
    let frame (n : Nat) : AsyncFrame := { start := 100, bits := List.replicate n false }
    let fifteen : AsyncEngine :=
      { tracker := .acquire, period := 1024, intervals := List.replicate 15 100, lastChange := some 900 }
    -- the sample
    lanes.data = some 31
    ∧ ((high 0#32 false).lines.getLsbD 31 = decide (s.polarity = .normal) ↔ true = true)
    ∧ (high 0#32 true).fresh = true ∧ (high 0x80000000#32 false).changed.getLsbD 31 = true
    ∧ ({} : AsyncEngine).nextBit s 5 .full 1 1000 = none
    -- acquisition: the sixteenth interval
    ∧ fifteen.tracker = .acquire ∧ fifteen.lastChange = some 900
    ∧ ¬ (s.upper < 256 * (1000 - 900) ∨ 256 * (1000 - 900) < s.lower)
    ∧ (fifteen.intervals ++ [1000 - 900]).length = 16 ∧ 100 ∈ fifteen.intervals ++ [1000 - 900]
    ∧ (∀ i ∈ fifteen.intervals ++ [1000 - 900], 100 ≤ i)
    -- hunting: the mark as long as a frame, and one tick shorter; a break
    ∧ s.frameLength * 1024 ≤ 256 * (1040 - 1000) ∧ 256 * (1039 - 1000) < s.frameLength * 1024
    ∧ ({ phase := .breakWait, frame := some (frame 10) } : AsyncEngine).frame = some (frame 10)
    -- a tracking edge at bit boundary 1, and one at the boundary after the last bit
    ∧ (frame 0).start < 104 ∧ 1 = (2 * (256 * 104 - 256 * 100) + 1024) / (2 * 1024)
    ∧ 256 * 104 < 256 * 100 + 1024 * (2 * (s.frameLength - 1) + 1) / 2 ∧ 1 < s.frameLength
    ∧ s.frameLength ≤ (2 * (256 * 140 - 256 * 100) + 1024) / (2 * 1024)
    -- the bits and the end of a frame
    ∧ (frame 0).bits = [] ∧ (frame 8).bits.length + 1 < s.frameLength ∧ (frame 9).bits.length + 1 = s.frameLength
    ∧ (frame 10).bits.length = s.frameLength ∧ (∀ b ∈ (frame 10).bits, b = false)
    ∧ (∃ b ∈ ({ frame 9 with bits := (frame 9).bits ++ [true] } : AsyncFrame).bits, b = true) := by decide

theorem witness_AsyncEngineFollowsItsRules_verdict :
    ({ tracker := .wide, goodRun := 6 } : AsyncEngine).goodRun < 7 ∧ 7 ≤ ({ tracker := .wide, goodRun := 7 } : AsyncEngine).goodRun
    ∧ ({ tracker := .narrow, badRun := 2 } : AsyncEngine).badRun < 3
    ∧ 3 ≤ ({ tracker := .narrow, badRun := 3 } : AsyncEngine).badRun
    ∧ ({ tracker := .wide, badRun := 14 } : AsyncEngine).badRun < 15
    ∧ 15 ≤ ({ tracker := .wide, badRun := 15 } : AsyncEngine).badRun ∧ ({ mode := .auto } : AsyncSettings).mode = .auto
    ∧ (({ tracker := .wide, badRun := 15 } : AsyncEngine).verdict { mode := .auto } false).1.tracker = .acquire
    ∧ (({ tracker := .wide, badRun := 14 } : AsyncEngine).verdict { mode := .auto } false).1.tracker ≠ .acquire := by
  decide

theorem witness_ClockedEngineFollowsItsRules :
    let s : ClockedSettings := {}
    let e (n : Nat) : ClockedEngine := { phase := .word, outBits := List.replicate n true, inBits := List.replicate n true }
    lanes.clock = some 0 ∧ lanes.out = some 1 ∧ lanes.inn = some 3 ∧ ({ lanes with inn := none } : Lanes).inn = none
    ∧ (e 6).outBits.length + 1 < s.wordLength ∧ s.wordLength ≤ (e 7).outBits.length + 1
    ∧ (e 32).outBits.length ≤ 32 ∧ (e 32).inBits.length = (e 32).outBits.length
    -- with a select, and without one
    ∧ lanes.select = some 2
    ∧ ((high 0#32 false).lines.getLsbD 2 = decide (s.selectPolarity = .activeHigh) ↔ false = true)
    ∧ ((high 0#32 false).lines.getLsbD 2 = decide (({ s with selectPolarity := .activeHigh } : ClockedSettings).selectPolarity
        = .activeHigh) ↔ true = true)
    ∧ ((high 1#32 false).changed.getLsbD 0 = true ∧ ((high 1#32 false).lines.getLsbD 0 = true ↔ s.edge = .rising))
    ∧ ({ lanes with select := none } : Lanes).select = none
    ∧ ({ e 1 with gapTimer := some 1000 } : ClockedEngine).gapTimer = some 1000 ∧ 1000 ≤ (high 0#32 false).stamp
    ∧ (high 0#32 false).stamp < 1001 ∧ (e 1).outBits ≠ [] := by decide

theorem witness_FlashEngineFollowsItsRules :
    let d : Descriptor := ⟨0x6C#8, 3, 4, true, 10#4, 4, .fromTarget, 4, .read⟩
    let t (p : TransferPhase) (clocks : Nat) : Transfer :=
      { startTick := 1, elided := false, phase := p, clocks, total := clocks, descriptor := some d }
    lanes.clock = some 0 ∧ lanes.select = some 2 ∧ lanes.d0 = some 4
    ∧ (high 0#32 false).lines.getLsbD 2 = true ∧ (⟨1000, 1, 0#32, 0#32, false⟩ : Reading).lines.getLsbD 2 = false
    ∧ ((high 1#32 false).changed.getLsbD 0 = true ∧ (high 1#32 false).lines.getLsbD 0 = true)
    -- the command byte's seventh and eighth clocks
    ∧ (t .command 6).clocks + 1 < 8 ∧ (t .command 7).clocks + 1 = 8
    ∧ ({ t .command 7 with bits := List.replicate 7 true } : Transfer).bits.length = 7
    ∧ (∀ k, k < 8 → (0xFF#8).getLsbD k = (List.replicate 7 true ++ [true]).getD (7 - k) false)
    ∧ (∀ c ∈ ([] : List Descriptor), c.opcode ≠ 0x6C#8) ∧ [d] = [] ++ d :: [] ∧ d.opcode = 0x6C#8
    -- the last clock of an address of 24 bits on four lanes, of a mode byte, of the dummy clocks
    ∧ (d.addressWidth = 1 ∨ d.addressWidth = 2 ∨ d.addressWidth = 4)
    ∧ d.addressWidth * ((t .address 4).clocks + 1) < 8 * d.addressBytes
    ∧ d.addressWidth * ((t .address 5).clocks + 1) = 8 * d.addressBytes
    ∧ d.addressWidth * ((t .mode 0).clocks + 1) < 8 ∧ d.addressWidth * ((t .mode 1).clocks + 1) = 8
    ∧ (t .dummy 2).clocks + 1 < d.dummy ∧ (t .dummy 3).clocks + 1 = d.dummy
    -- the wide command byte's two clocks, with and without its lanes; an undecoded phase; a byte cut short
    ∧ (t .command 0).clocks + 1 < 2 ∧ (t .command 1).clocks + 1 = 2 ∧ (t .command 1).lanesMissing = false
    ∧ lanes.d2 = none ∧ ({ t .command 1 with lanesMissing := true } : Transfer).lanesMissing = true
    ∧ (t .generic 9).lanesMissing = false ∧ (t .data 3).clocks % (8 / d.dataWidth) ≠ 0
    ∧ (t .data 3).ending false = .truncated
    -- the three ways of ending
    ∧ (t .data 2).clocks % (8 / d.dataWidth) = 0 ∧ (t .data 2).ending false = .complete
    ∧ (t .address 1).ending false = .truncated ∧ (t .undecoded 1).ending false = .undecided := by decide

theorem witness_FlashEngineFollowsItsRules_elided :
    let d : Descriptor := ⟨0x31#8, 0, 1, false, 0#4, 0, .none, 1, .other⟩
    let m : FlashModel := { continuation := some d }
    let e : FlashEngine := { model := m, selected := false }
    m.continuation = some d ∧ d.addressBytes = 0 ∧ d.hasMode = false ∧ d.dummy = 0 ∧ d.direction = .none
    ∧ (e.sample {} lanes [] 5 ⟨1000, 1, 0#32, 4#32, false⟩).1.phase
      = .transfer { startTick := 1000, elided := true, phase := .surplus, opcode := some 0x31#8, descriptor := some d } := by
  decide

theorem witness_FlashEngineFollowsItsRules_model :
    let d (eff : EffectClass) : Descriptor := ⟨0x31#8, 0, 1, true, 10#4, 0, .none, 1, eff⟩
    let t (eff : EffectClass) : Transfer :=
      { startTick := 1, elided := false, phase := .surplus, total := 8, descriptor := some (d eff), modeByte := some 0xA0#8 }
    (t .enable).ending false = .complete ∧ ({ poweredDown := true } : FlashModel).poweredDown = true
    ∧ (d .enable).effect ≠ .powerUp ∧ (t .powerUp).descriptor = some (d .powerUp) ∧ (d .powerUp).effect = .powerUp
    ∧ ({ t .enable with descriptor := none } : Transfer).descriptor = none
    ∧ ({ busy := true } : FlashModel).busy = true ∧ (d .statusRead).effect = .statusRead
    ∧ (t .enable).modeByte = some 0xA0#8 ∧ (d .enable).hasMode = true
    ∧ (0xA0#8).extractLsb' 4 4 = (d .enable).continueCode ∧ (0x90#8).extractLsb' 4 4 ≠ (d .enable).continueCode := by decide

theorem witness_TwoWireEngineFollowsItsRules :
    let e (state : BusState) (clock data : Bool) : TwoWireEngine := { state, clock, data }
    let full : TwoWireEngine :=
      { state := .address, assembly := List.replicate 8 true, provisional := some false, clock := true }
    lanes.clock = some 0 ∧ lanes.data = some 31
    ∧ (high 0#32 true).fresh = true ∧ (high 0#32 false).fresh = false
    ∧ (e .busFree true true).state ≠ .waitFree ∧ (e .busFree true true).hold = .none
    ∧ (1000 : Nat) < ({ e .data false true with hold := .clockLow, holdOrigin := 1 } : TwoWireEngine).holdOrigin + 1000
    ∧ (e .data true true).clock = true ∧ (e .data true false).data = false ∧ (e .data false true).clock = false
    ∧ (e .data false true).lastFall = none ∧ ({ e .data false true with lastFall := some 900 } : TwoWireEngine).lastFall = some 900
    ∧ full.provisional = some false ∧ full.assembly.length = 8 ∧ full.state = .address
    ∧ ({ full with assembly := List.replicate 7 true } : TwoWireEngine).assembly.length ≠ 8
    ∧ (e .waitFree true true).freeOrigin = none ∧ 1000 < 1 + ({} : TwoWireSettings).busFree
    -- the stuck timer and the free timer expire at the sample
    ∧ ({ e .data false true with hold := .clockLow, holdOrigin := 1 } : TwoWireEngine).hold ≠ .none
    ∧ 1 + ({ stuckLimit := 999 } : TwoWireSettings).stuckLimit ≤ (high 0#32 false).stamp
    ∧ ({ e .waitFree true true with freeOrigin := some 1 } : TwoWireEngine).freeOrigin = some 1
    ∧ 1 + ({ busFree := 999 } : TwoWireSettings).busFree ≤ (high 0#32 false).stamp
    ∧ passesFilter [(0x50#7, 0x7F#7)] (some 0x50#7) = true ∧ passesFilter [(0x50#7, 0x7F#7)] (some 0x51#7) = false := by
  decide

theorem witness_TriggerProgrammingStoresOrRefuses :
    counting.admits ∧ counting.trg.state = .running ∧ ready.admits ∧ ready.trg.state ≠ .running ∧ 16 ≤ (16#8).toNat
    ∧ acceptUnit .unknown = none ∧ (15#8).toNat = (15 : UnitId).val ∧ acceptUnit .disabled = some .disabled
    ∧ 32 ≤ (32#8).toNat ∧ (31#8).toNat = (31 : Chan).val ∧ 8 ≤ (8#8).toNat ∧ 4 ≤ (4#8).toNat
    ∧ (7#8).toNat = (7 : StageId).val ∧ (3#8).toNat = (3 : BranchId).val :=
  ⟨ready_admits, rfl, ready_admits, by decide, by decide, rfl, rfl, rfl, by decide, rfl, by decide, by decide, rfl, rfl⟩

/-- The sequencer running with unit 1 an ELAPSED unit reached at stamp 100 and unit 2 a PATTERN unit that holds. -/
def timedTrigger : State :=
  { ready with
    pfe := { Pfe.reset with run := some ⟨0, 1, 124, 100⟩ }
    trg := { Trg.reset with
      state := .running, time := 99
      units := (Trg.reset.units.set 1 (.elapsed 100)).set 2 (.pattern 0#32 0#32 1)
      branches := Trg.reset.branches.set 0 (Trg.reset.branches[0].set 3 ⟨true, 1, 1, 7, true, true⟩)
      patterns := Trg.reset.patterns.set 2 ⟨some 99, false⟩ } }

/-- The same with branch 0 of stage 0 enabled on the unit that is reached, its target out of reach. -/
def counted : State :=
  { timedTrigger with trg := { timedTrigger.trg with
      branches := timedTrigger.trg.branches.set 0 (timedTrigger.trg.branches[0].set 0 ⟨true, 1, 9, 0, false, false⟩) } }

theorem reaches_unit (s : State) (u : s.trg.units[1] = .elapsed 100) (e : s.trg.entryTick = 0) (t : s.trg.time = 99) :
    s.trg.reaches 100 1 := ⟨100, u, by omega, by omega⟩

theorem witness_ForcedFireAndTriggerEvents :
    ready.admits ∧ ready.trg.state ≠ .running ∧ counting.admits ∧ counting.trg.state = .running
    ∧ counted.pfe.run = some ⟨0, 1, 124, 100⟩ ∧ 24 ≤ 124 ∧ counted.trg.state = .running
    ∧ counted.trg.outstanding = false ∧ counted.trg.reaches (Run.mk 0 1 124 100).nextStamp 1
    ∧ ({ counted.trg with time := 100 } : Trg).takesBranch (counted.trg.reaches 100) 3
    ∧ ({ counted.trg with time := 100 } : Trg).countsEvent (counted.trg.reaches 100) 0
    ∧ timedTrigger.pfe.nextSample.isSome = true ∧ timedTrigger.trg.units[2] = .pattern 0#32 0#32 1
    ∧ timedTrigger.trg.patterns[2] = ⟨some 99, false⟩ ∧ (timedTrigger.pfe.nextSample.map (·.stamp)) = some 100
    ∧ (∀ u, ¬ ready.trg.reaches 100 u) := by
  have reached : counted.trg.reaches 100 1 := reaches_unit _ rfl rfl rfl
  refine ⟨ready_admits, by decide, ready_admits, rfl, rfl, by decide, rfl, rfl, reached, ⟨⟨rfl, reached⟩, rfl, ?_⟩,
    ⟨rfl, reached⟩, by decide, rfl, rfl, by decide, ?_⟩
  · have counts : ∀ j : BranchId, j < 3 → counted.trg.branches[counted.trg.stage][j].enabled = true →
        counted.trg.counters[counted.trg.stage][j] + 1 ≠ counted.trg.branches[counted.trg.stage][j].target := by decide
    exact fun j below h => counts j below h.1
  · have disabled : ∀ u : UnitId, ready.trg.units[u] = .disabled := by decide
    rintro u ⟨n, h, -⟩
    exact nomatch (disabled u).symm.trans h

theorem witness_ForcedFireAndTriggerEvents_sample :
    counted.trg.state = .running ∧ counted.trg.outstanding = false ∧ (∃ u, counted.trg.reaches 100 u)
    ∧ counting.trg.state = .running ∧ ready.trg.state ≠ .running
    ∧ ({ counted.trg with outstanding := true } : Trg).outstanding = true :=
  ⟨rfl, rfl, ⟨1, reaches_unit _ rfl rfl rfl⟩, rfl, by decide, rfl⟩

theorem witness_ForcedFireAndTriggerEvents_hold :
    ∀ (i : UnitId) n, ({ timedTrigger with trg := { timedTrigger.trg with
        units := timedTrigger.trg.units.set 1 .disabled } } : State).trg.units[i] = .elapsed n →
      ¬ (timedTrigger.trg.time < timedTrigger.trg.entryTick + n ∧ timedTrigger.trg.entryTick + n ≤ 100) := by
  intro i n h
  have none : ∀ i : UnitId, ({ timedTrigger with trg := { timedTrigger.trg with
      units := timedTrigger.trg.units.set 1 .disabled } } : State).trg.units[i] = .disabled
      ∨ ({ timedTrigger with trg := { timedTrigger.trg with
      units := timedTrigger.trg.units.set 1 .disabled } } : State).trg.units[i] = .pattern 0#32 0#32 1 := by decide
  rcases none i with k | k <;> rw [k] at h <;> exact nomatch h

/-- A view of segment 2 staged. -/
def viewing (s : State) : State := { s with dsp := { s.dsp with staged := ⟨some 2, 0, 1, true, [.channel 31]⟩ } }

theorem witness_ViewSetAndRefresh :
    ready.admits ∧ 8 ≤ (8#8).toNat ∧ 12 < (List.replicate 13 (RowParam.channel 0#8)).length ∧ 32 ≤ (32#8).toNat
    ∧ RowParam.channel 32#8 ∈ [RowParam.channel 32#8] ∧ 16 ≤ (16#8).toNat
    ∧ ((some 7#8 : Option Byte).map BitVec.toNat = (some 7 : Option SegId).map Fin.val)
    ∧ (List.replicate 12 (Row.channel 31)).length ≤ 12 ∧ (31#8).toNat = (31 : Chan).val
    ∧ (15#8).toNat = (15 : CtxId).val
    ∧ ({ switching with lvl := { switching.lvl with transition := .switching .standby } } : State).admits
    ∧ ready.lvl.level ≠ .standby ∧ ready.lvl.transition ≠ .switching .standby ∧ ready.dsp.staged.segment = none
    ∧ (viewing ready).dsp.staged.segment = some 2 ∧ (viewing capturing).captures 2
    ∧ (viewing capturing).cap.segments[2].retirePending = false ∧ (viewing capturing).dsp.state = .idle :=
  ⟨ready_admits, by decide, by decide, by decide, by decide, by decide, rfl, by decide, rfl, rfl,
    admits_of rfl rfl (by decide), by decide, by decide, rfl, rfl, .inl rfl, rfl, rfl⟩

/-- A refresh of segment 2 in a state, with the next column to form. -/
def refreshing (st : RefreshState) (next : Nat) (pending : Bool) (g : Segment) : State :=
  let s := viewing (withSegment ready g)
  { s with dsp := { s.dsp with active := ⟨some 2, 0, 1, false, [.channel 31, .annotation 15]⟩, state := st, pending
                               nextColumn := next, cellMap := [{}, {}] } }

theorem witness_RefreshReadsColumnsAndCompletes :
    let pinned : Segment := { state := .sealed, pins := 1, firstRetainedTick := 400 }
    (refreshing .reading 399 false pinned).dsp.state = .reading
    ∧ (refreshing .reading 399 false pinned).dsp.cellMap.length
        = (refreshing .reading 399 false pinned).dsp.active.rows.length
    ∧ (refreshing .reading 399 false pinned).dsp.active.rows[1]? = some (.annotation 15)
    ∧ 0 + (399 + 1) * 1 ≤ pinned.firstRetainedTick
    ∧ (refreshing .sending 400 false pinned).dsp.state = .sending
    ∧ (refreshing .sending 400 false pinned).dsp.active.segment = some 2
    ∧ ¬ (pinned.state = .retiring ∧ pinned.pins ≤ 1)
    ∧ (refreshing .sending 400 true pinned).dsp.pending = true
    ∧ (refreshing .sending 400 true pinned).dsp.staged.segment = some 2
    ∧ (refreshing .sending 400 true pinned).cap.segments[2].state = .sealed
    ∧ ¬ (((refreshing .sending 400 true { state := .retiring, pins := 2 }).captures 2
          ∨ (refreshing .sending 400 true { state := .retiring, pins := 2 }).cap.segments[2].state = .sealed)
        ∧ (refreshing .sending 400 true { state := .retiring, pins := 2 }).cap.segments[2].retirePending = false) :=
  ⟨rfl, rfl, rfl, by decide, rfl, rfl, by decide, rfl, rfl, rfl, by simp only [State.captures]; decide⟩

theorem witness_RefreshReadsColumnsAndCompletes_cells :
    let served : Segment := { state := .sealed, pins := 1, records := ⟨some 3, some 3, 1⟩, written := 1 }
    let entries : List ReadEntry := [⟨1, .change, 0#32, 5⟩, ⟨2, .dropout, 1#32, 9⟩]
    let box : Annotation := ⟨10, 20, 15, .message, 0#16, false, 7#8, 1⟩
    let v : View := { ticksPerColumn := 2 }
    served.discarded = none ∧ (refreshing .reading 0 false served).cap.segments[2].records.head = some 3
    ∧ (refreshing .reading 0 false served).dsp.active.rows[0]? = some (.channel 31)
    ∧ 1 ≤ (refreshing .reading 0 false served).dsp.active.ticksPerColumn
    -- an edge at tick 5 only, a dropout of ticks 6 to 8, and a level
    ∧ (∀ e ∈ entries, (e.kind = .change ∨ e.kind = .dropout) → 0 < e.tick ∧ e.tick ≤ 12)
    ∧ entries.Pairwise (fun e f => e.tick < f.tick)
    ∧ channelCell (knownPieces 12 0 1#32 1#32 entries) 4 5 0 = .edge
    ∧ channelCell (knownPieces 12 0 1#32 1#32 entries) 6 8 0 = .noData
    ∧ channelCell (knownPieces 12 0 1#32 1#32 entries) 10 12 0 = .high
    ∧ channelCell (knownPieces 12 0 1#32 1#32 entries) 5 8 0 = .edge
    -- a box in its columns, and its label: sixteen columns and fifteen
    ∧ annotationCell [box] 8 10 = .boxStart ∧ annotationCell [box] 11 12 = .boxBody
    ∧ annotationCell [box] 29 30 = .boxEnd ∧ annotationCell [box] 31 32 = .empty ∧ annotationCell [box, box] 9 30 = .dense
    ∧ v.labelOf box = none ∧ v.labelOf { box with duration := 30 } = some ⟨5, .message, 7#8⟩ := by decide

end Sys2Proof.Tests
end

section
/-! PROOFS. What the requests on the decoded-record queue do (R97 to R99), and the two statements about them. -/

namespace Sys2Proof.Machine

variable {s : State}

/-! ## Requests that reach their block -/

/-- A request that the port admits, with parameters that fit, is its body and the response the body formed (R178). -/
theorem exec_of_admits {c : Instr} {body : State → State × Response} (h : s.admits)
    (hc : s.after c = request false .enough body s) : exec c s = .next ((body s).1.respond (body s).2) := by
  rw [exec_eq_after, hc, request_admitted h]

/-! ## RECORDS_TAKE (R98) -/

/-- RECORDS_TAKE divides the queue behind the oldest min(count, 16) records: the first part is the response's, the rest
stays, and QUEUE_LEVEL is armed again where fewer than the threshold stay. -/
theorem exec_recordsTake (h : s.admits) (count : Nat) : exec (.recordsTake .enough count) s =
    .next ({ s with dec := { s.dec with
        queue := s.dec.queue.drop (min count 16)
        armed := if (s.dec.queue.drop (min count 16)).length < s.dec.threshold then true else s.dec.armed } }.answered
      .ok (.records s.dec.isOpen (s.dec.queue.drop (min count 16)).length s.dec.lost
        (s.dec.queue.take (min count 16)))) :=
  exec_of_admits h (after_recordsTake s .enough count)

/-- Settles O46: the queue divides into what `take` returns and what `drop` leaves. -/
theorem recordsTakeRemovesTheOldest : Obligations.RecordsTakeRemovesTheOldest := by
  intro s count h
  refine ⟨_, _, _, (List.take_append_drop (min count 16) s.dec.queue).symm, List.length_take,
    exec_recordsTake h count, ?below, ?notBelow⟩
  case below => exact fun below => if_pos below
  case notBelow => exact fun notBelow => if_neg (Nat.not_lt.mpr notBelow)

/-! ## QUEUE_THRESHOLD_SET and QUEUE_STATUS (R99) -/

/-- QUEUE_THRESHOLD_SET stores the clamped threshold and compares: the flag says whether the occupancy is below it, and
a flag that was set raises QUEUE_LEVEL where it is not. -/
theorem exec_queueThresholdSet (h : s.admits) (threshold : Nat) : exec (.queueThresholdSet .enough threshold) s =
    .next ({ s with
        dec := { s.dec with
          threshold := min (max threshold 1) 512
          armed := decide (s.dec.queue.length < min (max threshold 1) 512) }
        cmd := { s.cmd with
          pending := if s.dec.armed ∧ min (max threshold 1) 512 ≤ s.dec.queue.length
            then s.cmd.pending ||| BitVec.twoPow 14 5 else s.cmd.pending } }.answered .ok) := by
  rw [exec_of_admits h (after_queueThresholdSet s .enough threshold), bodyQueueThresholdSet, State.checkQueue_eq]
  rfl

/-- QUEUE_STATUS changes nothing and answers the queue's fields. -/
theorem exec_queueStatus (h : s.admits) : exec .queueStatus s = .next (s.answered .ok
    (.queue s.dec.queue.length s.dec.isOpen s.dec.lost s.dec.span s.dec.threshold s.dec.armed)) :=
  exec_of_admits h (after_queueStatus s)

/-! ## RESET at the queue (R96, R99, R184) -/

/-- RESET leaves DEC as `Dec.softReset` says; the port's settling is CAP's alone. -/
@[simp] theorem State.softReset_dec (s : State) : s.softReset.dec = s.dec.softReset s.lvl.isSwitching := by
  simp [State.softReset]

/-- RESET is taken at every level, resting in STANDBY too (R19). -/
theorem exec_reset (h : s.takesRequests) : exec .reset s = .next (s.softReset.answered .ok) := by
  rw [exec_eq_after, after_reset, request_enough h true (.inl rfl)]
  rfl

/-- RESET keeps the threshold, empties the queue and sets the flag. -/
theorem State.softReset_queue (s : State) : s.softReset.dec.threshold = s.dec.threshold ∧ s.softReset.dec.queue = []
    ∧ s.softReset.dec.armed = true := by
  rw [State.softReset_dec]
  exact ⟨rfl, rfl, rfl⟩

/-- Settles O47, from the laws of the three requests and the range that ties the lost span to the lost count. -/
theorem queueThresholdAndStatus : Obligations.QueueThresholdAndStatus := by
  refine ⟨?thresholdSet, fun _ h => exec_queueStatus h, fun _ inRange noneLost => inRange.span.mp noneLost,
    ⟨rfl, rfl, rfl⟩, fun s h => ⟨_, exec_reset h, s.softReset_queue⟩⟩
  case thresholdSet =>
    intro s threshold h
    refine ⟨_, _, exec_queueThresholdSet h threshold, ?reached, ?below⟩
    case reached =>
      intro reached
      exact ⟨decide_eq_false (Nat.not_lt.mpr reached), by simp only [reached, and_true]⟩
    case below =>
      intro below
      exact ⟨decide_eq_true below, if_neg fun raised => Nat.not_le.mpr below raised.2⟩

end Sys2Proof.Machine
end

section
/-! PROOFS. What a RECORD match unit compares (R158), one law per compare, and the statement that a unit matches the
records that pass all of them. -/

namespace Sys2Proof.Machine

/-! ## Masked words, bit by bit -/

/-- Two words agree under a mask when they agree at every bit that the mask sets. -/
theorem and_mask_eq_iff {w : Nat} (x y mask : BitVec w) :
    x &&& mask = y &&& mask ↔ ∀ k, k < w → mask.getLsbD k = true → x.getLsbD k = y.getLsbD k := by
  constructor
  · intro same k _ set
    have := congrArg (·.getLsbD k) same
    simpa only [BitVec.getLsbD_and, set, Bool.and_true] using this
  · intro same
    refine BitVec.eq_of_getLsbD_eq fun k inWord => ?_
    rw [BitVec.getLsbD_and, BitVec.getLsbD_and]
    cases set : mask.getLsbD k with
    | false => rw [Bool.and_false, Bool.and_false]
    | true => rw [same k inWord set]

/-- A word holds all of a mask when every bit that the mask sets is set in it. -/
theorem and_mask_eq_mask_iff {w : Nat} (x mask : BitVec w) :
    x &&& mask = mask ↔ ∀ k, k < w → mask.getLsbD k = true → x.getLsbD k = true := by
  have againstItself := and_mask_eq_iff x mask mask
  rw [BitVec.and_self] at againstItself
  rw [againstItself]
  exact forall₃_congr fun k _ set => by rw [set]

/-- A word holds some of a mask when a bit that the mask sets is set in it. -/
theorem and_mask_ne_zero_iff {w : Nat} (x mask : BitVec w) :
    x &&& mask ≠ 0#w ↔ ∃ k, k < w ∧ mask.getLsbD k = true ∧ x.getLsbD k = true := by
  have none_shared := and_mask_eq_iff x 0#w mask
  rw [BitVec.zero_and] at none_shared
  rw [Ne, none_shared]
  simp only [BitVec.getLsbD_zero, not_forall, exists_prop, Bool.not_eq_false]

/-! ## The compares of a RECORD unit (R158) -/

/-- R158: a RECORD unit adds to the other compares the context: ANY, or the record's own. -/
theorem matchesRecord_record_iff (context : Option CtxId) (c : RecordCompare) (r : Record) :
    (MatchUnit.record context c).matchesRecord r = true ↔
      (context = none ∨ context = some r.context) ∧ recordPasses c r = true := by
  cases context with
  | none =>
    change (true && recordPasses c r) = true ↔ _
    rw [Bool.true_and, and_iff_right (.inl rfl)]
  | some own =>
    change (decide (own = r.context) && recordPasses c r) = true ↔ _
    rw [Bool.and_eq_true, decide_eq_true_iff, Option.some.injEq, or_iff_right (Option.some_ne_none own)]

/-- R158: flags any. -/
theorem flagsAnyMatches_iff (flags mask : BitVec 32) : (mask == 0#32 || (flags &&& mask) != 0#32) = true ↔
    mask = 0#32 ∨ ∃ k, k < 32 ∧ mask.getLsbD k = true ∧ flags.getLsbD k = true := by
  rw [Bool.or_eq_true, beq_iff_eq, bne_iff_ne, and_mask_ne_zero_iff]

/-- R158: one payload byte position; a mask of 0 passes, and any other needs the position inside the payload. -/
theorem payloadByteMatches_iff (r : Record) (value mask : Byte) (position : Nat) :
    payloadByteMatches r value mask position = true ↔ (mask ≠ 0#8 → position < r.length
      ∧ ∀ k, k < 8 → mask.getLsbD k = true → (r.head.getD position 0#8).getLsbD k = value.getLsbD k) := by
  rw [payloadByteMatches, Bool.or_eq_true, Bool.and_eq_true, beq_iff_eq, beq_iff_eq, decide_eq_true_iff,
    and_mask_eq_iff, Ne, Decidable.or_iff_not_imp_left]

/-- The address mask that counts has the mask's bits below bit 7 for a MESSAGE and all of them for the other kinds. -/
theorem addressCompareMask_getLsbD (mask : BitVec 32) (kind : RecordKind) (k : Nat) :
    (addressCompareMask mask kind).getLsbD k = true ↔
      k < (if kind = .message then 7 else 32) ∧ mask.getLsbD k = true := by
  by_cases message : kind = .message
  · have low : (127#32).getLsbD k = decide (k < 7) := by
      rw [show (127#32) = BitVec.setWidth 32 (BitVec.allOnes 7) from rfl, BitVec.getLsbD_setWidth,
        BitVec.getLsbD_allOnes]
      grind
    rw [addressCompareMask, if_pos message, if_pos message, BitVec.getLsbD_and, low, Bool.and_eq_true,
      decide_eq_true_iff, and_comm]
  · rw [addressCompareMask, if_neg message, if_neg message]
    exact ⟨fun set => ⟨BitVec.lt_of_getLsbD set, set⟩, And.right⟩

/-- R158: a record's address agrees with the unit's where they agree at every bit of the mask that counts. -/
theorem addressAgrees_iff (a : Nat) (value mask : BitVec 32) (kind : RecordKind) :
    BitVec.ofNat 32 a &&& addressCompareMask mask kind = value &&& addressCompareMask mask kind ↔
      ∀ k, k < (if kind = .message then 7 else 32) → mask.getLsbD k = true → a.testBit k = value.getLsbD k := by
  have bits : (if kind = .message then 7 else 32) ≤ 32 := by split <;> decide
  rw [and_mask_eq_iff]
  constructor
  · intro same k counts set
    have inWord : k < 32 := Nat.lt_of_lt_of_le counts bits
    rw [← same k inWord ((addressCompareMask_getLsbD mask kind k).mpr ⟨counts, set⟩), BitVec.getLsbD_ofNat,
      decide_eq_true inWord, Bool.true_and]
  · intro same k inWord set
    obtain ⟨counts, set⟩ := (addressCompareMask_getLsbD mask kind k).mp set
    rw [BitVec.getLsbD_ofNat, decide_eq_true inWord, Bool.true_and, same k counts set]

/-- R158: a record passes the compares of a unit. -/
theorem recordPasses_iff (c : RecordCompare) (r : Record) : recordPasses c r = true ↔
    c.kinds.getLsbD (recordKindCode r.kind) = true
    ∧ (c.flagsAny = 0#32 ∨ ∃ k, k < 32 ∧ c.flagsAny.getLsbD k = true ∧ r.flags.getLsbD k = true)
    ∧ (∀ k, k < 32 → c.flagsAll.getLsbD k = true → r.flags.getLsbD k = true)
    ∧ (∀ p : Fin 4, c.payloadMask[p] ≠ 0#8 → p.val < r.length
        ∧ ∀ k, k < 8 → c.payloadMask[p].getLsbD k = true →
          (r.head.getD p.val 0#8).getLsbD k = c.payloadValue[p].getLsbD k)
    ∧ (c.addressMask = 0#32 ∨ ∃ a, r.address = some a
        ∧ ∀ k, k < (if r.kind = .message then 7 else 32) → c.addressMask.getLsbD k = true →
            a.testBit k = c.addressValue.getLsbD k) := by
  have payload : (everyId 4).all (fun p => payloadByteMatches r c.payloadValue[p] c.payloadMask[p] p.val) = true ↔
      ∀ p : Fin 4, payloadByteMatches r c.payloadValue[p] c.payloadMask[p] p.val = true := by
    simp only [everyId, List.all_eq_true, List.mem_finRange, true_imp_iff]
  unfold recordPasses
  rw [Bool.and_eq_true, Bool.and_eq_true, Bool.and_eq_true, Bool.and_eq_true, inSet, flagsAnyMatches_iff, beq_iff_eq,
    and_mask_eq_mask_iff, payload, Bool.or_eq_true, beq_iff_eq, and_assoc, and_assoc, and_assoc]
  refine and_congr_right fun _ => and_congr_right fun _ => and_congr_right fun _ => and_congr
    (forall_congr' fun p => payloadByteMatches_iff r c.payloadValue[p] c.payloadMask[p] p.val) (or_congr_right ?_)
  cases r.address with
  | none => simp
  | some a => simp only [beq_iff_eq, addressAgrees_iff, Option.some.injEq, exists_eq_left']

/-- Settles O58: the unit's match is its context compare and the compares of `recordPasses`. -/
theorem recordUnitMatchesByItsCompares : Obligations.RecordUnitMatchesByItsCompares := by
  intro context compare r
  rw [matchesRecord_record_iff, recordPasses_iff]

end Sys2Proof.Machine
end

section
/-! PROOFS. The attention line (R182), what the two notice requests do (R182, R183), and the two statements about them. -/

namespace Sys2Proof.Machine

variable {s : State}

/-! ## The attention line (R182) -/

theorem Notice.index_lt (n : Notice) : n.index < 14 := by
  cases n <;> decide

/-- R182: the line is high while some pending kind is not masked. -/
theorem State.attention_iff (s : State) : s.attention = true ↔
    ∃ k, k < 14 ∧ s.cmd.pending.getLsbD k = true ∧ s.cmd.mask.getLsbD k = false := by
  rw [State.attention, bne_iff_ne, and_mask_ne_zero_iff]
  refine exists_congr fun k => and_congr_right fun kind => ?_
  rw [BitVec.getLsbD_not, decide_eq_true kind, Bool.true_and, Bool.not_eq_true', and_comm]

/-- The line is low with nothing pending, whatever the mask. -/
theorem State.attention_of_no_pending (empty : s.cmd.pending = 0#14) : s.attention = false := by
  refine Bool.eq_false_iff.mpr fun high => ?_
  obtain ⟨k, -, pending, -⟩ := s.attention_iff.mp high
  rw [empty, BitVec.getLsbD_zero] at pending
  exact Bool.false_ne_true pending

/-! ## A raised notice (R181) -/

/-- The raised kind is pending. -/
theorem State.noticed_pending_same (s : State) (n : Notice) :
    (s.noticed n.index).cmd.pending.getLsbD n.index = true := by
  rw [State.noticed, BitVec.getLsbD_or, BitVec.getLsbD_twoPow, decide_eq_true n.index_lt, decide_eq_true rfl,
    Bool.and_self, Bool.or_true]

/-- Every other kind is pending as it was before. -/
theorem State.noticed_pending_other (s : State) {k j : Nat} (other : k ≠ j) :
    (s.noticed j).cmd.pending.getLsbD k = s.cmd.pending.getLsbD k := by
  rw [State.noticed, BitVec.getLsbD_or, BitVec.getLsbD_twoPow, decide_eq_false other.symm, Bool.and_false,
    Bool.or_false]

/-- An unmasked kind raises the line with it. -/
theorem State.noticed_attention (s : State) (n : Notice) (unmasked : s.cmd.mask.getLsbD n.index = false) :
    (s.noticed n.index).attention = true :=
  (State.attention_iff _).mpr ⟨n.index, n.index_lt, s.noticed_pending_same n, unmasked⟩

/-! ## The requests, at every level (R19) -/

/-- NOTICES_READ empties the sets and answers what they held. -/
theorem exec_noticesRead (h : s.takesRequests) : exec .noticesRead s =
    .next (({ s with cmd := s.cmd.emptied }).answered .ok
      (.notices s.cmd.pending s.cmd.lockChange s.cmd.errorThreshold s.cmd.glitch s.cmd.activity)) := by
  rw [exec_eq_after, after_noticesRead, request_enough h true (.inl rfl)]
  rfl

/-- NOTICES_MASK replaces the mask with the 14 kinds of its parameter and answers it and the pending set. -/
theorem exec_noticesMask (h : s.takesRequests) (mask : BitVec 16) : exec (.noticesMask .enough mask) s =
    .next (({ s with cmd := { s.cmd with mask := mask.setWidth 14 } }).answered .ok
      (.mask (mask.setWidth 14) s.cmd.pending)) := by
  rw [exec_eq_after, after_noticesMask, request_enough h true (.inl rfl)]
  rfl

/-- RESET empties CMD's pending and detail sets; the port's settling is CAP's alone. -/
@[simp] theorem State.softReset_cmd (s : State) : s.softReset.cmd = s.cmd.emptied := by
  simp [State.softReset, Cmd.softReset]

/-! ## The statements -/

/-- Settles O15: the read returns the sets and empties them in one event, so a notice raised ahead of it stands in the
set it returns, and one raised behind it stands alone in the emptied set. -/
theorem noticesReadReturnsAndEmptiesTheSets : Obligations.NoticesReadReturnsAndEmptiesTheSets := by
  intro s h
  refine ⟨_, exec_noticesRead h, rfl, State.attention_of_no_pending rfl, ?before, ?after, ?frameEnds⟩
  case before =>
    intro n
    have open_noticed : (s.noticed n.index).takesRequests := h
    exact ⟨_, exec_noticesRead open_noticed, rfl, _, rfl, s.noticed_pending_same n,
      fun _ other => s.noticed_pending_other other⟩
  case after => exact fun n => ⟨State.noticed_pending_same _ n, fun unmasked => State.noticed_attention _ n unmasked⟩
  case frameEnds => exact ⟨_, exec_eq_after _ _, rfl, rfl⟩

/-- Settles O16: the line from its bits, and each request that empties the pending set lowers it and keeps the mask. -/
theorem attentionLineFollowsPendingAndMask : Obligations.AttentionLineFollowsPendingAndMask := by
  refine ⟨State.attention_iff, ?mask, rfl, State.attention_of_no_pending rfl, ?lowered⟩
  case mask =>
    intro s mask h
    refine ⟨mask.setWidth 14, fun k kind => ?_, exec_noticesMask h mask⟩
    rw [BitVec.getLsbD_setWidth, decide_eq_true kind, Bool.true_and]
  case lowered =>
    intro s h
    have reset_pending : s.softReset.cmd.pending = 0#14 := by rw [State.softReset_cmd, Cmd.emptied]
    have reset_mask : s.softReset.cmd.mask = s.cmd.mask := by rw [State.softReset_cmd, Cmd.emptied]
    exact ⟨⟨_, exec_reset h, reset_mask, State.attention_of_no_pending reset_pending⟩,
      _, exec_noticesRead h, rfl, State.attention_of_no_pending rfl⟩

end Sys2Proof.Machine
end

section
/-! PROOFS. The whole device: one step, the waiting commands, DRAM, the level and the count. -/

namespace Sys2Proof.Machine

variable {s : State}

/-! ## What bodies leave alone, their requests leave alone -/

theorem onSegment_field {α : Type} (φ : State → α) {b : Byte} {body : SegId → State → State × Response}
    (h : ∀ i, φ (body i s).1 = φ s) : φ (onSegment b body s).1 = φ s := by
  unfold onSegment
  split
  · exact h _
  · rfl

theorem onContext_field {α : Type} (φ : State → α) {b : Byte} {body : CtxId → State → State × Response}
    (h : ∀ i, φ (body i s).1 = φ s) : φ (onContext b body s).1 = φ s := by
  unfold onContext
  split
  · exact h _
  · rfl

theorem onOpenContext_field {α : Type} (φ : State → α) {b : Byte} {body : CtxId → State → State × Response}
    (h : ∀ i, φ (body i s).1 = φ s) : φ (onOpenContext b body s).1 = φ s := by
  refine onContext_field φ fun i => ?_
  split
  · rfl
  · exact h i

theorem request_pending {a : Bool} {f : Fit} {b : State → State × Response} (h : (b s).1.pending = s.pending) :
    (request a f b s).pending = s.pending := request_keeps State.pending (fun _ _ => rfl) a f b s h

theorem request_dram {a : Bool} {f : Fit} {b : State → State × Response}
    (h : (b s).1.cap.dram = s.cap.dram) : (request a f b s).cap.dram = s.cap.dram :=
  request_keeps (·.cap.dram) (fun _ _ => rfl) a f b s h

theorem request_level {a : Bool} {f : Fit} {b : State → State × Response}
    (h : (b s).1.lvl.level = s.lvl.level) : (request a f b s).lvl.level = s.lvl.level :=
  request_keeps (·.lvl.level) (fun _ _ => rfl) a f b s h

theorem request_count {a : Bool} {f : Fit} {b : State → State × Response}
    (h : (b s).1.lvl.count = s.lvl.count) : (request a f b s).lvl.count = s.lvl.count :=
  request_keeps (·.lvl.count) (fun _ _ => rfl) a f b s h

theorem after_pending (c : Instr) : (s.after c).pending = s.pending := by
  cases c
  case sampleStep probes =>
    rw [after_sampleStep]
    split <;> simp
  case levelTransitionComplete =>
    rw [after_levelTransitionComplete]
    split <;> simp
  all_goals
    simp [request_pending, onSegment_field State.pending, onContext_field State.pending,
      onOpenContext_field State.pending, apply_ite State.pending]

/-- Settles O2: no command adds or takes a waiting command. -/
theorem commandsKeepTheWaitingCommands : Obligations.CommandsKeepTheWaitingCommands := by
  intro c s t h
  rw [(exec_next_iff s c t).mp h, after_pending]

/-- Settles O1. -/
theorem stepRunsTheFrontCommand : Obligations.StepRunsTheFrontCommand :=
  ⟨fun _ _ _ => step_front, fun s empty => by unfold step; rw [empty]⟩

/-- R52: every command but a drain completion and power-on leaves DRAM. -/
theorem after_dram (c : Instr) (drain : c ≠ .drainCompletion) (powerOn : c ≠ .powerOn) :
    (s.after c).cap.dram = s.cap.dram := by
  cases c
  case drainCompletion => exact absurd rfl drain
  case powerOn => exact absurd rfl powerOn
  case sampleStep probes =>
    rw [after_sampleStep]
    split <;> simp
  case levelTransitionComplete =>
    rw [after_levelTransitionComplete]
    split <;> simp
  all_goals
    simp [request_dram, onSegment_field (·.cap.dram), onContext_field (·.cap.dram),
      onOpenContext_field (·.cap.dram), apply_ite fun t : State => t.cap.dram]

/-- Settles O9. -/
theorem onlyDrainCompletionsWriteDram : Obligations.OnlyDrainCompletionsWriteDram := by
  intro c s t h drain powerOn
  rw [(exec_next_iff s c t).mp h, after_dram c drain powerOn]

theorem after_level (c : Instr) (transition : c ≠ .levelTransitionComplete) (powerOn : c ≠ .powerOn) :
    (s.after c).lvl.level = s.lvl.level := by
  cases c
  case levelTransitionComplete => exact absurd rfl transition
  case powerOn => exact absurd rfl powerOn
  case sampleStep probes =>
    rw [after_sampleStep]
    split <;> simp
  all_goals
    simp [request_level, onSegment_field (·.lvl.level), onContext_field (·.lvl.level),
      onOpenContext_field (·.lvl.level), apply_ite fun t : State => t.lvl.level]

theorem after_count (c : Instr) (sample : ∀ probes, c ≠ .sampleStep probes)
    (transition : c ≠ .levelTransitionComplete) (reset : c ≠ .reset) (powerOn : c ≠ .powerOn) :
    (s.after c).lvl.count = s.lvl.count := by
  cases c
  case sampleStep probes => exact absurd rfl (sample probes)
  case levelTransitionComplete => exact absurd rfl transition
  case reset => exact absurd rfl reset
  case powerOn => exact absurd rfl powerOn
  all_goals
    simp [request_count, onSegment_field (·.lvl.count), onContext_field (·.lvl.count),
      onOpenContext_field (·.lvl.count), apply_ite fun t : State => t.lvl.count]

/-- Settles O10. -/
theorem levelAndCountChangeOnlyWhereStated : Obligations.LevelAndCountChangeOnlyWhereStated := by
  intro c s t h
  rw [(exec_next_iff s c t).mp h]
  constructor
  · contrapose!
    rintro ⟨transition, powerOn⟩
    exact after_level c transition powerOn
  · contrapose!
    rintro ⟨sample, transition, reset, powerOn⟩
    exact after_count c sample transition reset powerOn

end Sys2Proof.Machine
end

section
/-! PROOFS. The command port: frames, requests that are turned away, requests that only return state, and power-on. -/

namespace Sys2Proof.Machine

variable {s : State}

theorem map_get {α β : Type} {n : Nat} (v : Vector α n) (f : α → β) (i : Fin n) : (v.map f)[i] = f v[i] := by
  simp only [Fin.getElem_fin, Vector.getElem_map]

/-! ## The frame (R178, R179) -/

theorem setHeld_none (h : s.takesRequests) : s.setCmd { s.cmd with held := none } = s := by
  unfold State.setCmd
  rw [← h.2]

/-- R180: a read request, with no other read in flight, is turned away as the others are. -/
theorem requestRead_eq_request (kind : ReadKind) (fit : Fit) (segment : Byte) (start count : Nat)
    (turned : fit = .short ∨ s.restsInStandby) (free : s.cap.read = none) (body : State → State × Response) :
    s.requestRead kind fit segment start count = request false fit body s := by
  unfold State.requestRead request
  split
  case isTrue h =>
    rw [free, Option.isSome_none, if_neg Bool.false_ne_true]
    unfold State.takeRead
    rw [setHeld_none ((portOpen_iff s).mp h)]
    dsimp only
    by_cases rests : s.resting = true
    · simp only [rests, if_true, Bool.not_false, Bool.and_true]
    · rw [turned.resolve_right fun r => rests ((resting_iff s).mpr r)]
      simp only [rests, Bool.and_true, Bool.not_false]
  case isFalse => rfl

theorem requestRead_closed (h : ¬ s.takesRequests) (kind : ReadKind) (fit : Fit) (segment : Byte)
    (start count : Nat) : s.requestRead kind fit segment start count = s :=
  if_neg fun e => h ((portOpen_iff s).mp e)

/-- Every request but the two reads is a `request`, admitted in STANDBY when its code is one of R19's. -/
theorem after_eq_request {c : Instr} {k : Nat} (code : requestCode c = some k) (entries : k ≠ 0x15)
    (annotations : k ≠ 0x16) : ∃ body, s.after c
      = request (decide (k ∈ standbyCodes)) ((parameterFit c).getD .enough) body s := by
  cases c
  case segmentRead => cases code; exact absurd rfl entries
  case annotationRead => cases code; exact absurd rfl annotations
  case reset => cases code; exact ⟨_, after_reset s⟩
  all_goals cases code <;> exact ⟨_, rfl⟩

/-- A request that will be turned away, the two reads with none in flight included. -/
theorem after_eq_request_of_turned {c : Instr} {k : Nat} (code : requestCode c = some k)
    (turned : parameterFit c = some .short ∨ s.restsInStandby) (free : k = 0x15 ∨ k = 0x16 → s.cap.read = none) :
    ∃ body, s.after c = request (decide (k ∈ standbyCodes)) ((parameterFit c).getD .enough) body s := by
  by_cases entries : k = 0x15
  · cases c <;> cases code <;> cases entries
    exact ⟨bodyPoolStatus, requestRead_eq_request _ _ _ _ _ (turned.imp_left Option.some.inj) (free (.inl rfl)) _⟩
  by_cases annotations : k = 0x16
  · cases c <;> cases code <;> cases annotations
    exact ⟨bodyPoolStatus, requestRead_eq_request _ _ _ _ _ (turned.imp_left Option.some.inj) (free (.inr rfl)) _⟩
  exact after_eq_request code entries annotations

/-- R178: outside an open request frame a request's bytes are no request. -/
theorem after_request_closed {c : Instr} {k : Nat} (code : requestCode c = some k) (h : ¬ s.takesRequests) :
    s.after c = s := by
  by_cases entries : k = 0x15
  · cases c <;> cases code <;> cases entries
    exact requestRead_closed h ..
  by_cases annotations : k = 0x16
  · cases c <;> cases code <;> cases annotations
    exact requestRead_closed h ..
  obtain ⟨body, e⟩ := after_eq_request (s := s) code entries annotations
  rw [e, request_closed h]

theorem after_unknownRequest_closed (code : Byte) (h : ¬ s.takesRequests) : s.after (.unknownRequest code) = s := by
  rw [after_unknownRequest, Bool.eq_false_iff.mpr fun e => h ((portOpen_iff s).mp e), Bool.false_and,
    if_neg Bool.false_ne_true]

theorem exec_portSelectDeassert (s : State) : exec .portSelectDeassert s =
    .next { s with cmd := { s.cmd with frame := .idle, response := none, held := none }
                   cap := { s.cap with read := s.cap.read.map fun r => { r with frameOpen := false } } } :=
  exec_eq_after s .portSelectDeassert

/-- Settles O11. -/
theorem portSelectFramesRequests : Obligations.PortSelectFramesRequests := by
  refine ⟨?closed, fun s idle => ?assert, fun s within => ?again, fun s => ?deassert⟩
  case closed =>
    rintro c s (⟨k, code⟩ | ⟨k, rfl⟩) closed
    · rw [exec_eq_after, after_request_closed code closed]
    · rw [exec_eq_after, after_unknownRequest_closed k closed]
  case assert => rw [exec_eq_after, after_portSelectAssert, if_pos idle]; rfl
  case again => rw [exec_eq_after, after_portSelectAssert, if_neg within]
  case deassert =>
    refine ⟨_, exec_portSelectDeassert s, fun free => ?_, fun r reading => ?_⟩
    · rw [free]; rfl
    · rw [reading]; rfl

/-- Every request whose parameters may be too few has a code. -/
theorem requestCode_of_parameterFit {c : Instr} {f : Fit} (h : parameterFit c = some f) :
    ∃ k, requestCode c = some k := by
  cases c <;> cases h <;> exact ⟨_, rfl⟩

/-- R187: parameters that do not hold the descriptors they announce load no set. -/
theorem flashLoadOf_short {params : List Byte}
    (short : params.length < 2 ∨ params.length < 2 + 8 * (params.getD 1 0#8).toNat) : flashLoadOf params = none := by
  unfold flashLoadOf
  split
  case h_1 set count rest =>
    simp only [List.length_cons, List.getD_cons_succ, List.getD_cons_zero] at short
    dsimp only
    split
    · rfl
    · rw [if_pos (.inr (by omega))]
  case h_2 => rfl

theorem bodyFlashSetLoad_of_none {params : List Byte} (unread : flashLoadOf params = none) :
    bodyFlashSetLoad params s = (s, .only .badParam) := by
  unfold bodyFlashSetLoad
  rw [unread]

/-- Settles O12. -/
theorem turnedAwayRequestsHaveNoEffect : Obligations.TurnedAwayRequestsHaveNoEffect := by
  refine ⟨⟨fun c s k code outside h free rests => ?standby, fun code s unknown h => ?unknown⟩,
    fun c s short h free routed => ?short, fun params s h short => ?load⟩
  case standby =>
    obtain ⟨body, e⟩ := after_eq_request_of_turned code (.inr rests) free
    rw [exec_eq_after, e, decide_eq_false outside, request_standby h rests]
  case unknown =>
    have unrecognised : recognisedCode code = false := by unfold recognisedCode; rw [decide_eq_false]; omega
    rw [exec_eq_after, after_unknownRequest, (portOpen_iff s).mpr h, unrecognised]
    rfl
  case short =>
    obtain ⟨k, code⟩ := requestCode_of_parameterFit short
    rw [code] at free routed
    obtain ⟨body, e⟩ := after_eq_request_of_turned code (.inl short)
      fun read => free (read.imp (congrArg some) (congrArg some))
    rw [exec_eq_after, e, short, Option.getD_some, request_short h]
    rcases routed with awake | ⟨j, ⟨⟩, admitted⟩
    · exact .inr awake
    · exact .inl (decide_eq_true admitted)
  case load =>
    rw [exec_of_admits h (after_flashSetLoad s params), bodyFlashSetLoad_of_none (flashLoadOf_short short)]
    rfl

/-! ## Power-on (R18 and the power-on columns of the state tables) -/

theorem replicate_get {α : Type} {n : Nat} (a : α) (i : Fin n) : (Vector.replicate n a)[i] = a := by
  simp only [Fin.getElem_fin, Vector.getElem_replicate]

theorem replicate_get_get {α : Type} {m n : Nat} (a : α) (i : Fin m) (j : Fin n) :
    (Vector.replicate m (Vector.replicate n a))[i][j] = a := by
  rw [replicate_get, replicate_get]

/-- R44: after a reset every page is free and linked to the next. -/
theorem PageMap.get_empty (p : Nat) :
    PageMap.get [] p = ⟨.free, if p < 32767 then some (p + 1) else none⟩ := by
  show pageDefault p = _
  unfold pageDefault Config.pageCount
  simp only [Nat.add_lt_iff_lt_sub_right]

/-- Settles O13. -/
theorem powerOnGivesTheStatedValues : Obligations.PowerOnGivesTheStatedValues := by
  intro s
  refine ⟨_, exec_eq_after s .powerOn, ?_⟩
  rw [after_powerOn]
  refine ⟨replicate_get _, fun c => ⟨replicate_get _ c, replicate_get _ c⟩,
    fun p => ⟨replicate_get _ p, replicate_get _ p⟩, rfl, rfl, rfl, rfl, rfl, replicate_get _, rfl,
    ⟨_, rfl, rfl, rfl, rfl⟩, rfl, rfl, rfl, rfl, rfl, fun c => ⟨replicate_get _ c, replicate_get_get _ c⟩,
    rfl, rfl, rfl, rfl, rfl, rfl, fun p _ => PageMap.get_empty p, replicate_get _, rfl, rfl, rfl, rfl, rfl, rfl, ?_⟩
  exact ⟨replicate_get _, rfl, rfl, rfl, rfl, rfl, rfl, rfl, rfl, rfl, rfl, rfl, rfl, rfl, rfl, rfl, rfl, rfl,
    fun u => ⟨replicate_get _ u, replicate_get _ u⟩, fun i b => ⟨replicate_get_get _ i b, replicate_get_get _ i b⟩,
    rfl, rfl, rfl, rfl, rfl, rfl, rfl, rfl, rfl, State.attention_of_no_pending rfl⟩

/-! ## Requests that only return state -/

theorem exec_tell {c : Instr} {d : ResponseData} (h : s.admits) (hc : s.after c = request false .enough (tell d) s) :
    exec c s = .next (s.answered .ok d) := by
  rw [exec_eq_after, hc, request_admitted h]
  rfl

theorem frontEndOf_of_le {b : Byte} (above : 2 ≤ b.toNat) : frontEndOf b = none := by
  obtain ⟨n, value⟩ : ∃ n, b.toNat = n + 2 := ⟨_, (Nat.sub_add_cancel above).symm⟩
  unfold frontEndOf levelOf
  rw [value]
  cases n <;> rfl

/-- R164: the report holds the state of each PATTERN unit. -/
theorem mem_patternReport (t : Trg) (u : UnitId) (p : PatternState) : (u, p) ∈ t.patternReport ↔
    (∃ mask value hold, t.units[u] = .pattern mask value hold) ∧ p = t.patterns[u] := by
  unfold Trg.patternReport everyId
  simp only [List.mem_filterMap, List.mem_finRange, true_and]
  constructor
  · rintro ⟨i, report⟩
    split at report <;> cases report
    exact ⟨⟨_, _, _, ‹_›⟩, rfl⟩
  · rintro ⟨⟨mask, value, hold, unit⟩, rfl⟩
    exact ⟨u, by rw [unit]⟩

theorem Segment.recordFill_of_written {g : Segment} (pages : 0 < g.records.count) (written : 0 < g.written) :
    g.recordFill = (g.written - 1) % 510 + 1 := if_neg (by omega)

theorem Segment.annotationFill_of_stored {g : Segment} (pages : 0 < g.annotations.count)
    (stored : 0 < g.annotationsStored) : g.annotationFill = (g.annotationsStored - 1) % 256 + 1 := if_neg (by omega)

theorem exec_frontEndRead (h : s.admits) {b : Byte} {id : FrontEndId} (named : frontEndOf b = some id) :
    exec (.frontEndRead .enough b) s = .next (s.answered .ok (.frontEnd s.pfe.thresholds (s.pfe.frontEnd id).offsets
      (s.pfe.frontEnd id).widths (decide (s.pfe.active = some id)))) := by
  rw [exec_of_admits h (after_frontEndRead s .enough b), bodyFrontEndRead, named]
  rfl

theorem exec_frontEndRead_refused (h : s.admits) {b : Byte} (above : 2 ≤ b.toNat) :
    exec (.frontEndRead .enough b) s = .next (s.answered .badParam) := by
  rw [exec_of_admits h (after_frontEndRead s .enough b), bodyFrontEndRead, frontEndOf_of_le above]
  rfl

theorem exec_segmentStatus (h : s.admits) {b : Byte} {id : SegId} (named : b.toNat = id.val) :
    exec (.segmentStatus .enough b) s = .next (s.answered .ok
      (.segment s.cap.segments[id] (s.segment id).recordFill (s.segment id).annotationFill)) := by
  rw [exec_of_admits h (after_segmentStatus s .enough b), onSegment, idOf_eq b id named]
  rfl

theorem exec_segmentStatus_refused (h : s.admits) {b : Byte} (above : 8 ≤ b.toNat) :
    exec (.segmentStatus .enough b) s = .next (s.answered .badParam) := by
  rw [exec_of_admits h (after_segmentStatus s .enough b), onSegment, idOf_of_le b above]
  rfl

theorem exec_readCalibration (h : s.admits) : exec .readCalibration s = .next (s.answered .ok
    (.calibration s.cal.state
      (match s.cal.state with
        | .idle => none
        | .settling => some (s.cal.counted - 1)
        | .measuring => some (max 1024 (s.cal.counted - 1)))
      s.cal.outcome s.cal.runLevel s.cal.channels s.cal.seed s.cal.tolerance s.cal.results)) := by
  rw [exec_of_admits h (after_readCalibration s), bodyReadCalibration]
  unfold Cal.isActive Cal.patternStep
  cases s.cal.state <;> rfl

/-- Settles O17. -/
theorem statusRequestsReturnStateAndChangeNone : Obligations.StatusRequestsReturnStateAndChangeNone := by
  refine ⟨fun s h => ⟨exec_frontEndRead h (id := .full) rfl,
    exec_frontEndRead h (id := .economy) rfl, fun b => exec_frontEndRead_refused h,
    ?lines, exec_tell h (after_levelStatus s), exec_readCalibration h, exec_tell h (after_poolStatus s), ?segment,
    fun b => exec_segmentStatus_refused h⟩, fun s h => ⟨?trigger, ?program, exec_tell h (after_displayStatus s)⟩,
    fun s h => ?identify⟩
  case lines => exact ⟨_, map_get _ _, exec_tell h (after_linesRead s)⟩
  case segment =>
    intro b id named
    exact ⟨_, _, exec_segmentStatus h named, fun none => if_pos (.inl none), fun none => if_pos none,
      Segment.recordFill_of_written, Segment.annotationFill_of_stored⟩
  case trigger => exact ⟨_, exec_tell h (after_triggerStatus s), mem_patternReport s.trg⟩
  case program => exact exec_of_admits h (after_triggerProgramRead s)
  case identify =>
    rw [exec_eq_after, after_identify, request_enough h true (.inl rfl)]
    rfl

end Sys2Proof.Machine
end

section
/-! PROOFS. RESET at every block (R184). -/

namespace Sys2Proof.Machine

variable {s : State}

/-- R184: RESET, block by block: nothing is staged, read or drawn after it, so an entry into self-refresh is made (R27). -/
theorem State.softReset_eq (s : State) : s.softReset =
    { pfe := s.pfe.softReset s.lvl.runAfterReset
      lvl := s.lvl.softReset
      cal := .reset
      cap := { s.cap.softReset with port := if s.cap.port = .entering then .selfRefresh else s.cap.port }
      dec := s.dec.softReset s.lvl.isSwitching
      trg := s.trg.softReset
      dsp := .reset
      cmd := s.cmd.softReset
      pending := s.pending } := by
  unfold State.softReset State.settlePort
  by_cases entering : s.cap.port = .entering
  · rw [if_pos ⟨entering, rfl, rfl, rfl, nofun⟩, if_pos entering]
    rfl
  · rw [if_neg fun h => entering h.1, if_neg entering]
    rfl

theorem Lvl.runAfterReset_of_steady {l : Lvl} (steady : l.transition = .steady) (awake : l.level ≠ .standby) :
    ∃ r, l.runAfterReset = some r ∧ r.firstStamp = 0 ∧ r.taken = 0 ∧ r.step = if l.level = .full then 1 else 4 := by
  refine ⟨⟨0, stepOf l.level, 0, 0⟩, if_neg ?_, rfl, rfl, ?_⟩
  · rintro (switching | rests)
    · unfold Lvl.isSwitching at switching
      rw [steady] at switching
      cases switching
    · exact awake rests
  · cases level : l.level
    · rfl
    · rfl
    · exact absurd level awake

/-- Settles O14: each block's value after RESET, read off `State.softReset_eq`. -/
theorem resetRequestKeepsAndClears : Obligations.ResetRequestKeepsAndClears := by
  intro s h
  refine ⟨_, exec_reset h, ?_⟩
  rw [State.softReset_eq]
  refine ⟨rfl, rfl, rfl, rfl, rfl, rfl, rfl, rfl, rfl, ?monitors, rfl, Lvl.runAfterReset_of_steady, ?noRun,
    rfl, rfl, rfl, rfl, rfl, rfl, replicate_get _, rfl, rfl, rfl, rfl, rfl, rfl, rfl, rfl,
    fun p _ => PageMap.get_empty p, replicate_get _, rfl, rfl, rfl, replicate_get _, rfl, rfl, rfl, rfl, ?gap, ?_⟩
  case monitors =>
    intro c
    have fresh := replicate_get Monitor.fresh c
    exact ⟨congrArg Monitor.edges fresh, congrArg Monitor.glitches fresh, congrArg Monitor.armed fresh,
      congrArg Monitor.activity fresh, congrArg Monitor.remembered fresh, congrArg Monitor.quietFrom fresh,
      congrArg Monitor.expiry fresh⟩
  case noRun => exact fun without => if_pos (without.imp_left (isSwitching_iff s).mpr)
  case gap =>
    show (s.dec.gap && s.lvl.isSwitching) = true ↔ _
    rw [Bool.and_eq_true, isSwitching_iff]
  exact ⟨rfl, rfl, rfl, rfl, rfl, rfl, rfl, rfl, rfl, rfl, rfl, rfl, rfl, rfl, replicate_get_get _, replicate_get _,
    rfl, rfl, rfl, rfl, rfl, rfl, rfl, rfl⟩

end Sys2Proof.Machine
end

section
/-! PROOFS. What every engine step keeps of its context: the ranges of the counters (R94), the period of an ASYNC engine in
its effective window (R103), and a powered-down flash target model at rest (R132 to R134). -/

namespace Sys2Proof.Machine

/-! ## The period of an ASYNC engine (R103) -/

/-- R103: a clamp reaches the effective window where the window holds some period. -/
theorem AsyncSettings.clampPeriod_effective {a : AsyncSettings} {level : Level} (ordered : a.lower ≤ a.upper)
    (decodes : level = .economy → 4096 ≤ a.upper) (p : Nat) : a.effective level (a.clampPeriod level p) := by
  unfold AsyncSettings.effective AsyncSettings.clampPeriod AsyncSettings.windowLow
  cases level with
  | economy =>
    have := decodes rfl
    simp only [Config.economyPeriodMin, forall_const]
    omega
  | full | standby =>
    simp only [reduceCtorEq, false_imp_iff, and_true]
    omega

theorem AsyncSettings.effective.clamp {a : AsyncSettings} {level : Level} {p : Nat} (h : a.effective level p) (q : Nat) :
    a.effective level (a.clampPeriod level q) :=
  a.clampPeriod_effective (Nat.le_trans h.1 h.2.1) (fun economy => Nat.le_trans (h.2.2 economy) h.2.1) q

section Async

variable {a : AsyncSettings} {level : Level} {e : AsyncEngine}

theorem AsyncEngine.expireIdle_period (e : AsyncEngine) (a : AsyncSettings) (id : CtxId) (stamp : Nat) :
    (e.expireIdle a id stamp).1.period = e.period := by
  unfold AsyncEngine.expireIdle
  repeat' split
  all_goals rfl

theorem AsyncEngine.verdict_period (e : AsyncEngine) (a : AsyncSettings) (good : Bool) :
    (e.verdict a good).1.period = e.period := by
  unfold AsyncEngine.verdict
  dsimp only
  repeat' split
  all_goals rfl

theorem AsyncEngine.acquireChange_effective (h : a.effective level e.period) (t : Nat) (mark : Bool) :
    a.effective level (e.acquireChange a level t mark).period := by
  unfold AsyncEngine.acquireChange
  extract_lets intervals
  split
  · exact h.clamp _
  · exact h

theorem AsyncEngine.trackEdge_effective (h : a.effective level e.period) (f : AsyncFrame) (t : Nat) :
    a.effective level (e.trackEdge a level f t).1.period := by
  unfold AsyncEngine.trackEdge
  dsimp only
  split
  · exact h
  · split
    · exact h
    · exact h.clamp _

theorem AsyncEngine.takeChange_effective (h : a.effective level e.period) (id : CtxId) (t : Nat) (mark : Bool) :
    a.effective level (e.takeChange a id level t mark).1.period := by
  unfold AsyncEngine.takeChange
  split
  · exact e.acquireChange_effective h t mark
  · split
    case h_3 =>
      split
      · exact AsyncEngine.trackEdge_effective h _ t
      · exact h
    all_goals
      repeat' split
      all_goals exact h

theorem AsyncEngine.takeChanges_effective (h : a.effective level e.period) (id : CtxId) (changes : List (Nat × Bool)) :
    a.effective level (e.takeChanges a id level changes).1.period := by
  induction changes generalizing e with
  | nil => exact h
  | cons change rest ih => exact ih (AsyncEngine.takeChange_effective h id change.1 change.2)

/-- R109, R117: after a verdict the later changes of the frame are taken, or the tracker is back in ACQUIRE. -/
theorem AsyncEngine.resume_effective (h : a.effective level e.period) (id : CtxId) (changes : List (Nat × Bool))
    (out out' : List Emission) : a.effective level
      (if e.tracker = .acquire then (e, out) else ((e.takeChanges a id level changes).1, out')).1.period := by
  split
  · exact h
  · exact AsyncEngine.takeChanges_effective h id changes

theorem AsyncEngine.falseStart_effective (h : a.effective level e.period) (id : CtxId) (f : AsyncFrame) :
    a.effective level (e.falseStart a id level f).1.period := by
  unfold AsyncEngine.falseStart
  dsimp only
  refine AsyncEngine.resume_effective ?_ id _ _ _
  rw [AsyncEngine.verdict_period]; exact h

theorem AsyncEngine.endFrame_effective (h : a.effective level e.period) (id : CtxId) (f : AsyncFrame) :
    a.effective level (e.endFrame a id level f).1.period := by
  unfold AsyncEngine.endFrame
  dsimp only
  split
  · exact AsyncEngine.takeChanges_effective (e := { e with phase := .breakWait, frame := some f }) h id _
  · refine AsyncEngine.resume_effective ?_ id _ _ _
    rw [AsyncEngine.verdict_period]; exact h

theorem AsyncEngine.nextBit_effective (h : a.effective level e.period) {id : CtxId} {step stamp : Nat}
    {next : AsyncEngine × List Emission} (due : e.nextBit a id level step stamp = some next) :
    a.effective level next.1.period := by
  unfold AsyncEngine.nextBit at due
  split at due
  · dsimp only at due
    split at due
    · split at due
      · cases due; exact AsyncEngine.falseStart_effective h id _
      · split at due
        · cases due; exact AsyncEngine.endFrame_effective h id _
        · cases due; exact h
    · cases due
  · cases due

theorem AsyncEngine.evaluateBits_effective (h : a.effective level e.period) (id : CtxId) (step stamp n : Nat) :
    a.effective level (AsyncEngine.evaluateBits a id level step stamp n e).1.period := by
  induction n generalizing e with
  | zero => exact h
  | succ n ih =>
    unfold AsyncEngine.evaluateBits
    split
    · exact h
    · rename_i due
      exact ih (AsyncEngine.nextBit_effective h due)

/-- R103: a sample leaves the period in the effective window. -/
theorem AsyncEngine.sample_effective (h : a.effective level e.period) (lanes : Lanes) (id : CtxId) (x : Reading) :
    a.effective level (e.sample a lanes id level x).1.period := by
  unfold AsyncEngine.sample
  dsimp only
  split
  · exact h
  · refine AsyncEngine.evaluateBits_effective ?_ id _ _ _
    have idle : a.effective level (e.expireIdle a id x.stamp).1.period := by
      rw [AsyncEngine.expireIdle_period]; exact h
    split
    · exact AsyncEngine.takeChange_effective idle id _ _
    · exact idle

end Async

/-! ## The flash target model (R132 to R134) -/

/-- A flash target model that is powered down is not busy and has no continuation armed. -/
def FlashModel.sound (m : FlashModel) : Prop := m.poweredDown = true → m.busy = false ∧ m.continuation = none

/-- R133, R134: what the model takes of a transfer, from a model that is powered up or meets a POWER_UP. -/
theorem FlashModel.classEffect_sound {m : FlashModel} (s : FlashSettings) (effect : EffectClass)
    (bytes : List (Byte × Nat)) (endTick : Nat) (rest : m.busy = false ∨ effect = .statusRead)
    (up : m.poweredDown = false ∨ effect = .powerUp) : (m.classEffect s effect bytes endTick).model.sound := by
  have status (m : FlashModel) (duration : Option Nat) :
      (m.statusRead s bytes duration).1.poweredDown = m.poweredDown := by
    induction bytes generalizing m duration with
    | nil => rfl
    | cons b bs ih => exact ih _ _
  unfold FlashModel.classEffect FlashModel.sound
  cases effect
  case statusRead =>
    intro down
    rw [show _ = m.poweredDown from status m none] at down
    simp [down] at up
  case powerDown =>
    intro _
    exact ⟨rest.resolve_right nofun, rfl⟩
  case powerUp => exact nofun
  all_goals
    have awake := up.resolve_right nofun
    dsimp only
    repeat' split
    all_goals
      intro down
      exact absurd (down.symm.trans awake) nofun

theorem FlashModel.submit_sound {m : FlashModel} (h : m.sound) (s : FlashSettings) (t : Transfer) (endTick : Nat) :
    (m.submit s t endTick).model.sound := by
  have verdict_fields (d : Descriptor) : (m.modeVerdict d t.modeByte).busy = m.busy
      ∧ (m.modeVerdict d t.modeByte).poweredDown = m.poweredDown := by
    unfold FlashModel.modeVerdict
    split <;> exact ⟨rfl, rfl⟩
  unfold FlashModel.submit
  split
  · exact h
  · rename_i taken
    split
    · exact h
    · rename_i d named
      split
      · exact h
      · rename_i free
        obtain ⟨busy, poweredDown⟩ := verdict_fields d
        refine FlashModel.classEffect_sound s d.effect _ endTick ?_ ?_
        · rw [busy]
          grind
        · rw [poweredDown]
          simp only [named, Option.map_some, ne_eq, Option.some.injEq] at taken
          grind

theorem FlashModel.apply_sound {m : FlashModel} (h : m.sound) (s : FlashSettings) (t : Transfer) (endTick : Nat) :
    (m.apply s t endTick).model.sound := by
  unfold FlashModel.apply
  split
  · exact FlashModel.submit_sound h s t endTick
  · exact fun down => ⟨(h down).1, rfl⟩
  · exact h

/-- R133, R134: a sample leaves a powered-down model at rest. -/
theorem FlashEngine.sample_sound {e : FlashEngine} (h : e.model.sound) (s : FlashSettings) (lanes : Lanes)
    (set : List Descriptor) (id : CtxId) (x : Reading) : (e.sample s lanes set id x).1.model.sound := by
  unfold FlashEngine.sample
  dsimp only
  split
  · exact h
  · split
    · exact h
    · split
      · unfold FlashEngine.deassert
        repeat' split
        · exact h
        · exact FlashModel.apply_sound h s _ _
        · exact h
        · exact h
      · split
        · unfold FlashEngine.takeClock
          repeat' split
          all_goals exact h
        · exact h

/-! ## What a change of a context keeps -/

/-- R101: the bounds of a period window. -/
def Context.windowSound (c : Context) : Prop :=
  1024 ≤ c.asyncSettings.lower ∧ c.asyncSettings.lower ≤ c.asyncSettings.upper
    ∧ c.asyncSettings.upper ≤ 268435455

/-- R103: the period lies in its effective window for a level while it counts. -/
def Context.periodSound (c : Context) (level : Level) : Prop :=
  c.protocol = some .async → c.state = .running ∨ c.state = .suspended .calibration →
    c.asyncSettings.effective level c.asyncEngine.period

/-- Context `d` keeps what every change of a context `c` keeps, at a decode level and with CAL active or not. -/
structure Context.Keeps (level : Level) (calibrates : Prop) (c d : Context) : Prop where
  range : c.inRange → d.inRange
  model : c.flashEngine.model.sound → d.flashEngine.model.sound
  window : c.windowSound → d.windowSound
  period : c.windowSound → c.periodSound level → d.periodSound level
  suspended : d.state = .suspended .calibration → c.state = .suspended .calibration ∨ calibrates

section Keeps

variable {level : Level} {calibrates : Prop} {c d : Context}

theorem Context.Keeps.refl (c : Context) : c.Keeps level calibrates c := ⟨id, id, id, fun _ => id, .inl⟩

theorem Context.Keeps.trans {b : Context} (first : b.Keeps level calibrates c) (second : c.Keeps level calibrates d) :
    b.Keeps level calibrates d where
  range h := second.range (first.range h)
  model h := second.model (first.model h)
  window h := second.window (first.window h)
  period w h := second.period (first.window w) (first.period w h)
  suspended h := (second.suspended h).elim first.suspended .inr

/-- A change that leaves the settings, the states and the counters' ranges alone, and keeps model and period. -/
theorem Context.Keeps.of_engines (range : c.inRange → d.inRange)
    (model : c.flashEngine.model.sound → d.flashEngine.model.sound) (settings : d.asyncSettings = c.asyncSettings)
    (protocol : d.protocol = c.protocol) (state : d.state = c.state)
    (period : c.asyncSettings.effective level c.asyncEngine.period →
      c.asyncSettings.effective level d.asyncEngine.period) : c.Keeps level calibrates d where
  range := range
  model := model
  window := by unfold Context.windowSound; rw [settings]; exact id
  period _ h := by
    unfold Context.periodSound
    rw [settings, protocol, state]
    exact fun isAsync counts => period (h isAsync counts)
  suspended h := .inl (state ▸ h)

/-- R83: the engine of a context reads a sample. -/
theorem Context.engineSample_keeps (c : Context) (dec : Dec) (ctx : CtxId) (x : Reading) :
    c.Keeps dec.level calibrates (c.engineSample dec ctx x).1 := by
  unfold Context.engineSample
  split
  · exact .of_engines id id rfl rfl rfl fun h => AsyncEngine.sample_effective h _ _ _
  · exact .of_engines id id rfl rfl rfl id
  · exact .of_engines id (fun h => FlashEngine.sample_sound h _ _ _ _ _) rfl rfl rfl id
  · exact .of_engines id id rfl rfl rfl id
  · exact .refl c

theorem bump_le (cap n : Nat) : bump cap n ≤ cap := Nat.min_le_right _ _

theorem clamp_le {lo hi n : Nat} : clamp lo hi n ≤ hi := Nat.min_le_right _ _

theorem le_clamp {lo hi n : Nat} (h : lo ≤ hi) : lo ≤ clamp lo hi n :=
  Nat.le_min.mpr ⟨Nat.le_max_right _ _, h⟩

theorem Context.checkErrors_keeps (c : Context) : c.Keeps level calibrates c.checkErrors.1 := by
  rw [Context.checkErrors_eq]
  exact .of_engines id id rfl rfl rfl id

/-- R94: a counted record. -/
theorem Context.count_keeps (c : Context) (r : Record) : c.Keeps level calibrates (c.count r).1 := by
  unfold Context.count
  split
  · have counted : c.Keeps level calibrates { c with errors := bump 65535 c.errors } :=
      .of_engines (fun ⟨good, _, rest⟩ => ⟨good, bump_le _ _, rest⟩) id rfl rfl rfl id
    exact counted.trans (Context.checkErrors_keeps _)
  · exact .of_engines (fun ⟨_, rest⟩ => ⟨bump_le _ _, rest⟩) id rfl rfl rfl id

/-- R91, R93, R94: one emission. -/
theorem Emitted.add_keeps (o : Emitted) (e : Emission) : o.context.Keeps level calibrates (o.add e).context := by
  unfold Emitted.add
  split
  · have carried : o.context.Keeps level calibrates { o.context with afterGap := false } :=
      .of_engines id id rfl rfl rfl id
    exact carried.trans (Context.count_keeps _ _)
  · exact .of_engines (fun ⟨good, errors, _, rest⟩ => ⟨good, errors, bump_le _ _, rest⟩) id rfl rfl rfl id
  · exact .refl _

theorem foldl_add_keeps (out : List Emission) (o : Emitted) :
    o.context.Keeps level calibrates (out.foldl Emitted.add o).context := by
  induction out generalizing o with
  | nil => exact .refl _
  | cons e out ih => exact (Emitted.add_keeps o e).trans (ih _)

theorem Context.emit_keeps (c : Context) (out : List Emission) : c.Keeps level calibrates (c.emit out).context :=
  foldl_add_keeps out { context := c }

/-- R83: a context at a conditioned sample. -/
theorem Context.read_keeps (c : Context) (dec : Dec) (ctx : CtxId) (x : Conditioned) (step : Nat) :
    c.Keeps dec.level calibrates (c.read dec ctx x step).context := by
  unfold Context.read
  split
  · exact (Context.engineSample_keeps c dec ctx _).trans (Context.emit_keeps _ _)
  · exact .refl c

/-- R87, R90: the partial unit discarded. -/
theorem Context.gap_keeps (c : Context) : c.Keeps level calibrates c.gap := by
  unfold Context.gap
  split <;> exact .of_engines id id rfl rfl rfl id

theorem Context.gapBegin_keeps (c : Context) : c.Keeps level calibrates c.gapBegin := by
  unfold Context.gapBegin
  split
  · exact c.gap_keeps.trans (.of_engines id id rfl rfl rfl id)
  · exact .refl c

end Keeps

end Sys2Proof.Machine
end

section
/-! PROOFS. The changes that the commands are made of. `Change` lists them once, each with what is known where a command
makes it; every command is a chain of them (`after_settles`), so an invariant that each change keeps is kept by every step
(`step_keeps`). -/

namespace Sys2Proof.Machine

/-- The decoded-record queue, its lost span and its threshold within their ranges (R96, R97, R99). -/
def Dec.queueSound (d : Dec) : Prop :=
  d.queue.length ≤ Config.queueDepth ∧ (d.lost = 0 ↔ d.span = none) ∧ 1 ≤ d.threshold
    ∧ d.threshold ≤ Config.queueDepth

/-- R25: a level request waits for a capture or a transition alone. -/
def State.requestWaits (s : State) : Prop := s.lvl.request ≠ none → (∃ i, s.captures i) ∨ s.switches

/-- One change that a command makes, from a state to the next, and that ends no capture. -/
inductive Change : State → State → Prop
  /-- The frame, the held read, the response or the mask. -/
  | cmd {s : State} (x : Cmd) (pending : x.pending = s.cmd.pending)
      (lock : x.lockChange = s.cmd.lockChange) (error : x.errorThreshold = s.cmd.errorThreshold)
      (glitch : x.glitch = s.cmd.glitch) (activity : x.activity = s.cmd.activity) : Change s (s.setCmd x)
  | emptied {s : State} : Change s (s.setCmd s.cmd.emptied)
  /-- A notice without a detail set. -/
  | raise {s : State} (n : Notice) (plain : n.index < 7 ∨ 10 < n.index) : Change s (s.raise n)
  | raiseGlitch {s : State} (channels : Lines) : Change s (s.raiseGlitch channels)
  | raiseActivity {s : State} (channels : Lines) : Change s (s.raiseActivity channels)
  | raiseLock {s : State} (contexts : BitVec 16) : Change s (s.raiseLock contexts)
  | raiseError {s : State} (contexts : BitVec 16) : Change s (s.raiseError contexts)
  | pfe {s : State} (x : Pfe) (range : s.pfe.inRange → x.inRange) : Change s (s.setPfe x)
  | count {s : State} (n : Nat) (exhausted : Bool)
      (range : s.lvl.count ≤ Config.tickMax → n ≤ Config.tickMax) :
      Change s (s.setLvl { s.lvl with count := n, exhausted })
  | request {s : State} (r : Option Level) (waits : r ≠ none → (∃ i, s.captures i) ∨ s.switches) :
      Change s (s.setLvl { s.lvl with request := r })
  /-- A transition begins, with no capture and no calibration run, or in place of the one that completes. -/
  | switching {s : State} (x : Lvl) (target : Level) (switches : x.transition = .switching target)
      (count : x.count = s.lvl.count)
      (free : s.switches ∨ (s.noCapture ∧ (¬ s.calibrates ∨ s.lvl.request ≠ none))) : Change s (s.setLvl x)
  | settled {s : State} (level : Level) (switches : s.switches) (noRequest : s.lvl.request = none) :
      Change s (s.setLvl { s.lvl with level, transition := .steady })
  | gapEnd {s : State} (level : Level) (switches : s.switches) : Change s (s.gapEnd level)
  | cal {s : State} (x : Cal) (range : s.cal.inRange → x.inRange)
      (active : x.state = .idle ↔ s.cal.state = .idle) : Change s (s.setCal x)
  | endCalibration {s : State} (outcome : CalOutcome) : Change s (s.endCalibration outcome)
  | dec {s : State} (x : Dec) (level : x.level = s.dec.level)
      (contexts : ∀ i : CtxId, s.dec.contexts[i].Keeps s.dec.level s.calibrates x.contexts[i])
      (queue : s.dec.queueSound → x.queueSound) : Change s (s.setDec x)
  | trg {s : State} (x : Trg) (state : x.state = s.trg.state)
      (sound : s.triggerSound → (s.setTrg x).triggerSound) : Change s (s.setTrg x)
  | evaluate {s : State} (matched : UnitId → Bool) (tick : Nat) : Change s (s.evaluate matched tick)
  | dsp {s : State} (x : Dsp) (rows : s.dsp.staged.rows.length ≤ 12 → x.staged.rows.length ≤ 12) :
      Change s (s.setDsp x)
  /-- The read in flight, the condition of the DRAM, the fires on their way. -/
  | capRest {s : State} (read : Option ReadInFlight) (port : PortState) (fires : List Fire) :
      Change s (s.setCap { s.cap with read, port, fires })
  | poolThreshold {s : State} (n : Nat) :
      Change s ((s.setCap { s.cap with poolThreshold := min n Config.pageCount }).checkPool)
  | prepare {s : State} (id : SegId) (mask : Lines) (budget : Nat) (target : BitVec 32)
      (limit annotationBudget : Nat) (unused : (s.segment id).state = .vacant ∨ (s.segment id).state = .primed) :
      Change s (s.setSegment id (preparedSegment mask budget target limit annotationBudget))
  /-- A segment's pins, its retire-pending flag or its counts, or its retiring when it is sealed and drained. -/
  | segment {s : State} (id : SegId) (g : Segment) (records : g.records = (s.segment id).records)
      (annotations : g.annotations = (s.segment id).annotations)
      (drains : g.drainPending = (s.segment id).drainPending)
      (state : g.state = (s.segment id).state
        ∨ (g.state = .retiring ∧ (s.segment id).state = .sealed ∧ (s.segment id).drainPending = false)) :
      Change s (s.setSegment id g)
  | retireNow {s : State} (id : SegId) (unread : (s.segment id).state = .primed
      ∨ (s.segment id).state = .retiring ∨ ((s.segment id).state = .sealed ∧ (s.segment id).drainPending = false)) :
      Change s (s.retireNow id)
  | startCapture {s : State} (id : SegId) (free : s.startRefusal id = none) :
      Change s (s.startCapture id)
  | writeAnnotation {s : State} (id : SegId) (r : Record) (captures : s.captures id) :
      Change s (s.writeAnnotation id r)
  | drain {s : State} (staged : ¬ s.nothingStaged) : Change s s.drain
  | softReset {s : State} : Change s s.softReset
  | powerOn {s : State} : Change s (State.reset.setPending s.pending)

/-- One change that may end a capture. -/
inductive Ending : State → State → Prop
  | sealSegment {s : State} (id : SegId) (reason : SealReason) (captures : s.captures id) :
      Ending s (s.sealSegment id reason)
  | abortVacated {s : State} (id : SegId) (captures : s.captures id) :
      Ending s (((s.discardStaged id).setTrg s.trg.halt).vacate id)
  | abortPinned {s : State} (id : SegId) (captures : s.captures id) :
      Ending s (((s.discardStaged id).setTrg s.trg.halt).setSegment id
        { (s.discardStaged id).segment id with state := .retiring, retirePending := true })
  | encodeSample {s : State} (stamp : Nat) (lines : Lines) : Ending s (s.encodeSample stamp lines)
  | takeFire {s : State} (index : Nat) : Ending s (s.takeFire index)

/-- A chain of changes that ends no capture. -/
abbrev Quiet : State → State → Prop := Relation.ReflTransGen Change

/-- A chain of changes. -/
abbrev Changes : State → State → Prop := Relation.ReflTransGen fun s t => Change s t ∨ Ending s t

/-- What a command comes to: a chain that may end a capture, left with no request waiting for nothing (R25), and then one
that ends none. -/
def Settles (s t : State) : Prop := ∃ u, (u = s ∨ (Changes s u ∧ u.requestWaits)) ∧ Quiet u t

/-- Every command settles, or is an accepted CALIBRATE. -/
def Runs (s t : State) : Prop :=
  Settles s t ∨ ∃ (channels : Lines) (seed tolerance : Nat), s.calibrateRefusal = none
    ∧ Quiet (s.acceptCalibrate channels seed tolerance) t

theorem Quiet.changes {s t : State} (h : Quiet s t) : Changes s t := by
  induction h with
  | refl => exact .refl
  | tail _ last ih => exact ih.tail (.inl last)

theorem Change.quiet {s t : State} (h : Change s t) : Quiet s t := .single h

theorem Change.changes {s t : State} (h : Change s t) : Changes s t := .single (.inl h)

theorem Ending.changes {s t : State} (h : Ending s t) : Changes s t := .single (.inr h)

theorem Quiet.settles {s t : State} (h : Quiet s t) : Settles s t := ⟨s, .inl rfl, h⟩

theorem Changes.settles {s t : State} (h : Changes s t) (waits : t.requestWaits) : Settles s t :=
  ⟨t, .inr ⟨h, waits⟩, .refl⟩

theorem Settles.changes {s t : State} (h : Settles s t) : Changes s t := by
  obtain ⟨u, rfl | ⟨ended, -⟩, quiet⟩ := h
  · exact quiet.changes
  · exact ended.trans quiet.changes

theorem Settles.andThen {s t v : State} (h : Settles s t) (q : Quiet t v) : Settles s v :=
  let ⟨u, start, quiet⟩ := h
  ⟨u, start, quiet.trans q⟩

theorem Settles.trans {s t v : State} (first : Settles s t) (second : Settles t v) : Settles s v := by
  obtain ⟨u, rfl | ⟨ended, waits⟩, quiet⟩ := second
  · exact first.andThen quiet
  · exact ⟨u, .inr ⟨first.changes.trans ended, waits⟩, quiet⟩

end Sys2Proof.Machine
end

section
/-! PROOFS. The chain of changes that each operation of the model is. -/

namespace Sys2Proof.Machine

variable (s : State)

/-! ## Ranges that the front end keeps (R13 to R15, Table 1-4) -/

/-- A monitor's counters within 16 bits (R13). -/
def Monitor.inRange (m : Monitor) : Prop := m.edges ≤ 65535 ∧ m.glitches ≤ 65535

theorem Monitor.sample_inRange {m : Monitor} (h : m.inRange) (first : Bool) (span stamp : Nat) (changed : Bool) :
    (m.sample first span stamp changed).inRange := by
  have change {m : Monitor} (h : m.inRange) : (m.change span stamp).inRange := by
    unfold Monitor.change
    dsimp only
    repeat' split
    all_goals exact ⟨bump_le _ _, h.2⟩
  unfold Monitor.sample
  extract_lets m'
  have kept : m'.inRange := by
    dsimp only [m']
    split <;> exact h
  split
  · exact change kept
  · exact kept

theorem Monitor.bumped_inRange {m : Monitor} (h : m.inRange) :
    ({ m with glitches := bump 65535 m.glitches } : Monitor).inRange := ⟨h.1, bump_le _ _⟩

theorem Monitor.checkGlitch_inRange {m : Monitor} (h : m.inRange) (threshold : Nat) :
    (m.checkGlitch threshold).1.inRange := by
  rw [Monitor.checkGlitch_eq]
  exact h

theorem Pfe.inRange.of_monitors {p q : Pfe} (h : p.inRange) (full : q.full = p.full) (economy : q.economy = p.economy)
    (glitch : q.glitchThreshold = p.glitchThreshold) (quiet : q.quietTime = p.quietTime)
    (kept : ∀ c : Chan, p.monitors[c].inRange → q.monitors[c].inRange) : q.inRange := by
  obtain ⟨hfull, heconomy, hglitch, hquiet, monitors⟩ := h
  exact ⟨full ▸ hfull, economy ▸ heconomy, glitch ▸ hglitch, quiet ▸ hquiet, fun c => kept c (monitors c)⟩

theorem Pfe.setFrontEnd_inRange {p : Pfe} (h : p.inRange) (id : FrontEndId) {f : FrontEnd}
    (kept : (p.frontEnd id).inRange → f.inRange) : (p.setFrontEnd id f).inRange := by
  obtain ⟨full, economy, rest⟩ := h
  cases id
  · exact ⟨kept full, economy, rest⟩
  · exact ⟨full, kept economy, rest⟩

/-! ## The command port -/

theorem respond_change (r : Response) : Change s (s.respond r) := .cmd _ rfl rfl rfl rfl rfl

theorem endFrame_quiet : Quiet s s.endFrame :=
  .tail (.single (.cmd { s.cmd with frame := .idle, response := none, held := none } rfl rfl rfl rfl rfl))
    (.capRest _ _ _)

variable {s}

/-- A request is the chain of its body and the response. -/
theorem request_settles (a : Bool) (f : Fit) (b : State → State × Response) (h : Settles s (b s).1) :
    Settles s (request a f b s) := by
  rcases request_cases a f b s with e | e | e | ⟨-, e⟩ <;> rw [e]
  · exact Quiet.settles .refl
  · exact (respond_change s ⟨.level, .none⟩).quiet.settles
  · exact (respond_change s ⟨.badParam, .none⟩).quiet.settles
  · exact h.andThen (respond_change _ _).quiet

/-- A request whose body changes nothing. -/
theorem request_settles_of_eq (a : Bool) (f : Fit) (b : State → State × Response) (h : (b s).1 = s) :
    Settles s (request a f b s) := request_settles a f b (by rw [h]; exact Quiet.settles .refl)

theorem onSegment_settles (b : Byte) (body : SegId → State → State × Response) (h : ∀ i, Settles s (body i s).1) :
    Settles s (onSegment b body s).1 := by
  unfold onSegment
  split
  · exact h _
  · exact Quiet.settles .refl

theorem onContext_settles (b : Byte) (body : CtxId → State → State × Response) (h : ∀ i, Settles s (body i s).1) :
    Settles s (onContext b body s).1 := by
  unfold onContext
  split
  · exact h _
  · exact Quiet.settles .refl

theorem onOpenContext_settles (b : Byte) (body : CtxId → State → State × Response)
    (h : ∀ i, Settles s (body i s).1) : Settles s (onOpenContext b body s).1 := by
  unfold onOpenContext
  refine onContext_settles b _ fun i => ?_
  split
  · exact Quiet.settles .refl
  · exact h i

/-! ## The front end -/

theorem countGlitches_quiet (suppressed : Lines) : Quiet s (s.countGlitches suppressed) := by
  refine .tail ?_ (.raiseGlitch _)
  refine .single (.pfe _ fun h => h.of_monitors rfl rfl rfl rfl fun c kept => ?_)
  simp only [map_get, mapIds_get]
  split
  · exact Monitor.checkGlitch_inRange (Monitor.bumped_inRange kept) _
  · exact kept

theorem setGlitchThreshold_quiet (threshold : Nat) : Quiet s (s.setGlitchThreshold threshold) := by
  refine .tail ?_ (.raiseGlitch _)
  refine .single (.pfe _ fun ⟨full, economy, _, quiet, monitors⟩ => ⟨full, economy, ?_, quiet, fun c => ?_⟩)
  · exact ⟨le_clamp (by decide), clamp_le⟩
  · simp only [map_get]
    exact Monitor.checkGlitch_inRange (monitors c) _

theorem setQuietTime_change (quiet : Nat) : Change s (s.setQuietTime quiet) := by
  refine .pfe _ fun ⟨full, economy, glitch, _, monitors⟩ => ⟨full, economy, glitch, ?_, fun c => ?_⟩
  · exact ⟨le_clamp (by decide), clamp_le⟩
  · simp only [map_get]
    exact monitors c

theorem bodyMonitorSet_quiet (writeThreshold : Bool) (threshold : Nat) (writeQuiet : Bool) (quiet : Nat) :
    Quiet s (bodyMonitorSet writeThreshold threshold writeQuiet quiet s).1 := by
  unfold bodyMonitorSet
  extract_lets t
  have first : Quiet s t := by
    dsimp only [t]
    split
    · exact setGlitchThreshold_quiet threshold
    · exact .refl
  split
  · exact first.tail (setQuietTime_change quiet)
  · exact first

theorem Monitor.cleared_inRange (m : Monitor) : m.cleared.inRange := ⟨Nat.zero_le _, Nat.zero_le _⟩

theorem bodyMonitorRead_change (channels : Lines) : Change s (bodyMonitorRead channels s).1 := by
  unfold bodyMonitorRead
  refine .pfe _ fun h => h.of_monitors rfl rfl rfl rfl fun c kept => ?_
  simp only [mapIds_get]
  split
  · exact s.pfe.monitors[c].cleared_inRange
  · exact kept

theorem clampOffset_mem (o : Int) : -8 ≤ clampOffset o ∧ clampOffset o ≤ 7 := by
  unfold clampOffset
  omega

theorem FrontEnd.setOffsets_widths (f : FrontEnd) (channels : Lines) (offset : Int) :
    (f.setOffsets channels offset).widths = f.widths := by
  simp only [FrontEnd.setOffsets]

theorem FrontEnd.setOffsets_get (f : FrontEnd) (channels : Lines) (offset : Int) (c : Chan) :
    (f.setOffsets channels offset).offsets[c] = if inSet channels c.val then clampOffset offset else f.offsets[c] :=
  mapIds_get f.offsets (fun c o => if inSet channels c.val then clampOffset offset else o) c

theorem FrontEnd.setWidths_offsets (f : FrontEnd) (pods : Byte) (width : Nat) :
    (f.setWidths pods width).offsets = f.offsets := by
  simp only [FrontEnd.setWidths]

theorem FrontEnd.setWidths_get (f : FrontEnd) (pods : Byte) (width : Nat) (p : Pod) :
    (f.setWidths pods width).widths[p] = if inSet pods p.val then clampWidth width else f.widths[p] :=
  mapIds_get f.widths (fun p w => if inSet pods p.val then clampWidth width else w) p

theorem setOffsets_inRange {f : FrontEnd} (h : f.inRange) (channels : Lines) (offset : Int) :
    (f.setOffsets channels offset).inRange := by
  obtain ⟨offsets, widths⟩ := h
  refine ⟨fun c => ?_, by rw [f.setOffsets_widths]; exact widths⟩
  rw [FrontEnd.setOffsets_get]
  split
  · exact clampOffset_mem offset
  · exact offsets c

theorem setWidths_inRange {f : FrontEnd} (h : f.inRange) (pods : Byte) (width : Nat) :
    (f.setWidths pods width).inRange := by
  obtain ⟨offsets, widths⟩ := h
  refine ⟨by rw [f.setWidths_offsets]; exact offsets, fun p => ?_⟩
  rw [FrontEnd.setWidths_get]
  split
  · exact Nat.min_le_right _ _
  · exact widths p

theorem writeFrontEnd_quiet (level : Byte) {f : FrontEnd → FrontEnd} (kept : ∀ x, x.inRange → (f x).inRange) :
    Quiet s (writeFrontEnd level f s).1 := by
  unfold writeFrontEnd
  split
  · exact .refl
  · split
    · exact .refl
    · exact .single (.pfe _ fun h => Pfe.setFrontEnd_inRange h _ (kept _))

theorem bodyThresholdSet_quiet (pod code : Byte) : Quiet s (bodyThresholdSet pod code s).1 := by
  unfold bodyThresholdSet
  split
  · exact .single (.pfe _ fun h => h)
  · exact .refl

theorem quietExpiry_quiet (c : Chan) : Quiet s (s.quietExpiry c) := by
  unfold State.quietExpiry
  split
  · split
    · refine .tail ?_ (.raiseActivity _)
      refine .single (.pfe _ fun h => h.of_monitors rfl rfl rfl rfl fun j kept => ?_)
      rw [modifyId_get]
      split
      · subst_vars; exact kept
      · exact kept
    · exact .refl
  · exact .refl

theorem monitorSample_quiet (x : Conditioned) : Quiet s (s.monitorSample x).1 := by
  refine .tail ?_ (.raiseActivity _)
  refine .single (.pfe _ fun h => h.of_monitors rfl rfl rfl rfl fun c kept => ?_)
  rw [mapIds_get]
  exact Monitor.sample_inRange kept _ _ _ _

/-! ## The decode controller -/

theorem setContext_change (id : CtxId) {c : Context}
    (keeps : (s.context id).Keeps s.dec.level s.calibrates c) : Change s (s.setContext id c) := by
  refine .dec _ rfl (fun i => ?_) fun h => h
  rw [set_get]
  split
  · subst_vars; exact keeps
  · exact .refl _

theorem enterPath_quiet (records : List Record) : Quiet s (s.enterPath records) := by
  unfold State.enterPath
  split
  · exact .refl
  · exact .single (.dec _ rfl (fun _ => .refl _) fun h => h)

theorem applyEmitted_quiet (out : Vector Emitted 16)
    (keeps : ∀ i : CtxId, s.dec.contexts[i].Keeps s.dec.level s.calibrates out[i].context) :
    Quiet s (s.applyEmitted out) := by
  have contexts : Change s (s.setDec { s.dec with contexts := out.map (·.context) }) := by
    refine .dec _ rfl (fun i => ?_) fun h => h
    rw [map_get]
    exact keeps i
  exact ((contexts.quiet.tail (.raiseLock _)).tail (.raiseError _)).trans (enterPath_quiet _)

theorem decodeSample_quiet (x : Conditioned) (step : Nat) : Quiet s (s.decodeSample x step) := by
  refine applyEmitted_quiet _ fun i => ?_
  rw [mapIds_get]
  exact Context.read_keeps _ _ _ _ _

theorem checkQueue_quiet : Quiet s s.checkQueue := by
  unfold State.checkQueue
  split
  · exact .single (.dec _ rfl (fun _ => .refl _) fun h => h)
  · split
    · refine .tail ?_ (.raise .queueLevel (.inl (by decide)))
      exact .single (.dec _ rfl (fun _ => .refl _) fun h => h)
    · exact .refl

theorem queuePush_quiet (r : Record) (room : s.dec.queue.length < Config.queueDepth) : Quiet s (s.queuePush r) := by
  refine .trans ?_ checkQueue_quiet
  refine .single (.dec _ rfl (fun _ => .refl _) fun ⟨_, rest⟩ => ⟨?_, rest⟩)
  rw [List.length_append]
  exact room

theorem offerQueue_quiet (r : Record) : Quiet s (s.offerQueue r) := by
  unfold State.offerQueue
  split
  · split
    · exact queuePush_quiet r ‹_›
    · refine .tail ?_ (.raise .queueClosed (.inl (by decide)))
      refine .single (.dec _ rfl (fun _ => .refl _) fun ⟨queue, _, rest⟩ => ⟨queue, ?_, rest⟩)
      simp
  · refine .single (.dec _ rfl (fun _ => .refl _) fun ⟨queue, _, rest⟩ => ⟨queue, ?_, rest⟩)
    simp only [bump32, bump, reduceCtorEq, iff_false]
    omega

theorem dequeue_change (n : Nat) : Change s (s.dequeue n) := by
  refine .dec _ rfl (fun _ => .refl _) fun ⟨queue, rest⟩ => ⟨?_, rest⟩
  rw [List.length_drop]
  omega

theorem acknowledgeGap_quiet (room : s.dec.queue.length < Config.queueDepth) : Quiet s s.acknowledgeGap := by
  refine .tail (queuePush_quiet _ room) (.dec _ rfl (fun _ => .refl _) fun ⟨queue, _, rest⟩ => ⟨queue, ?_, rest⟩)
  exact ⟨fun _ => rfl, fun _ => rfl⟩

theorem gapBegin_change : Change s s.gapBegin := by
  refine .dec _ rfl (fun i => ?_) fun h => h
  rw [map_get]
  exact Context.gapBegin_keeps _

theorem expireContext_quiet (id : CtxId) (protocol : Protocol) (expire : Context → Nat → Context × List Emission)
    (keeps : ∀ c stamp, Context.Keeps s.dec.level s.calibrates c (expire c stamp).1) :
    Quiet s (s.expireContext id protocol expire) := by
  unfold State.expireContext
  split
  · exact .refl
  · dsimp only
    split
    · refine .trans ?_ (enterPath_quiet _)
      have read (stamp : Nat) (out : List Emission) : Change s
          (s.setContext id (((expire (s.context id) stamp).1).emit out).context) :=
        setContext_change id ((keeps (s.context id) stamp).trans (Context.emit_keeps _ _))
      split
      · exact (read _ _).quiet.tail (.raiseError _)
      · exact (read _ _).quiet
    · exact .refl

/-! ## Requests on contexts -/

/-- A context that leaves RUNNING and SUSPENDED, or never was in them, with its ranges kept. -/
theorem Context.Keeps.of_stopped {level : Level} {calibrates : Prop} {c d : Context} (range : c.inRange → d.inRange)
    (model : c.flashEngine.model.sound → d.flashEngine.model.sound) (window : c.windowSound → d.windowSound)
    (stopped : d.state = .idle ∨ d.state = .free) : c.Keeps level calibrates d where
  range := range
  model := model
  window := window
  period _ _ _ counts := by rcases stopped with e | e <;> rw [e] at counts <;> simp at counts
  suspended h := by rcases stopped with e | e <;> rw [e] at h <;> cases h

theorem context_default_inRange (state : CtxState) : ({ state } : Context).inRange :=
  ⟨Nat.zero_le _, Nat.zero_le _, Nat.zero_le _, Nat.le_of_ble_eq_true rfl, Nat.le_of_ble_eq_true rfl⟩

theorem bodyContextOpen_quiet (id : CtxId) : Quiet s (bodyContextOpen id s).1 := by
  unfold bodyContextOpen
  split
  · exact .single (setContext_change id (.of_stopped (fun _ => context_default_inRange _) (fun _ => nofun)
      (fun _ => by unfold Context.windowSound; decide) (.inl rfl)))
  · exact .refl

theorem bodyContextClose_quiet (id : CtxId) : Quiet s (bodyContextClose id s).1 := by
  unfold bodyContextClose
  split
  · exact .single (setContext_change id (.of_stopped (fun _ => context_default_inRange _) (fun _ => nofun)
      (fun _ => by unfold Context.windowSound; decide) (.inr rfl)))
  · exact .refl

/-- R101: accepted ASYNC settings have a window within its bounds. -/
theorem acceptAsync_window {p : AsyncParams} {a : AsyncSettings} (h : acceptAsync p = some a) :
    1024 ≤ a.lower ∧ a.lower ≤ a.upper ∧ a.upper ≤ 268435455 := by
  unfold acceptAsync at h
  simp only [Option.bind_eq_bind, Option.bind_eq_some_iff] at h
  obtain ⟨_, -, _, -, _, -, h⟩ := h
  split at h
  · cases h
  · rename_i ordered
    split at h
    all_goals
      split at h <;> cases h
      exact ⟨le_clamp (by decide), Nat.not_lt.mp ordered, clamp_le⟩

theorem acceptProtocol_window {p : ProtocolParams} {k : Configured} (h : acceptProtocol p = some k)
    {a : AsyncSettings} (settings : k.async = some a) : 1024 ≤ a.lower ∧ a.lower ≤ a.upper ∧ a.upper ≤ 268435455 := by
  unfold acceptProtocol at h
  split at h
  case h_1 =>
    simp only [Option.bind_eq_bind, Option.bind_eq_some_iff] at h
    obtain ⟨_, -, b, accepted, h⟩ := h
    cases h
    cases settings
    exact acceptAsync_window accepted
  case h_5 => cases h
  all_goals
    simp only [Option.bind_eq_bind, Option.bind_eq_some_iff] at h
    grind

theorem bodyContextConfigure_quiet (p : ConfigureParams) (id : CtxId) : Quiet s (bodyContextConfigure p id s).1 := by
  unfold bodyContextConfigure
  split
  · exact .refl
  · rename_i idle
    split
    · exact .refl
    · rename_i k accepted
      have configured : (s.context id).Keeps s.dec.level s.calibrates ((s.context id).configured k p) := by
        refine .of_stopped (fun ⟨good, errors, suppressed, _⟩ =>
          ⟨good, errors, suppressed, le_clamp (by decide), clamp_le⟩) (fun h => ?_) (fun h => ?_)
          (.inl (not_not.mp idle))
        · unfold Context.configured
          dsimp only
          split
          · exact nofun
          · exact h
        · unfold Context.configured Context.windowSound
          dsimp only
          cases settings : k.async with
          | none => exact h
          | some a => exact acceptProtocol_window accepted settings
      have taken := setContext_change id (configured.trans (Context.checkErrors_keeps _))
      dsimp only
      split
      · exact taken.quiet.tail (.raiseError _)
      · exact taken.quiet

/-- R84, R103: a started ASYNC context has its period in the effective window where it is RUNNING, and is SUSPENDED for
a calibration run in progress alone. -/
theorem startedState_decodes {c : Context} (runs : s.startedState c = .running ∨ s.startedState c = .suspended .calibration) :
    c.decodesAt s.dec.level = true := by
  unfold State.startedState at runs
  split at runs
  · simp at runs
  · split at runs
    · simp at runs
    · simpa using ‹¬ (!c.decodesAt s.dec.level) = true›

theorem startedState_calibrates {c : Context} (suspended : s.startedState c = .suspended .calibration) :
    s.calibrates := by
  unfold State.startedState at suspended
  repeat' split at suspended
  any_goals cases suspended
  exact (isActive_iff s).mp ‹_›

theorem Context.initEngine_window (c : Context) (level : Level) :
    (c.initEngine level).asyncSettings = c.asyncSettings ∧ (c.initEngine level).protocol = c.protocol
      ∧ (c.initEngine level).flashEngine.model = c.flashEngine.model := by
  unfold Context.initEngine
  dsimp only
  split <;> exact ⟨rfl, rfl, rfl⟩

theorem Context.initEngine_inRange (c : Context) (level : Level) (h : c.inRange) : (c.initEngine level).inRange := by
  unfold Context.initEngine
  dsimp only
  split <;> exact h

theorem Context.initEngine_period {c : Context} {level : Level} (async : c.protocol = some .async)
    (window : c.windowSound) (decodes : c.decodesAt level = true) :
    c.asyncSettings.effective level (c.initEngine level).asyncEngine.period := by
  unfold Context.decodesAt at decodes
  unfold Context.initEngine
  simp only [async] at decodes ⊢
  refine AsyncSettings.clampPeriod_effective window.2.1 (fun economy => ?_) _
  rw [economy] at decodes
  exact of_decide_eq_true decodes

theorem bodyContextStart_quiet (id : CtxId) : Quiet s (bodyContextStart id s).1 := by
  unfold bodyContextStart
  extract_lets c
  split
  · exact .refl
  · obtain ⟨settings, protocol, model⟩ := c.initEngine_window s.dec.level
    refine .single (setContext_change id ⟨fun h => c.initEngine_inRange s.dec.level h, fun h => ?_, fun h => ?_,
      fun window _ async runs => ?_, fun suspended => .inr (startedState_calibrates suspended)⟩)
    · exact model.symm ▸ h
    · unfold Context.windowSound
      exact settings.symm ▸ h
    · show (c.initEngine s.dec.level).asyncSettings.effective s.dec.level (c.initEngine s.dec.level).asyncEngine.period
      rw [settings]
      exact Context.initEngine_period (protocol ▸ async) window (startedState_decodes runs)

theorem bodyContextStop_quiet (id : CtxId) : Quiet s (bodyContextStop id s).1 := by
  unfold bodyContextStop
  split
  case h_3 => exact .refl
  case h_4 => exact .refl
  all_goals
    refine .single (setContext_change id (.of_stopped ?_ ?_ ?_ (.inl rfl)))
    all_goals
      unfold Context.discardUnit Context.gap
      repeat' split
      all_goals exact fun h => h

theorem bodyContextStatus_change (id : CtxId) : Change s (bodyContextStatus id s).1 :=
  setContext_change id (.of_engines (fun ⟨_, _, _, rest⟩ => ⟨Nat.zero_le _, Nat.zero_le _, Nat.zero_le _, rest⟩)
    (fun h => h) rfl rfl rfl fun h => h)

theorem bodyFlashModelClear_quiet (id : CtxId) : Quiet s (bodyFlashModelClear id s).1 := by
  unfold bodyFlashModelClear
  extract_lets c
  split
  · exact .refl
  · split
    · exact .refl
    · exact .single (setContext_change id (.of_engines (fun h => h) (fun _ => nofun) rfl rfl rfl fun h => h))

theorem bodyFlashSetLoad_quiet (params : List Byte) : Quiet s (bodyFlashSetLoad params s).1 := by
  unfold bodyFlashSetLoad
  split
  · exact .refl
  · split
    · exact .refl
    · split
      all_goals exact .single (.dec _ rfl (fun _ => .refl _) fun h => h)

end Sys2Proof.Machine
end

section
/-! PROOFS. The chains of changes of the sequencer, the record path and the sampling runs. -/

namespace Sys2Proof.Machine

variable {s : State}

/-! ## The trigger sequencer -/

/-- R160: the state, the stage, the programming and the counters kept. -/
def Trg.SamePlace (t x : Trg) : Prop :=
  x.state = t.state ∧ x.stage = t.stage ∧ x.counters = t.counters ∧ x.branches = t.branches

theorem trg_quiet (x : Trg) (same : s.trg.SamePlace x) : Quiet s (s.setTrg x) := by
  obtain ⟨state, stage, counters, branches⟩ := same
  refine .single (.trg x state fun sound st b => ?_)
  rw [State.setTrg_trg, stage, counters, branches]
  exact sound st b

theorem stageTimerAt_quiet (stamp : Nat) : Quiet s (s.stageTimerAt stamp) := by
  unfold State.stageTimerAt
  extract_lets previous entry _ t
  have timed : Quiet s t := by
    refine trg_quiet _ ?_
    exact ⟨rfl, rfl, rfl, rfl⟩
  split
  · exact timed.tail (.evaluate _ _)
  · exact timed

theorem Trg.patternsAt_samePlace (t : Trg) (lines : Lines) (stamp : Nat) :
    t.SamePlace (t.patternsAt lines stamp).1 := by
  unfold Trg.patternsAt
  exact ⟨rfl, rfl, rfl, rfl⟩

theorem triggerSample_quiet (stamp : Nat) (lines changed : Lines) (activity : List (Chan × Activity)) :
    Quiet s (s.triggerSample stamp lines changed activity) := by
  unfold State.triggerSample
  split
  · split
    · exact trg_quiet _ ⟨rfl, rfl, rfl, rfl⟩
    · extract_lets t
      have timed : Quiet s t := stageTimerAt_quiet stamp
      split
      · exact timed.trans (trg_quiet _ ⟨rfl, rfl, rfl, rfl⟩)
      · exact (timed.trans (trg_quiet _ (t.trg.patternsAt_samePlace lines stamp))).tail (.evaluate _ _)
  · exact .refl

theorem triggerRecord_quiet (r : Record) : Quiet s (s.triggerRecord r) := by
  unfold State.triggerRecord
  split
  · exact .single (.evaluate _ _)
  · exact .refl

theorem sendFire_quiet (tick : Nat) (forced : Bool) : Quiet s (s.sendFire tick forced) :=
  .tail (trg_quiet { s.trg with outstanding := true, lastFire := some (tick, forced) } ⟨rfl, rfl, rfl, rfl⟩)
    (.capRest _ _ _)

theorem bodyTriggerForce_quiet : Quiet s (bodyTriggerForce s).1 := by
  unfold bodyTriggerForce
  split
  · exact sendFire_quiet _ _
  · exact .refl

theorem bodyMatchUnitSet_quiet (unit : Byte) (params : UnitParams) :
    Quiet s (bodyMatchUnitSet unit params s).1 := by
  unfold bodyMatchUnitSet
  split
  · exact .refl
  · split
    · exact trg_quiet _ ⟨rfl, rfl, rfl, rfl⟩
    · exact .refl

/-- R154: an accepted branch has a count target of at least 1. -/
theorem acceptBranch_target {p : BranchParams} {b : Branch} (h : acceptBranch p = some b) : 0 < b.target := by
  unfold acceptBranch at h
  simp only [Option.bind_eq_bind, Option.bind_eq_some_iff, Option.some.injEq] at h
  obtain ⟨_, -, _, -, rfl⟩ := h
  exact Nat.lt_of_lt_of_le Nat.zero_lt_one (Nat.le_max_right _ _)

theorem bodyBranchSet_quiet (stage branch : Byte) (params : BranchParams) :
    Quiet s (bodyBranchSet stage branch params s).1 := by
  unfold bodyBranchSet
  split
  · exact .refl
  · split
    · rename_i i j b _ _ accepted
      refine .single (.trg _ rfl fun sound st k => ?_)
      obtain ⟨below, outside⟩ := sound st k
      simp only [State.setTrg_trg, modifyId_get]
      split
      · subst_vars
        rw [set_get, set_get]
        split
        · exact ⟨acceptBranch_target accepted, fun _ => rfl⟩
        · exact ⟨below, outside⟩
      · exact ⟨below, outside⟩
    · exact .refl

theorem stageExpiry_quiet : Quiet s s.stageExpiry := by
  unfold State.stageExpiry
  split
  · exact .refl
  · split
    · exact stageTimerAt_quiet _
    · exact .refl

theorem holdExpiry_quiet (unit : UnitId) : Quiet s (s.holdExpiry unit) := by
  unfold State.holdExpiry
  split
  · exact .refl
  · extract_lets p next
    split
    · exact trg_quiet _ ⟨rfl, rfl, rfl, rfl⟩
    · exact .refl

/-! ## The record path -/

theorem offerWriter_quiet (toSegment : Option SegId) (r : Record) : Quiet s (s.offerWriter toSegment r) := by
  unfold State.offerWriter
  split
  · split
    · exact .single (.writeAnnotation _ r ((isCapturing_iff _).mp ‹_›))
    · exact .refl
  · exact .refl

theorem deliver_quiet (i : PathItem) : Quiet s (s.deliver i) := by
  unfold State.deliver
  extract_lets t u
  have queue : Quiet s t := by
    dsimp only [t]
    split
    · exact offerQueue_quiet _
    · exact .refl
  have trigger : Quiet t u := by
    dsimp only [u]
    split
    · exact triggerRecord_quiet _
    · exact .refl
  exact (queue.trans trigger).trans (offerWriter_quiet _ _)

theorem path_change (path : List (List PathItem)) : Change s (s.setDec { s.dec with path }) :=
  .dec _ rfl (fun _ => .refl _) fun h => h

theorem deliverNext_quiet (ctx : CtxId) : Quiet s (s.deliverNext ctx) := by
  unfold State.deliverNext
  split
  · exact .refl
  · split
    · exact .refl
    · exact (path_change _).quiet.trans (deliver_quiet _)
    · exact (path_change _).quiet.trans (deliver_quiet _)

/-! ## Sampling runs -/

/-- A front end whose ranged registers and monitors stand. -/
def Pfe.SameRanges (p x : Pfe) : Prop :=
  x.full = p.full ∧ x.economy = p.economy ∧ x.glitchThreshold = p.glitchThreshold ∧ x.quietTime = p.quietTime
    ∧ x.monitors = p.monitors

theorem pfe_change (x : Pfe) (same : s.pfe.SameRanges x) : Change s (s.setPfe x) := by
  obtain ⟨full, economy, glitch, quiet, monitors⟩ := same
  exact .pfe x fun h => h.of_monitors full economy glitch quiet fun _ kept => monitors ▸ kept

theorem Pfe.formSample_sameRanges (p : Pfe) (r : Run) (newest : Nat) : p.SameRanges (p.formSample r newest).1 := by
  unfold Pfe.formSample
  exact ⟨rfl, rfl, rfl, rfl, rfl⟩

theorem Pfe.discardOpenRuns_sameRanges (p : Pfe) : p.SameRanges p.discardOpenRuns := by
  unfold Pfe.discardOpenRuns
  exact ⟨rfl, rfl, rfl, rfl, rfl⟩

theorem takeConditioned_changes (x : Conditioned) (step : Nat) : Changes s (s.takeConditioned x step) := by
  unfold State.takeConditioned
  have monitors : Quiet s (s.monitorSample x).1 := monitorSample_quiet x
  exact (Quiet.changes ((monitors.trans (decodeSample_quiet x step)).trans (triggerSample_quiet _ _ _ _))).tail
    (.inr (.encodeSample _ _))

theorem formNext_changes (newest : Nat) : Changes s (s.formNext newest) := by
  unfold State.formNext
  split
  · exact .refl
  · exact (pfe_change _ (s.pfe.formSample_sameRanges _ _)).changes.trans (takeConditioned_changes _ _)

theorem flushSteps_changes (n step : Nat) : Changes s (State.flushSteps n step s) := by
  induction n generalizing step s with
  | zero => exact .refl
  | succ n ih =>
    unfold State.flushSteps
    extract_lets _ t
    have after : Changes s t := by
      refine (pfe_change _ ?_).changes
      exact ⟨rfl, rfl, rfl, rfl, rfl⟩
    refine .trans ?_ (ih (step + 1))
    split
    · exact after.trans (formNext_changes _)
    · exact after

theorem endRun_changes : Changes s s.endRun := by
  unfold State.endRun
  split
  · exact .refl
  · extract_lets t u x
    have discarded : Changes s t := (pfe_change _ s.pfe.discardOpenRuns_sameRanges).changes
    have flushed : Changes t u := by
      dsimp only [u]
      split
      · exact .refl
      · exact flushSteps_changes _ _
    refine (discarded.trans flushed).tail (.inl (pfe_change _ ?_))
    exact ⟨rfl, rfl, rfl, rfl, rfl⟩

end Sys2Proof.Machine
end

section
/-! PROOFS. The chains of changes of levels, calibration, reads, refreshes and requests; every command runs as one. -/

namespace Sys2Proof.Machine

variable {s : State}

/-! ## Levels (R22 to R25) -/

theorem beginTransition_switches (s : State) (target : Level) : (s.beginTransition target).switches := by
  refine ⟨target, ?_⟩
  unfold State.beginTransition
  extract_lets sampling x t u v
  have kept : v.lvl = t.lvl := by
    dsimp only [v, u]
    split <;> simp
  split
  · rw [State.setCap_lvl, kept]
    rfl
  · rw [kept]
    rfl

/-- R22: what follows the change of the level block. -/
theorem beginTransition_changes {r : State} (target : Level)
    (begun : Changes r (s.setLvl { s.lvl with transition := .switching target })) :
    Changes r (s.beginTransition target) := by
  unfold State.beginTransition
  extract_lets sampling x t u v
  have gapped : Changes u v := by
    dsimp only [v]
    split
    · exact gapBegin_change.changes
    · exact .refl
  have ended : Changes r v := (begun.trans endRun_changes).trans gapped
  split
  · exact ended.tail (.inl (.capRest _ _ _))
  · exact ended

theorem State.requestWaits.of_switches (h : s.switches) : s.requestWaits := fun _ => .inr h

/-- R23, R25: a released request begins its transition. -/
theorem releaseRequest_changes (free : s.noCapture ∨ s.switches) : Changes s s.releaseRequest := by
  unfold State.releaseRequest
  split
  · rename_i target waiting
    refine beginTransition_changes target (.single (.inl (.switching _ target rfl rfl ?_)))
    refine free.symm.imp_right fun without => ⟨without, .inr ?_⟩
    rw [waiting]
    nofun
  · exact .refl

theorem releaseRequest_waits (s : State) : s.releaseRequest.requestWaits := by
  unfold State.releaseRequest
  split
  · exact .of_switches (beginTransition_switches _ _)
  · rename_i none
    exact fun waiting => absurd none waiting

theorem endOfCapture_changes : Changes s s.endOfCapture := by
  unfold State.endOfCapture
  split
  · rename_i ended
    exact releaseRequest_changes (.inl (capturing?_isNone s |>.mp ended.1))
  · exact .refl

/-- R25: at the end of a capture no request waits for nothing. -/
theorem endOfCapture_waits (s : State) : s.endOfCapture.requestWaits := by
  unfold State.endOfCapture
  split
  · exact releaseRequest_waits s
  · rename_i open_
    by_cases captured : ∃ i, s.captures i
    · exact fun _ => .inl captured
    · have without : s.capturing?.isNone = true :=
        (capturing?_isNone s).mpr fun i captures => captured ⟨i, captures⟩
      exact .of_switches ((isSwitching_iff s).mp (Bool.not_eq_false _ ▸ fun steady => open_ ⟨without, steady⟩))

theorem endOfCapture_settles {r : State} (h : Changes r s) : Settles r s.endOfCapture :=
  Changes.settles (h.trans endOfCapture_changes) (endOfCapture_waits s)

theorem settlePort_quiet : Quiet s s.settlePort := by
  unfold State.settlePort
  split
  · exact .single (.capRest _ _ _)
  · exact .refl

theorem startRun_quiet (level : Level) : Quiet s (s.startRun level) := by
  unfold State.startRun
  split
  · exact .refl
  · split
    · exact .single (.count _ _ fun _ => le_rfl)
    · rename_i inRange
      extract_lets stamp
      refine .tail (.single (.count stamp s.lvl.exhausted fun _ => Nat.le_of_not_lt inRange)) (pfe_change _ ?_)
      exact ⟨rfl, rfl, rfl, rfl, rfl⟩

theorem settleLevel_quiet (level : Level) : Quiet s (s.settleLevel level) := by
  unfold State.settleLevel
  split
  · exact startRun_quiet _
  · exact startRun_quiet _
  · exact .trans (.single (.capRest _ _ _)) settlePort_quiet

/-- R23: the completion, up to what becomes of the level block. -/
def State.entered (s : State) (level : Level) : State :=
  ((s.gapEnd level).setPfe { s.pfe with active := contextOf level }).raise .levelChanged

theorem entered_quiet (level : Level) (switches : s.switches) : Quiet s (s.entered level) := by
  refine .tail ?_ (.raise .levelChanged (.inr (by decide)))
  refine .tail (.single (.gapEnd level switches)) (pfe_change _ ?_)
  exact ⟨rfl, rfl, rfl, rfl, rfl⟩

theorem completeTransition_eq (level : Level) : s.completeTransition level =
    match s.lvl.request with
    | some target => ((s.entered level).setLvl { s.lvl with level, transition := .steady, request := none }).beginTransition
        target
    | none => ((s.entered level).setLvl { s.lvl with level, transition := .steady }).settleLevel level := by
  have entry : s.completeTransition level =
      let t := (s.entered level).setLvl { s.lvl with level, transition := .steady }
      if t.lvl.request.isSome then t.releaseRequest else t.settleLevel level := rfl
  rw [entry]
  unfold State.releaseRequest
  dsimp only [State.setLvl_lvl]
  cases s.lvl.request <;> rfl

theorem completeTransition_settles (level : Level) (switches : s.switches) :
    Settles s (s.completeTransition level) := by
  rw [completeTransition_eq]
  split
  · rename_i target _
    refine Changes.settles (beginTransition_changes target ?_) (.of_switches (beginTransition_switches _ _))
    exact (entered_quiet level switches).changes.tail (.inl (.switching _ target rfl rfl (.inl switches)))
  · rename_i none
    refine Quiet.settles (.trans (.tail (entered_quiet level switches) ?_) (settleLevel_quiet level))
    exact .settled level switches none

end Sys2Proof.Machine
end

section
/-! PROOFS. The chains of changes of calibration, raw samples and the exhaustion. -/

namespace Sys2Proof.Machine

variable {s : State}

/-! ## Calibration (R31 to R39) -/

/-- R32: the pattern register, not all zeros, is not all zeros after an advance. -/
theorem advancePattern_ne_zero {p : BitVec 15} (h : p ≠ 0#15) : advancePattern p ≠ 0#15 := by
  intro zero
  refine h (BitVec.eq_of_getLsbD_eq fun i hi => ?_)
  rw [BitVec.getLsbD_zero]
  have bit (j : Nat) : (advancePattern p).getLsbD j = false := by rw [zero, BitVec.getLsbD_zero]
  have low (j : Nat) (below : j < 14) : p.getLsbD j = false := by
    have shifted := bit (j + 1)
    unfold advancePattern at shifted
    rw [BitVec.getLsbD_or, BitVec.getLsbD_shiftLeft] at shifted
    simp only [Bool.or_eq_false_iff] at shifted
    simpa [show j + 1 < 15 by omega] using shifted.1
  rcases Nat.lt_or_ge i 14 with below | top
  · exact low i below
  · obtain rfl : i = 14 := by omega
    have feedback := bit 0
    unfold advancePattern at feedback
    rw [BitVec.getLsbD_or, low 13 (by decide)] at feedback
    cases last : p.getLsbD 14
    · rfl
    · simp [last] at feedback

theorem Cal.countStep_inRange {c : Cal} (h : c.inRange) : c.countStep.inRange := by
  obtain ⟨seed, tolerance, pattern⟩ := h
  unfold Cal.countStep
  split
  · exact ⟨seed, tolerance, pattern⟩
  · refine ⟨seed, tolerance, ?_⟩
    dsimp only
    split
    · exact advancePattern_ne_zero pattern
    · exact pattern

theorem Cal.compare_inRange {c : Cal} (h : c.inRange) (filters : Vector GlitchFilter 32) (newest : Nat) :
    (c.compare filters newest).inRange := by
  obtain ⟨seed, tolerance, pattern⟩ := h
  unfold Cal.compare
  split <;> exact ⟨seed, tolerance, pattern⟩

theorem Cal.compare_state (c : Cal) (filters : Vector GlitchFilter 32) (newest : Nat) :
    (c.compare filters newest).state = c.state := by
  unfold Cal.compare
  split <;> rfl

theorem Cal.countStep_idle {c : Cal} (active : c.isActive = true) : c.countStep.state ≠ .idle := by
  unfold Cal.countStep Cal.isActive at *
  split
  · rintro idle
    rw [idle] at active
    cases active
  · dsimp only
    split
    · nofun
    · rintro idle
      rw [idle] at active
      cases active

theorem calSample_quiet (newest : Nat) : Quiet s (s.calSample newest) := by
  unfold State.calSample
  split
  · rename_i active
    refine .single (.cal _ (fun h => Cal.compare_inRange (Cal.countStep_inRange h) _ _) ?_)
    rw [Cal.compare_state]
    have running : s.cal.state ≠ .idle := fun idle => by
      unfold Cal.isActive at active
      rw [idle] at active
      cases active
    exact iff_of_false (Cal.countStep_idle active) running
  · exact .refl

theorem setResults_change (results : Vector CalResult 32) : Change s (s.setCal { s.cal with results }) :=
  .cal _ (fun h => h) Iff.rfl

/-- R35: a lag, and so an offset, within -8..+7. -/
theorem CalResult.offset_mem (c : Cal) (ch : Chan) {old : Int} (h : -8 ≤ old ∧ old ≤ 7) :
    -8 ≤ (c.resultOf ch).offset old ∧ (c.resultOf ch).offset old ≤ 7 := by
  unfold Cal.resultOf
  split
  · extract_lets best count
    split
    · show -8 ≤ lagOf best ∧ lagOf best ≤ 7
      unfold lagOf
      omega
    · exact h
  · exact h

theorem FrontEnd.inRange.of_offsets {f : FrontEnd} (h : f.inRange) {offsets : Vector Int 32}
    (kept : ∀ c : Chan, -8 ≤ offsets[c] ∧ offsets[c] ≤ 7) : ({ f with offsets } : FrontEnd).inRange := ⟨kept, h.2⟩

theorem Pfe.writeResults_inRange {p : Pfe} (h : p.inRange) (c : Cal) :
    (p.writeResults (Vector.ofFn fun ch : Chan => c.resultOf ch)).inRange := by
  unfold Pfe.writeResults
  split
  · refine Pfe.setFrontEnd_inRange h _ fun kept => kept.of_offsets fun ch => ?_
    simp only [mapIds_get]
    have result : (Vector.ofFn fun ch : Chan => c.resultOf ch)[ch] = c.resultOf ch := by
      simp only [Fin.getElem_fin, Vector.getElem_ofFn]
    rw [result]
    exact CalResult.offset_mem c ch (kept.1 ch)
  · exact h

theorem writeResults_change (c d : Cal) : Change (s.setCal c)
    ((s.setCal c).setPfe (s.pfe.writeResults (Vector.ofFn fun ch : Chan => d.resultOf ch))) := by
  refine .pfe _ fun h => ?_
  rw [State.setCal_pfe] at h
  exact Pfe.writeResults_inRange h d

theorem completeCalibration_quiet : Quiet s s.completeCalibration :=
  .tail (.tail (.single (setResults_change _)) (writeResults_change _ s.cal)) (.endCalibration .complete)

theorem completeIfDue_quiet : Quiet s s.completeIfDue := by
  unfold State.completeIfDue
  split
  · exact completeCalibration_quiet
  · exact .refl

theorem bodyCalibrationAbort_quiet : Quiet s (bodyCalibrationAbort s).1 := by
  unfold bodyCalibrationAbort
  split
  · exact .single (.endCalibration .aborted)
  · exact .refl

theorem measuringEntry_quiet (settling : s.cal.state = .settling) :
    Quiet s (s.setCal { s.cal with state := .measuring }) := by
  refine .single (.cal _ (fun h => h) ?_)
  rw [settling]
  simp

/-! ## Raw samples and the exhaustion (R2, R21) -/

theorem Pfe.filterStep_sameRanges (p : Pfe) (n : Nat) (raw : Lines) : p.SameRanges (p.filterStep n raw).1 := by
  unfold Pfe.filterStep
  split <;> exact ⟨rfl, rfl, rfl, rfl, rfl⟩

theorem advance_change (step : Nat) : Change s (s.setLvl (s.lvl.advance step)) := by
  unfold Lvl.advance
  split
  · exact .count _ _ fun _ => le_rfl
  · rename_i inRange
    exact .count (s.lvl.count + step) s.lvl.exhausted fun _ => Nat.le_of_not_lt inRange

theorem rawSample_quiet (r : Run) (probes : Vector Int 32) : Quiet s (s.rawSample r probes) := by
  have filtered : s.pfe.SameRanges
      { (s.pfe.filterStep r.taken (s.pfe.rawLines probes)).1 with run := some { r with taken := r.taken + 1 } } :=
    Pfe.filterStep_sameRanges _ _ _
  exact ((((pfe_change _ filtered).quiet.tail (advance_change r.step)).trans
    (countGlitches_quiet (s.pfe.filterStep r.taken (s.pfe.rawLines probes)).2))).trans (calSample_quiet r.taken)

theorem sampleRun_settles (r : Run) (probes : Vector Int 32) : Settles s (s.sampleRun r probes) := by
  unfold State.sampleRun
  extract_lets t
  refine endOfCapture_settles ?_
  have raw : Changes s t := (rawSample_quiet r probes).changes
  split
  · exact raw.trans (formNext_changes _)
  · exact raw

theorem calRunEnd_quiet : Quiet s s.calRunEnd := by
  unfold State.calRunEnd
  split
  · exact .refl
  · extract_lets t
    have discarded : Quiet s t := (pfe_change _ s.pfe.discardOpenRuns_sameRanges).quiet
    split
    · exact discarded
    · refine .trans (.tail discarded (.cal _ (fun h => Cal.compare_inRange h _ _) ?_)) completeIfDue_quiet
      rw [Cal.compare_state]

theorem sealAtLimit_changes : Changes s s.sealAtLimit := by
  unfold State.sealAtLimit
  split
  · exact .single (.inr (.sealSegment _ _ (captures_of_capturing? ‹_›)))
  · exact .refl

theorem exhaust_settles : Settles s s.exhaust := by
  unfold State.exhaust
  extract_lets t u v
  refine endOfCapture_settles ?_
  have run : Changes s t := calRunEnd_quiet.changes.trans endRun_changes
  have sealed : Changes s u := (run.tail (.inl gapBegin_change)).trans sealAtLimit_changes
  dsimp only [v]
  split
  · exact sealed.tail (.inl (.endCalibration _))
  · exact sealed

theorem exhaustIfDue_settles : Settles s s.exhaustIfDue := by
  unfold State.exhaustIfDue
  split
  · exact exhaust_settles
  · exact Quiet.settles .refl

/-! ## SET_LEVEL and the segment requests (R24, R58 to R76) -/

theorem request_change (r : Option Level) (waits : r ≠ none → (∃ i, s.captures i) ∨ s.switches) :
    Change s (s.setLvl { s.lvl with request := r }) := .request r waits

theorem bodySetLevel_settles (level : Byte) : Settles s (bodySetLevel level s).1 := by
  unfold bodySetLevel
  split
  · exact Quiet.settles .refl
  · rename_i l _
    split
    · exact (request_change none (absurd rfl)).quiet.settles
    · split
      · rename_i waits
        rw [capturing?_isSome, isSwitching_iff] at waits
        exact (request_change (some l) fun _ => waits).quiet.settles
      · rename_i free
        rw [capturing?_isSome, isSwitching_iff, not_or] at free
        split
        · exact Quiet.settles .refl
        · rename_i idle
          rw [isActive_iff] at idle
          refine Changes.settles (beginTransition_changes l ?_) (.of_switches (beginTransition_switches s l))
          exact .single (.inl (.switching _ l rfl rfl (.inr ⟨fun i captures => free.1 ⟨i, captures⟩, .inl idle⟩)))

theorem bodySegmentPrepare_quiet (mask : Lines) (budget : Nat) (target : BitVec 32) (limit annotationBudget : Nat)
    (i : SegId) : Quiet s (bodySegmentPrepare mask budget target limit annotationBudget i s).1 := by
  unfold bodySegmentPrepare
  split
  · exact .single (.prepare i mask budget target limit annotationBudget ‹_›)
  · exact .refl

theorem bodySegmentStart_quiet (i : SegId) : Quiet s (bodySegmentStart i s).1 := by
  unfold bodySegmentStart
  split
  · exact .refl
  · exact .single (.startCapture i ‹_›)

theorem bodySegmentStop_settles : Settles s (bodySegmentStop s).1 := by
  unfold bodySegmentStop
  split
  · exact endOfCapture_settles (.single (.inr (.sealSegment _ _ (captures_of_capturing? ‹_›))))
  · exact Quiet.settles .refl

theorem bodySegmentAbort_settles : Settles s (bodySegmentAbort s).1 := by
  unfold bodySegmentAbort
  split
  · rename_i i capturing
    have captures := captures_of_capturing? capturing
    unfold State.abortSegment
    extract_lets t
    split
    · exact endOfCapture_settles (.single (.inr (.abortVacated i captures)))
    · exact endOfCapture_settles (.single (.inr (.abortPinned i captures)))
  · exact Quiet.settles .refl

theorem bodySegmentRetire_quiet (i : SegId) : Quiet s (bodySegmentRetire i s).1 := by
  unfold bodySegmentRetire
  extract_lets g
  split
  case h_5 primed => exact .single (.retireNow i (.inl primed))
  case h_6 isSealed =>
    split
    · exact .refl
    · split
      · exact .single (.segment i _ rfl rfl rfl (.inl rfl))
      · rename_i drained
        have drained : g.drainPending = false := Bool.eq_false_iff.mpr drained
        split
        · exact .single (.segment i _ rfl rfl rfl (.inr ⟨rfl, isSealed, drained⟩))
        · exact .single (.retireNow i (.inr (.inr ⟨isSealed, drained⟩)))
  all_goals exact .refl

end Sys2Proof.Machine
end

section
/-! PROOFS. The chains of changes of reads and refreshes, and every command as one chain. -/

namespace Sys2Proof.Machine

variable {s : State}

/-! ## Pins, reads and refreshes (R75, R78, R79, R170, R175) -/

theorem pin_quiet (i : SegId) : Quiet s (s.pin i) := .single (.segment i _ rfl rfl rfl (.inl rfl))

theorem unpin_quiet (i : SegId) : Quiet s (s.unpin i) := by
  unfold State.unpin
  extract_lets _ t
  have released : Quiet s t := by
    refine .single (.segment i _ ?_ ?_ ?_ (.inl ?_))
    all_goals rfl
  split
  · rename_i last
    exact released.tail (.retireNow i (.inr (.inl last.1)))
  · exact released

theorem setCmd_change (x : Cmd) (pending : x.pending = s.cmd.pending) (lock : x.lockChange = s.cmd.lockChange)
    (error : x.errorThreshold = s.cmd.errorThreshold) (glitch : x.glitch = s.cmd.glitch)
    (activity : x.activity = s.cmd.activity) : Change s (s.setCmd x) := .cmd x pending lock error glitch activity

theorem startRead_quiet (kind : ReadKind) (i : SegId) (start count : Nat) : Quiet s (s.startRead kind i start count) := by
  unfold State.startRead
  extract_lets g t _ u
  have pinned : Quiet s t := pin_quiet i
  have reading : Quiet s u := pinned.tail (.capRest _ _ _)
  refine reading.tail (.cmd _ ?_ ?_ ?_ ?_ ?_)
  all_goals rfl

theorem takeRead_quiet (kind : ReadKind) (fit : Fit) (segment : Byte) (start count : Nat) :
    Quiet s (s.takeRead kind fit segment start count) := by
  unfold State.takeRead
  extract_lets _ t
  have taken : Quiet s t := by
    refine .single (.cmd _ ?_ ?_ ?_ ?_ ?_)
    all_goals rfl
  split
  · exact taken.tail (respond_change _ _)
  · split
    · exact taken.tail (respond_change _ _)
    · unfold State.beginTaken
      split
      · exact taken.tail (respond_change _ _)
      · split
        · exact taken.trans (startRead_quiet _ _ _ _)
        · exact taken.tail (respond_change _ _)

theorem requestRead_quiet (kind : ReadKind) (fit : Fit) (segment : Byte) (start count : Nat) :
    Quiet s (s.requestRead kind fit segment start count) := by
  unfold State.requestRead
  split
  · split
    · refine .single (.cmd _ ?_ ?_ ?_ ?_ ?_)
      all_goals rfl
    · exact takeRead_quiet _ _ _ _ _
  · exact .refl

theorem readStep_quiet (kind : ReadKind) (take : Cap → Segment → ReadInFlight → ReadInFlight) :
    Quiet s (s.readStep kind take) := by
  unfold State.readStep
  split
  · split
    · exact .single (.capRest _ _ _)
    · exact .refl
  · exact .refl

theorem formRead_quiet (kind : ReadKind) : Quiet s (s.formRead kind) := by
  unfold State.formRead
  split
  · rename_i r _
    split
    · extract_lets t _ u
      have presented : Quiet s t := by
        dsimp only [t]
        unfold State.present
        split
        · exact .single (respond_change _ _)
        · exact .refl
      have released : Quiet s u := (presented.tail (.capRest none t.cap.port t.cap.fires)).trans (unpin_quiet _)
      refine (released.trans settlePort_quiet).trans ?_
      unfold State.takeHeld
      split
      · exact takeRead_quiet _ _ _ _ _
      · exact .refl
    · exact .refl
  · exact .refl

/-- The display with its staged rows as they were. -/
theorem dsp_change (x : Dsp) (staged : x.staged = s.dsp.staged) : Change s (s.setDsp x) :=
  .dsp x fun rows => staged ▸ rows

theorem readColumn_quiet : Quiet s s.readColumn := by
  refine .trans (.single ?_) settlePort_quiet
  exact dsp_change _ rfl

theorem startRefresh_quiet (i : SegId) : Quiet s (s.startRefresh i) :=
  .tail (pin_quiet i) (dsp_change _ rfl)

theorem notDrawn_quiet : Quiet s s.notDrawn :=
  .tail (.single (dsp_change { s.dsp with outcome := .notDrawn } rfl)) (.raise .refreshDone (.inr (by decide)))

theorem startPendingRefresh_quiet : Quiet s s.startPendingRefresh := by
  unfold State.startPendingRefresh
  split
  · exact notDrawn_quiet
  · split
    · exact notDrawn_quiet
    · split
      · exact startRefresh_quiet _
      · exact notDrawn_quiet

theorem completeRefresh_quiet : Quiet s s.completeRefresh := by
  unfold State.completeRefresh
  extract_lets t pending _ u
  have released : Quiet s t := by
    dsimp only [t]
    split
    · exact unpin_quiet _
    · exact .refl
  have drawn : Quiet s u := by
    refine .tail ?_ (.raise .refreshDone (.inr (by decide)))
    exact released.tail (dsp_change _ rfl)
  split
  · exact drawn.trans startPendingRefresh_quiet
  · exact drawn

theorem bodyRefresh_quiet : Quiet s (bodyRefresh s).1 := by
  unfold bodyRefresh
  split
  · exact .refl
  · split
    · exact .refl
    · split
      · exact .single (dsp_change _ rfl)
      · split
        · exact startRefresh_quiet _
        · exact .refl

/-- R167: an accepted view has at most 12 rows. -/
theorem acceptView_rows {p : ViewParams} {v : View} (h : acceptView p = some v) : v.rows.length ≤ 12 := by
  unfold acceptView at h
  simp only [Option.bind_eq_bind, Option.bind_eq_some_iff] at h
  obtain ⟨_, -, rows, -, h⟩ := h
  split at h
  · cases h
    assumption
  · cases h

theorem bodyViewSet_quiet (params : ViewParams) : Quiet s (bodyViewSet params s).1 := by
  unfold bodyViewSet
  split
  · rename_i v accepted
    exact .single (.dsp _ fun _ => acceptView_rows accepted)
  · exact .refl

/-! ## The other requests -/

theorem bodyPoolThresholdSet_quiet (threshold : Nat) : Quiet s (bodyPoolThresholdSet threshold s).1 :=
  .single (.poolThreshold threshold)

theorem bodyRecordsTake_quiet (count : Nat) : Quiet s (bodyRecordsTake count s).1 :=
  .single (dequeue_change _)

theorem bodyQueueThresholdSet_quiet (threshold : Nat) : Quiet s (bodyQueueThresholdSet threshold s).1 := by
  refine .trans ?_ checkQueue_quiet
  refine .single (.dec _ rfl (fun _ => .refl _) fun ⟨queue, span, _⟩ => ⟨queue, span, ?_⟩)
  exact ⟨le_clamp (by decide), clamp_le⟩

theorem bodyQueueAckGap_quiet : Quiet s (bodyQueueAckGap s).1 := by
  unfold bodyQueueAckGap
  split
  · exact .refl
  · split
    · exact .refl
    · exact acknowledgeGap_quiet (Nat.not_le.mp ‹_›)

/-! ## The protocol timers -/

theorem idleExpiry_settles (i : CtxId) : Settles s (s.after (.idleTimerExpiry i)) := by
  rw [after_idleTimerExpiry]
  refine (expireContext_quiet i _ _ fun c stamp => ?_).settles
  refine .of_engines (fun h => h) (fun h => h) rfl rfl rfl fun h => ?_
  dsimp only
  rw [AsyncEngine.expireIdle_period]
  exact h

/-- An expiry that changes the clocked and the two-wire engine alone. -/
theorem expireContext_settles (i : CtxId) (protocol : Protocol)
    (engines : Context → Nat → ClockedEngine × TwoWireEngine) (out : Context → Nat → List Emission) :
    Settles s (s.expireContext i protocol fun c stamp =>
      ({ c with clockedEngine := (engines c stamp).1, twoWireEngine := (engines c stamp).2 }, out c stamp)) :=
  (expireContext_quiet i protocol _ fun _ _ =>
    .of_engines (fun h => h) (fun h => h) rfl rfl rfl fun h => h).settles

theorem wordGapExpiry_settles (i : CtxId) : Settles s (s.after (.wordGapTimerExpiry i)) :=
  expireContext_settles i .clocked
    (fun c stamp => ((c.clockedEngine.expireGap c.clockedSettings c.lanes i stamp).1, c.twoWireEngine))
    fun c stamp => (c.clockedEngine.expireGap c.clockedSettings c.lanes i stamp).2

theorem stuckExpiry_settles (i : CtxId) : Settles s (s.after (.stuckTimerExpiry i)) :=
  expireContext_settles i .twoWire
    (fun c stamp => (c.clockedEngine, (c.twoWireEngine.expireStuck c.twoWireSettings i stamp).1))
    fun c stamp => (c.twoWireEngine.expireStuck c.twoWireSettings i stamp).2

theorem busFreeExpiry_settles (i : CtxId) : Settles s (s.after (.busFreeTimerExpiry i)) :=
  expireContext_settles i .twoWire
    (fun c stamp => (c.clockedEngine, c.twoWireEngine.expireFree c.twoWireSettings stamp)) fun _ _ => []

/-! ## Every command -/

theorem frontEndRead_settles (f : Fit) (b : Byte) : Settles s (s.after (.frontEndRead f b)) := by
  rw [after_frontEndRead]
  refine request_settles_of_eq _ _ _ ?_
  unfold bodyFrontEndRead
  split <;> rfl


theorem body_settles {a : Bool} {f : Fit} {b : State → State × Response} (h : Quiet s (b s).1) :
    Settles s (request a f b s) := request_settles a f b h.settles

theorem segmentBody_settles {a : Bool} {f : Fit} {n : Byte} {b : SegId → State → State × Response}
    (h : ∀ i, Quiet s (b i s).1) : Settles s (request a f (onSegment n b) s) :=
  request_settles a f _ (onSegment_settles n b fun i => (h i).settles)

theorem contextBody_settles {a : Bool} {f : Fit} {n : Byte} {b : CtxId → State → State × Response}
    (h : ∀ i, Quiet s (b i s).1) : Settles s (request a f (onContext n b) s) :=
  request_settles a f _ (onContext_settles n b fun i => (h i).settles)

theorem openContextBody_settles {a : Bool} {f : Fit} {n : Byte} {b : CtxId → State → State × Response}
    (h : ∀ i, Quiet s (b i s).1) : Settles s (request a f (onOpenContext n b) s) :=
  request_settles a f _ (onOpenContext_settles n b fun i => (h i).settles)

theorem calibrate_runs (f : Fit) (channels : Lines) (seed tolerance : Nat) :
    Runs s (request false f (bodyCalibrate channels seed tolerance) s) := by
  unfold Runs
  rcases request_cases false f (bodyCalibrate channels seed tolerance) s with e | e | e | ⟨-, e⟩ <;> rw [e]
  · exact .inl (Quiet.settles .refl)
  · exact .inl (respond_change s ⟨.level, .none⟩).quiet.settles
  · exact .inl (respond_change s ⟨.badParam, .none⟩).quiet.settles
  · unfold bodyCalibrate
    split
    · exact .inl (respond_change _ _).quiet.settles
    · rename_i free
      exact .inr ⟨channels, seed, tolerance, free, (respond_change _ _).quiet⟩

/-- Every command is a chain of changes. -/
theorem after_runs (c : Instr) : Runs s (s.after c) := by
  cases c
  case calibrate f channels seed tolerance => exact calibrate_runs f channels seed tolerance
  all_goals left
  case powerOn => exact (Change.quiet .powerOn).settles
  case portSelectAssert =>
    rw [after_portSelectAssert]
    split
    · refine (Change.quiet (.cmd _ ?_ ?_ ?_ ?_ ?_)).settles
      all_goals rfl
    · exact Quiet.settles .refl
  case portSelectDeassert => exact (endFrame_quiet s).settles
  case unknownRequest code =>
    rw [after_unknownRequest]
    split
    · exact (respond_change s _).quiet.settles
    · exact Quiet.settles .refl
  case thresholdSet => exact body_settles (bodyThresholdSet_quiet _ _)
  case deskewSet => exact body_settles (writeFrontEnd_quiet _ fun x h => setOffsets_inRange h _ _)
  case glitchWidthSet => exact body_settles (writeFrontEnd_quiet _ fun x h => setWidths_inRange h _ _)
  case frontEndRead f b => exact frontEndRead_settles f b
  case linesRead => rw [after_linesRead]; exact request_settles_of_eq _ _ _ rfl
  case monitorSet => exact body_settles (bodyMonitorSet_quiet _ _ _ _)
  case monitorRead => exact body_settles (bodyMonitorRead_change _).quiet
  case setLevel f level => exact request_settles true f _ (bodySetLevel_settles level)
  case levelStatus => rw [after_levelStatus]; exact request_settles_of_eq _ _ _ rfl
  case calibrationAbort => rw [after_calibrationAbort]; exact body_settles bodyCalibrationAbort_quiet
  case readCalibration => rw [after_readCalibration]; exact request_settles_of_eq _ _ _ rfl
  case poolThresholdSet => exact body_settles (bodyPoolThresholdSet_quiet _)
  case poolStatus => rw [after_poolStatus]; exact request_settles_of_eq _ _ _ rfl
  case segmentPrepare => exact segmentBody_settles fun i => bodySegmentPrepare_quiet _ _ _ _ _ i
  case segmentStatus => exact segmentBody_settles fun _ => .refl
  case segmentStart => exact segmentBody_settles bodySegmentStart_quiet
  case segmentStop => rw [after_segmentStop]; exact request_settles false _ _ bodySegmentStop_settles
  case segmentAbort => rw [after_segmentAbort]; exact request_settles false _ _ bodySegmentAbort_settles
  case segmentRetire => exact segmentBody_settles bodySegmentRetire_quiet
  case segmentRead => exact (requestRead_quiet _ _ _ _ _).settles
  case annotationRead => exact (requestRead_quiet _ _ _ _ _).settles
  case contextOpen => exact contextBody_settles bodyContextOpen_quiet
  case contextClose => exact openContextBody_settles bodyContextClose_quiet
  case contextConfigure => exact openContextBody_settles (bodyContextConfigure_quiet _)
  case contextStart => exact openContextBody_settles bodyContextStart_quiet
  case contextStop => exact openContextBody_settles bodyContextStop_quiet
  case contextStatus => exact openContextBody_settles fun i => (bodyContextStatus_change i).quiet
  case flashSetLoad => rw [after_flashSetLoad]; exact body_settles (bodyFlashSetLoad_quiet _)
  case flashModelClear => exact openContextBody_settles bodyFlashModelClear_quiet
  case recordsTake => exact body_settles (bodyRecordsTake_quiet _)
  case queueThresholdSet => exact body_settles (bodyQueueThresholdSet_quiet _)
  case queueStatus => rw [after_queueStatus]; exact request_settles_of_eq _ _ _ rfl
  case queueAckGap => rw [after_queueAckGap]; exact body_settles bodyQueueAckGap_quiet
  case matchUnitSet => exact body_settles (bodyMatchUnitSet_quiet _ _)
  case branchSet => exact body_settles (bodyBranchSet_quiet _ _ _)
  case triggerForce => rw [after_triggerForce]; exact body_settles bodyTriggerForce_quiet
  case triggerStatus => rw [after_triggerStatus]; exact request_settles_of_eq _ _ _ rfl
  case triggerProgramRead => rw [after_triggerProgramRead]; exact request_settles_of_eq _ _ _ rfl
  case viewSet => exact body_settles (bodyViewSet_quiet _)
  case refresh => rw [after_refresh]; exact body_settles bodyRefresh_quiet
  case displayStatus => rw [after_displayStatus]; exact request_settles_of_eq _ _ _ rfl
  case noticesRead => rw [after_noticesRead]; exact body_settles (Change.quiet .emptied)
  case noticesMask f mask =>
    refine body_settles (.single (.cmd _ ?_ ?_ ?_ ?_ ?_))
    all_goals rfl
  case identify => rw [after_identify]; exact request_settles_of_eq _ _ _ rfl
  case reset => rw [after_reset]; exact body_settles (Change.quiet .softReset)
  case sampleStep probes =>
    rw [after_sampleStep]
    have due : Settles s s.completeIfDue.exhaustIfDue := completeIfDue_quiet.settles.trans exhaustIfDue_settles
    split
    · exact due.trans (sampleRun_settles _ _)
    · exact due
  case quietTimerExpiry c => exact (quietExpiry_quiet c).settles
  case idleTimerExpiry i => exact idleExpiry_settles i
  case wordGapTimerExpiry i => exact wordGapExpiry_settles i
  case stuckTimerExpiry i => exact stuckExpiry_settles i
  case busFreeTimerExpiry i => exact busFreeExpiry_settles i
  case patternHoldExpiry u => exact Quiet.settles (stageExpiry_quiet.trans (holdExpiry_quiet u))
  case stageTimerExpiry => exact stageExpiry_quiet.settles
  case calMeasuringEntry =>
    rw [after_calMeasuringEntry]
    split
    · rename_i due
      exact (measuringEntry_quiet due.1).settles
    · exact Quiet.settles .refl
  case calibrationComplete => exact completeIfDue_quiet.settles
  case countExhausted => exact exhaustIfDue_settles
  case levelTransitionComplete =>
    rw [after_levelTransitionComplete]
    split
    · rename_i target switching
      exact completeTransition_settles target ⟨target, switching⟩
    · exact Quiet.settles .refl
  case fireAccept index => exact endOfCapture_settles (.single (.inr (.takeFire index)))
  case recordPathDelivery i => exact (deliverNext_quiet i).settles
  case drainCompletion =>
    rw [after_drainCompletion]
    split
    · exact Quiet.settles .refl
    · exact (Change.quiet (.drain ‹_›)).settles
  case segmentReadResponseFormed => exact (formRead_quiet _).settles
  case annotationReadResponseFormed => exact (formRead_quiet _).settles
  case refreshColumnRead =>
    rw [after_refreshColumnRead]
    split
    · exact readColumn_quiet.settles
    · exact Quiet.settles .refl
  case refreshSendComplete =>
    rw [after_refreshSendComplete]
    split
    · exact completeRefresh_quiet.settles
    · exact Quiet.settles .refl
  case segmentReadEntryTake => exact (readStep_quiet _ _).settles
  case annotationReadEntryTake => exact (readStep_quiet _ _).settles

/-! ## Invariants over the changes -/

/-- What every change keeps, every command keeps. -/
theorem after_keeps {P : State → Prop} (change : ∀ {s t}, P s → Change s t → P t)
    (ending : ∀ {s t}, P s → Ending s t → P t)
    (calibrate : ∀ {s} (channels : Lines) (seed tolerance : Nat), P s → s.calibrateRefusal = none →
      P (s.acceptCalibrate channels seed tolerance)) (c : Instr) (h : P s) : P (s.after c) := by
  have quiet {s t : State} (h : P s) (chain : Quiet s t) : P t := by
    induction chain with
    | refl => exact h
    | tail _ last ih => exact change ih last
  have changes {s t : State} (h : P s) (chain : Changes s t) : P t := by
    induction chain with
    | refl => exact h
    | tail _ last ih => exact last.elim (change ih) (ending ih)
  rcases after_runs (s := s) c with settles | ⟨channels, seed, tolerance, free, chain⟩
  · exact changes h settles.changes
  · exact quiet (calibrate channels seed tolerance h free) chain

/-- An invariant that says nothing of the queue of commands is kept by a step when every command keeps it. -/
theorem step_keeps {P : State → Prop} {t : State} (queue : ∀ (s : State) (rest : List Instr), P s → P (s.setPending rest))
    (after : ∀ (s : State) (c : Instr), P s → P (s.after c)) (h : P s) (stepped : step s = .next t) : P t := by
  cases waiting : s.pending with
  | nil =>
    unfold step at stepped
    rw [waiting] at stepped
    cases stepped
    exact h
  | cons c rest =>
    rw [step_front waiting, exec_next_iff] at stepped
    subst stepped
    exact after _ c (queue s rest h)

end Sys2Proof.Machine
end

section
/-! PROOFS. Capture memory at close range: the steps that a change of CAP is made of, and what they all keep. -/

namespace Sys2Proof.Machine

variable {s : State}

/-- A step inside an operation of capture memory. -/
inductive CapStep : State → State → Prop
  | raise {s : State} (n : Notice) (plain : n.index < 7 ∨ 10 < n.index) : CapStep s (s.raise n)
  | segment {s : State} (i : SegId) (g : Segment) : CapStep s (s.setSegment i g)
  | entries {s : State} (encoder : Encoder) (staged : List StagedEntry) (fires : List Fire) :
      CapStep s (s.setCap { s.cap with encoder, staged, fires })
  | annotations {s : State} (x : List StagedAnnotation)
      (depth : s.cap.stagedAnnotations.length ≤ Config.annotationFifoDepth → x.length ≤ Config.annotationFifoDepth) :
      CapStep s (s.setCap { s.cap with stagedAnnotations := x })
  | pages {s : State} (m : PageMap) (wf : PageMap.wf s.cap.pages → PageMap.wf m) :
      CapStep s (s.setCap { s.cap with pages := m })
  | pool {s : State} (pool : Chain) (m : PageMap) (wf : PageMap.wf s.cap.pages → PageMap.wf m) :
      CapStep s (s.setCap { s.cap with pages := m, pool := pool }).checkPool
  | drainOne {s : State} : CapStep s (s.setCap s.cap.drainOne)
  | port {s : State} : CapStep s s.settlePort
  | path {s : State} (path : List (List PathItem)) : CapStep s (s.setDec { s.dec with path })
  | trg {s : State} (x : Trg) (sound : s.triggerSound → (s.setTrg x).triggerSound) : CapStep s (s.setTrg x)

/-- A chain of steps inside capture memory. -/
abbrev CapSteps : State → State → Prop := Relation.ReflTransGen CapStep

theorem CapStep.one {s t : State} (h : CapStep s t) : CapSteps s t := .single h

theorem allocate_steps {owner : PageOwner} {c : Chain} {t : State} {chain : Chain}
    (h : s.allocate owner c = some (t, chain)) : CapSteps s t := by
  unfold State.allocate at h
  split at h
  · cases h
  · rename_i p pool _
    cases h
    exact .single (.pool _ _ fun wf => linkPage_wf wf c p owner)

theorem release_steps (c : Chain) : CapSteps s (s.release c) := by
  unfold State.release
  split
  · rename_i h t _ _
    extract_lets freed ended linked head src
    refine .single (.pool _ _ fun wf => ?_)
    have endedWf : PageMap.wf ended := PageMap.setNext_wf (ownPages_wf wf _ _) _ _
    dsimp only [linked]
    split
    · exact PageMap.setNext_wf endedWf _ _
    · exact endedWf
  · exact .refl

theorem vacate_steps (i : SegId) : CapSteps s (s.vacate i) :=
  .tail ((release_steps _).trans (release_steps _)) (.segment i {})

theorem retireNow_steps (i : SegId) : CapSteps s (s.retireNow i) :=
  .tail (vacate_steps i) (.raise .segmentRetired (.inl (by decide)))

theorem completeSeal_steps (i : SegId) : CapSteps s (s.completeSeal i) := by
  unfold State.completeSeal
  extract_lets _ t
  have done : CapSteps s t := .tail (.single (.segment i _)) (.raise .segmentSealed (.inl (by decide)))
  split
  · split
    · exact done.trans (retireNow_steps i)
    · exact done.tail (.segment i _)
  · exact done

theorem stopEncoder_steps (i : SegId) : CapSteps s (s.stopEncoder i) :=
  .tail (.single (.entries _ _ _)) (.segment i _)

theorem halt_step : CapStep s (s.setTrg s.trg.halt) := .trg _ fun sound => sound

theorem sealSegment_steps (i : SegId) (reason : SealReason) : CapSteps s (s.sealSegment i reason) := by
  unfold State.sealSegment
  extract_lets t _ u v
  have halted : CapSteps s v := ((stopEncoder_steps i).tail (.segment i _)).tail halt_step
  split
  · exact halted.trans (completeSeal_steps i)
  · exact halted.tail (.segment i _)

theorem sealIfComplete_steps (i : SegId) : CapSteps s (s.sealIfComplete i) := by
  unfold State.sealIfComplete
  extract_lets g
  split
  · exact sealSegment_steps i _
  · exact .refl

theorem openRecordPage_steps (i : SegId) : CapSteps s (s.openRecordPage i) := by
  unfold State.openRecordPage
  extract_lets g
  split
  · split
    · rename_i t chain allocated
      exact (allocate_steps allocated).tail (.segment i _)
    · exact .refl
  · exact .tail (.single (.pages _ fun wf => rotateChain_wf wf g.records)) (.segment i _)
  · exact .refl

theorem placeEntry_steps (i : SegId) (e : Entry) : CapSteps s (s.placeEntry i e) := by
  unfold State.placeEntry
  extract_lets opens header t g tick staged src
  have opened : CapSteps s t := by
    dsimp only [t]
    split
    · exact openRecordPage_steps i
    · exact .refl
  exact (opened.tail (.entries _ _ _)).tail (.segment i _)

theorem placeEntries_steps (i : SegId) (entries : List Entry) :
    CapSteps s (entries.foldl (fun s e => s.placeEntry i e) s) := by
  induction entries generalizing s with
  | nil => exact .refl
  | cons e rest ih => exact (placeEntry_steps i e).trans ih

theorem storeEntries_steps (i : SegId) (entries : List Entry) : CapSteps s (s.storeEntries i entries).1 := by
  unfold State.storeEntries
  extract_lets g needsPage refusal
  cases refusal with
  | some reason => exact sealSegment_steps i reason
  | none => exact placeEntries_steps i entries

theorem encodeSample_steps (stamp : Nat) (lines : Lines) : CapSteps s (s.encodeSample stamp lines) := by
  unfold State.encodeSample
  split
  case h_1 => exact .refl
  case h_2 i _ =>
    extract_lets g state d entries
    split
    · exact .refl
    · split
      · exact .single (.entries _ _ _)
      · exact (storeEntries_steps i entries).trans (sealIfComplete_steps i)
  case h_3 i _ =>
    split
    · exact .refl
    · extract_lets g d entries
      have stored := storeEntries_steps (s := s) i entries
      split
      · rename_i t refused
        rwa [refused] at stored
      · rename_i t kept
        rw [kept] at stored
        exact ((stored.tail (.entries _ _ _)).tail (.segment i _)).trans (sealIfComplete_steps i)

theorem discardStaged_steps (i : SegId) : CapSteps s (s.discardStaged i) := by
  unfold State.discardStaged
  extract_lets t g kept src
  have stopped : CapSteps s t := stopEncoder_steps i
  refine .tail (.tail (.tail stopped (.entries _ [] _)) (.annotations [] fun _ => Nat.zero_le _)) (.segment i _)

theorem placeAnnotation_steps (i : SegId) (a : Annotation)
    (room : s.cap.stagedAnnotations.length < Config.annotationFifoDepth) : CapSteps s (s.placeAnnotation i a) := by
  unfold State.placeAnnotation
  refine .tail (.single (.annotations _ fun _ => ?_)) (.segment i _)
  rw [List.length_append]
  exact room

theorem dropAnnotation_steps (i : SegId) : CapSteps s (s.dropAnnotation i) := .single (.segment i _)

theorem allocate_stagedAnnotations {owner : PageOwner} {c : Chain} {t : State} {chain : Chain}
    (h : s.allocate owner c = some (t, chain)) : t.cap.stagedAnnotations = s.cap.stagedAnnotations := by
  unfold State.allocate at h
  split at h
  · cases h
  · cases h
    simp

theorem writeAnnotation_steps (i : SegId) (r : Record) : CapSteps s (s.writeAnnotation i r) := by
  unfold State.writeAnnotation
  extract_lets g a
  split
  · exact dropAnnotation_steps i
  · rename_i room
    have room : s.cap.stagedAnnotations.length < Config.annotationFifoDepth :=
      Nat.lt_of_not_le fun full => room (.inl full)
    split
    · split
      · exact dropAnnotation_steps i
      · split
        · rename_i t chain allocated
          refine ((allocate_steps allocated).tail (.segment i _)).trans (placeAnnotation_steps i a ?_)
          rw [State.setSegment_stagedAnnotations, allocate_stagedAnnotations allocated]
          exact room
        · exact dropAnnotation_steps i
      · exact .trans (.tail (.single (.pages _ fun wf => rotateChain_wf wf g.annotations)) (.segment i _))
          (placeAnnotation_steps i a room)
    · exact placeAnnotation_steps i a room

theorem acceptFire_steps (i : SegId) (f : Fire) : CapSteps s (s.acceptFire i f) := by
  unfold State.acceptFire
  extract_lets g start early tick t u
  refine .trans ?_ (sealIfComplete_steps i)
  refine .tail ?_ (.raise .triggerFired (.inl (by decide)))
  exact .tail (.single (.segment i _)) (.trg t.trg.finish fun sound => sound)

theorem takeFire_steps (index : Nat) : CapSteps s (s.takeFire index) := by
  unfold State.takeFire
  split
  · exact .refl
  · rename_i f _
    extract_lets _ t
    have taken : CapSteps s t := .single (.entries _ _ _)
    split
    · split
      · exact taken.trans (acceptFire_steps _ f)
      · exact taken
    · exact taken

theorem drain_steps : CapSteps s s.drain := by
  unfold State.drain
  extract_lets t u
  refine .tail ?_ .port
  dsimp only [u]
  split
  · split
    · exact .trans (.single .drainOne) (completeSeal_steps _)
    · exact .single .drainOne
  · exact .single .drainOne

theorem zeroCounters_get (st : StageId) (b : BranchId) : zeroCounters[st][b] = 0 := replicate_get_get 0 st b

theorem beginCapture_steps (i : SegId) (records annotations : Chain) :
    CapSteps s (s.beginCapture i records annotations) := by
  unfold State.beginCapture
  extract_lets g state staged t u v
  refine .tail (.tail (.tail (.single (.segment i _)) (.entries _ _ _)) (.path _)) (.trg _ fun sound st b => ?_)
  obtain ⟨below, -⟩ := sound st b
  simp only [State.setTrg_trg, Trg.start, zeroCounters_get]
  exact ⟨Nat.zero_lt_of_lt below, fun _ => trivial⟩

theorem startCapture_steps (i : SegId) : CapSteps s (s.startCapture i) := by
  unfold State.startCapture
  split
  · exact .refl
  · rename_i first
    split
    · exact .refl
    · rename_i second
      exact ((allocate_steps first).trans (allocate_steps second)).trans (beginCapture_steps i _ _)

theorem Ending.steps {t : State} (h : Ending s t) : CapSteps s t := by
  cases h with
  | sealSegment i reason _ => exact sealSegment_steps i reason
  | abortVacated i _ => exact ((discardStaged_steps i).tail halt_step).trans (vacate_steps i)
  | abortPinned i _ => exact ((discardStaged_steps i).tail halt_step).tail (.segment i _)
  | encodeSample stamp lines => exact encodeSample_steps stamp lines
  | takeFire index => exact takeFire_steps index

end Sys2Proof.Machine
end

section
/-! PROOFS. Notices with their detail sets (O6), branch counters below their targets (O7) and memory in canonical form
(O3): each kept by every change, so by every step. -/

namespace Sys2Proof.Machine

variable {s t : State}

/-! ## Notices (R181) -/

theorem pending_or_other (p : BitVec 14) {k j : Nat} (other : k ≠ j) :
    (p ||| BitVec.twoPow 14 k).getLsbD j = p.getLsbD j := by
  rw [BitVec.getLsbD_or, BitVec.getLsbD_twoPow, decide_eq_false other, Bool.and_false, Bool.or_false]

/-- The pending set where a notice is raised by a set: raised by every member, by none of the empty set. -/
def raisedBy {w : Nat} (p : BitVec 14) (k : Nat) (x : BitVec w) : BitVec 14 :=
  if x = 0#w then p else p ||| BitVec.twoPow 14 k

theorem raisedBy_other {w : Nat} (p : BitVec 14) {k j : Nat} (x : BitVec w) (other : k ≠ j) :
    (raisedBy p k x).getLsbD j = p.getLsbD j := by
  unfold raisedBy
  split
  · rfl
  · exact pending_or_other p other

theorem raisedBy_other_iff {w : Nat} {p : BitVec 14} {k j : Nat} {Q : Prop} (x : BitVec w) (other : k ≠ j)
    (sound : p.getLsbD j = true ↔ Q) : (raisedBy p k x).getLsbD j = true ↔ Q := by
  rwa [raisedBy_other p x other]

/-- R181: raised by a set that joins the detail set, a kind stays pending exactly while its detail set is non-empty. -/
theorem raisedBy_same {w : Nat} {p : BitVec 14} {k : Nat} (kind : k < 14) {d : BitVec w} (x : BitVec w)
    (sound : p.getLsbD k = true ↔ d ≠ 0#w) : (raisedBy p k x).getLsbD k = true ↔ d ||| x ≠ 0#w := by
  unfold raisedBy
  split
  · subst_vars
    rwa [BitVec.or_zero]
  · rename_i some_
    rw [BitVec.getLsbD_or, BitVec.getLsbD_twoPow, decide_eq_true kind, decide_eq_true rfl, Bool.and_self, Bool.or_true,
      ne_eq, BitVec.or_eq_zero_iff]
    exact iff_of_true rfl fun empty => some_ empty.2

theorem noticesSound_raise (h : s.noticesSound) {n : Notice} (plain : n.index < 7 ∨ 10 < n.index) :
    (s.raise n).noticesSound := by
  obtain ⟨lock, error, glitch, activity⟩ := h
  have kept (j : Nat) (detail : 7 ≤ j ∧ j ≤ 10) : (s.raise n).cmd.pending.getLsbD j = s.cmd.pending.getLsbD j :=
    pending_or_other _ (by omega)
  unfold State.noticesSound
  rw [kept 7 (by decide), kept 8 (by decide), kept 9 (by decide), kept 10 (by decide)]
  exact ⟨lock, error, glitch, activity⟩

theorem noticesSound_raiseLock (h : s.noticesSound) (x : BitVec 16) : (s.raiseLock x).noticesSound := by
  obtain ⟨lock, error, glitch, activity⟩ := h
  rw [State.raiseLock_eq]
  exact ⟨raisedBy_same (by decide) x lock, raisedBy_other_iff x (by decide) error,
    raisedBy_other_iff x (by decide) glitch, raisedBy_other_iff x (by decide) activity⟩

theorem noticesSound_raiseError (h : s.noticesSound) (x : BitVec 16) : (s.raiseError x).noticesSound := by
  obtain ⟨lock, error, glitch, activity⟩ := h
  rw [State.raiseError_eq]
  exact ⟨raisedBy_other_iff x (by decide) lock, raisedBy_same (by decide) x error,
    raisedBy_other_iff x (by decide) glitch, raisedBy_other_iff x (by decide) activity⟩

theorem noticesSound_raiseGlitch (h : s.noticesSound) (x : Lines) : (s.raiseGlitch x).noticesSound := by
  obtain ⟨lock, error, glitch, activity⟩ := h
  rw [State.raiseGlitch_eq]
  exact ⟨raisedBy_other_iff x (by decide) lock, raisedBy_other_iff x (by decide) error,
    raisedBy_same (by decide) x glitch, raisedBy_other_iff x (by decide) activity⟩

theorem noticesSound_raiseActivity (h : s.noticesSound) (x : Lines) : (s.raiseActivity x).noticesSound := by
  obtain ⟨lock, error, glitch, activity⟩ := h
  rw [State.raiseActivity_eq]
  exact ⟨raisedBy_other_iff x (by decide) lock, raisedBy_other_iff x (by decide) error,
    raisedBy_other_iff x (by decide) glitch, raisedBy_same (by decide) x activity⟩

theorem noticesSound_of_cmd (h : s.noticesSound) (same : t.cmd = s.cmd) : t.noticesSound := by
  unfold State.noticesSound at *
  rw [same]
  exact h

theorem noticesSound_of_emptied (same : t.cmd = s.cmd.emptied) : t.noticesSound := by
  unfold State.noticesSound
  rw [same]
  unfold Cmd.emptied
  simp

theorem noticesSound_checkPool (h : s.noticesSound) : s.checkPool.noticesSound := by
  unfold State.checkPool
  split
  · split
    · exact noticesSound_raise (noticesSound_of_cmd h rfl) (.inl (by decide))
    · exact h
  · exact noticesSound_of_cmd h rfl

theorem CapStep.noticesSound (h : s.noticesSound) (step : CapStep s t) : t.noticesSound := by
  cases step with
  | raise n plain => exact noticesSound_raise h plain
  | segment | entries | annotations | pages | drainOne | path | trg => exact noticesSound_of_cmd h rfl
  | pool => exact noticesSound_checkPool (noticesSound_of_cmd h rfl)
  | port => exact noticesSound_of_cmd h s.settlePort_frame.2.2.2.2.2.2.1

/-- What every step inside capture memory keeps, a chain of them keeps. -/
theorem CapSteps.keep {P : State → Prop} (step : ∀ {s t}, P s → CapStep s t → P t) (h : P s) (chain : CapSteps s t) :
    P t := by
  induction chain with
  | refl => exact h
  | tail _ last ih => exact step ih last

theorem noticesSound_evaluate (h : s.noticesSound) (matched : UnitId → Bool) (tick : Nat) :
    (s.evaluate matched tick).noticesSound := by
  unfold State.evaluate
  split
  · exact noticesSound_of_cmd h rfl
  · unfold State.branchActions
    extract_lets u
    have raised : u.noticesSound := by
      dsimp only [u]
      split
      · exact noticesSound_raise (noticesSound_of_cmd h rfl) (.inl (by decide))
      · exact noticesSound_of_cmd h rfl
    split
    · exact noticesSound_of_cmd raised rfl
    · exact raised

theorem Change.noticesSound (h : s.noticesSound) (change : Change s t) : t.noticesSound := by
  cases change with
  | cmd x pending lock error glitch activity =>
    unfold State.noticesSound at *
    rw [State.setCmd_cmd, pending, lock, error, glitch, activity]
    exact h
  | emptied => exact noticesSound_of_emptied rfl
  | raise n plain => exact noticesSound_raise h plain
  | raiseGlitch x => exact noticesSound_raiseGlitch h x
  | raiseActivity x => exact noticesSound_raiseActivity h x
  | raiseLock x => exact noticesSound_raiseLock h x
  | raiseError x => exact noticesSound_raiseError h x
  | pfe | count | request | switching | settled | gapEnd | cal | dec | trg | dsp | capRest | prepare | segment =>
    exact noticesSound_of_cmd h rfl
  | endCalibration o => exact noticesSound_raise (noticesSound_of_cmd h rfl) (.inr (by decide))
  | evaluate matched tick => exact noticesSound_evaluate h matched tick
  | poolThreshold => exact noticesSound_checkPool (noticesSound_of_cmd h rfl)
  | retireNow i => exact (retireNow_steps i).keep CapStep.noticesSound h
  | startCapture i => exact (startCapture_steps i).keep CapStep.noticesSound h
  | writeAnnotation i r => exact (writeAnnotation_steps i r).keep CapStep.noticesSound h
  | drain => exact drain_steps.keep CapStep.noticesSound h
  | softReset => exact noticesSound_of_emptied s.softReset_cmd
  | powerOn => exact noticesSound_of_emptied (s := State.reset) rfl

end Sys2Proof.Machine
end

section
/-! PROOFS. The statements O6, O7 and O3, and the pool, the ranges and the models of O4. -/

namespace Sys2Proof.Machine

variable {s t : State}

theorem noticesSound_acceptCalibrate (h : s.noticesSound) (channels : Lines) (seed tolerance : Nat) :
    (s.acceptCalibrate channels seed tolerance).noticesSound := noticesSound_of_cmd h rfl

/-- Settles O6. -/
theorem stepKeepsDetailSetsWithTheirKinds : Obligations.StepKeepsDetailSetsWithTheirKinds :=
  fun _ _ => step_keeps (fun _ _ h => h) fun _ => after_keeps Change.noticesSound
    (fun h ending => ending.steps.keep CapStep.noticesSound h)
    fun channels seed tolerance h _ => noticesSound_acceptCalibrate h channels seed tolerance

/-! ## Branch counters (R160) -/

theorem triggerSound_of_trg (h : s.triggerSound) (same : t.trg = s.trg) : t.triggerSound := by
  unfold State.triggerSound at *
  rw [same]
  exact h

/-- Counters all 0, with the programming kept. -/
theorem triggerSound_of_zero (h : s.triggerSound) (branches : t.trg.branches = s.trg.branches)
    (zero : t.trg.counters = zeroCounters) : t.triggerSound := by
  intro st b
  obtain ⟨below, -⟩ := h st b
  rw [branches, zero, zeroCounters_get]
  exact ⟨Nat.zero_lt_of_lt below, fun _ => rfl⟩

/-- R160: an event that takes no branch leaves every counter below its target. -/
theorem triggerSound_count (h : s.triggerSound) {matched : UnitId → Bool} {counters : Vector Nat 4}
    (visited : visitBranches s.trg.branches[s.trg.stage] matched (everyId 4) s.trg.counters[s.trg.stage]
      = (counters, none)) :
    (s.setTrg { s.trg with counters := s.trg.counters.set s.trg.stage counters }).triggerSound := by
  obtain ⟨counted, -⟩ := visitBranches_spec s.trg.branches[s.trg.stage] matched (everyId 4)
    s.trg.counters[s.trg.stage] (by decide)
  rw [visited] at counted
  obtain ⟨short, value⟩ := counted rfl
  intro st b
  obtain ⟨below, outside⟩ := h st b
  rw [State.setTrg_trg]
  dsimp only
  rw [set_get]
  split
  · subst_vars
    rw [value b]
    refine ⟨?_, fun elsewhere => absurd rfl elsewhere⟩
    split
    · rename_i counts
      exact Nat.lt_of_le_of_ne below (short b counts.1 counts.2)
    · exact below
  · exact ⟨below, outside⟩

theorem triggerSound_evaluate (h : s.triggerSound) (matched : UnitId → Bool) (tick : Nat) :
    (s.evaluate matched tick).triggerSound := by
  unfold State.evaluate
  split
  · rename_i counters visited
    exact triggerSound_count h visited
  · refine triggerSound_of_zero h ?_ ?_ <;> unfold State.branchActions State.sendFire <;>
      repeat' split
    all_goals rfl

theorem reset_triggerSound : State.reset.triggerSound := by
  intro st b
  have branch : State.reset.trg.branches[st][b] = ⟨false, 0, 1, 0, false, false⟩ := replicate_get_get _ st b
  have counter : State.reset.trg.counters[st][b] = 0 := zeroCounters_get st b
  rw [branch, counter]
  exact ⟨Nat.zero_lt_one, fun _ => rfl⟩

theorem CapStep.triggerSound (h : s.triggerSound) (step : CapStep s t) : t.triggerSound := by
  cases step with
  | raise | segment | entries | annotations | pages | drainOne | path => exact h
  | pool => exact triggerSound_of_trg h (by simp)
  | port => exact triggerSound_of_trg h (by simp)
  | trg x sound => exact sound h

theorem Change.triggerSound (h : s.triggerSound) (change : Change s t) : t.triggerSound := by
  cases change with
  | cmd | emptied | raise | pfe | count | request | switching | settled | gapEnd | cal | dec | dsp | capRest | prepare
    | segment | endCalibration => exact h
  | raiseGlitch | raiseActivity | raiseLock | raiseError | poolThreshold => exact triggerSound_of_trg h (by simp)
  | trg x _ sound => exact sound h
  | evaluate matched tick => exact triggerSound_evaluate h matched tick
  | retireNow i => exact (retireNow_steps i).keep CapStep.triggerSound h
  | startCapture i => exact (startCapture_steps i).keep CapStep.triggerSound h
  | writeAnnotation i r => exact (writeAnnotation_steps i r).keep CapStep.triggerSound h
  | drain => exact drain_steps.keep CapStep.triggerSound h
  | softReset =>
    refine triggerSound_of_zero h (by simp) ?_
    rw [State.softReset_eq]
    rfl
  | powerOn => exact reset_triggerSound

/-- Settles O7. -/
theorem stepKeepsBranchCountersBelowTargets : Obligations.StepKeepsBranchCountersBelowTargets :=
  fun _ _ => step_keeps (fun _ _ h => h) fun _ => after_keeps Change.triggerSound
    (fun h ending => ending.steps.keep CapStep.triggerSound h) fun _ _ _ h _ => h

/-! ## Memory in canonical form (R43, R47) -/

theorem memoryCanonical_of_cap (h : s.memoryCanonical) (dram : t.cap.dram = s.cap.dram)
    (pages : t.cap.pages = s.cap.pages) : t.memoryCanonical := by
  unfold State.memoryCanonical at *
  rw [dram, pages]
  exact h

theorem Cap.drainOne_frame (c : Cap) : c.drainOne.pages = c.pages ∧ c.drainOne.pool = c.pool
    ∧ c.drainOne.segments = c.segments ∧ c.drainOne.encoder = c.encoder ∧ c.drainOne.poolThreshold = c.poolThreshold
    ∧ c.drainOne.poolArmed = c.poolArmed ∧ c.drainOne.fires = c.fires := by
  unfold Cap.drainOne
  repeat' split
  all_goals exact ⟨rfl, rfl, rfl, rfl, rfl, rfl, rfl⟩

theorem CapStep.memoryCanonical (h : s.memoryCanonical) (step : CapStep s t) : t.memoryCanonical := by
  cases step with
  | raise | segment | entries | annotations | path | trg => exact h
  | pages m wf => exact ⟨h.1, wf h.2⟩
  | pool pool m wf =>
    have mapped : (s.setCap { s.cap with pages := m, pool := pool }).memoryCanonical := ⟨h.1, wf h.2⟩
    exact memoryCanonical_of_cap mapped (by simp) (by simp)
  | drainOne =>
    refine ⟨s.cap.drainOne_wf h.1, ?_⟩
    rw [State.setCap_cap, s.cap.drainOne_frame.1]
    exact h.2
  | port => exact memoryCanonical_of_cap h (by simp) (by simp)

theorem reset_memoryCanonical : State.reset.memoryCanonical := ⟨reset_memory_wf, reset_pages_wf⟩

theorem Change.memoryCanonical (h : s.memoryCanonical) (change : Change s t) : t.memoryCanonical := by
  cases change with
  | cmd | emptied | raise | pfe | count | request | switching | settled | gapEnd | cal | dec | trg | dsp | capRest
    | prepare | segment | endCalibration => exact h
  | raiseGlitch | raiseActivity | raiseLock | raiseError | poolThreshold | evaluate =>
    exact memoryCanonical_of_cap h (by simp) (by simp)
  | retireNow i => exact (retireNow_steps i).keep CapStep.memoryCanonical h
  | startCapture i => exact (startCapture_steps i).keep CapStep.memoryCanonical h
  | writeAnnotation i r => exact (writeAnnotation_steps i r).keep CapStep.memoryCanonical h
  | drain => exact drain_steps.keep CapStep.memoryCanonical h
  | softReset =>
    rw [State.softReset_eq]
    exact ⟨h.1, reset_pages_wf⟩
  | powerOn => exact reset_memoryCanonical

/-- Settles O3. -/
theorem stepKeepsMemoryCanonical : Obligations.StepKeepsMemoryCanonical :=
  fun _ _ => step_keeps (fun _ _ h => h) fun _ => after_keeps Change.memoryCanonical
    (fun h ending => ending.steps.keep CapStep.memoryCanonical h) fun _ _ _ h _ => h

/-! ## The pool-low flag (R46) -/

theorem poolSound_checkPool (threshold : s.cap.poolThreshold ≤ 32768) : s.checkPool.poolSound := by
  rw [State.checkPool_eq]
  exact ⟨threshold, decide_eq_true_iff⟩

theorem poolSound_of_cap (h : s.poolSound) (threshold : t.cap.poolThreshold = s.cap.poolThreshold)
    (armed : t.cap.poolArmed = s.cap.poolArmed) (pool : t.cap.pool = s.cap.pool) : t.poolSound := by
  unfold State.poolSound at *
  rw [threshold, armed, pool]
  exact h

theorem settlePort_poolArmed (s : State) : s.settlePort.cap.poolArmed = s.cap.poolArmed := by
  unfold State.settlePort
  split <;> rfl

theorem CapStep.poolSound (h : s.poolSound) (step : CapStep s t) : t.poolSound := by
  cases step with
  | raise | segment | entries | annotations | path | trg | pages => exact h
  | pool => exact poolSound_checkPool h.1
  | drainOne =>
    obtain ⟨-, pool, -, -, threshold, armed, -⟩ := s.cap.drainOne_frame
    exact poolSound_of_cap h threshold armed pool
  | port => exact poolSound_of_cap h (by simp) (settlePort_poolArmed s) (by simp)


theorem evaluate_poolArmed (s : State) (matched : UnitId → Bool) (tick : Nat) :
    (s.evaluate matched tick).cap.poolArmed = s.cap.poolArmed := by
  obtain ⟨q, sent, n, -, e⟩ := evaluate_takesEvent s matched tick
  rw [e]

theorem reset_poolSound : State.reset.poolSound := by
  unfold State.poolSound
  decide

theorem Change.poolSound (h : s.poolSound) (change : Change s t) : t.poolSound := by
  cases change with
  | cmd | emptied | raise | pfe | count | request | switching | settled | gapEnd | cal | dec | trg | dsp | capRest
    | prepare | segment | endCalibration => exact h
  | raiseGlitch | raiseActivity | raiseLock | raiseError => exact poolSound_of_cap h (by simp) (by simp) (by simp)
  | evaluate matched tick => exact poolSound_of_cap h (by simp) (evaluate_poolArmed s matched tick) (by simp)
  | poolThreshold n => exact poolSound_checkPool (Nat.min_le_right _ _)
  | retireNow i => exact (retireNow_steps i).keep CapStep.poolSound h
  | startCapture i => exact (startCapture_steps i).keep CapStep.poolSound h
  | writeAnnotation i r => exact (writeAnnotation_steps i r).keep CapStep.poolSound h
  | drain => exact drain_steps.keep CapStep.poolSound h
  | softReset =>
    rw [State.softReset_eq]
    exact ⟨h.1, iff_of_true rfl h.1⟩
  | powerOn => exact reset_poolSound

theorem step_poolSound (h : s.poolSound) (stepped : step s = .next t) : t.poolSound :=
  step_keeps (fun _ _ h => h) (fun _ => after_keeps Change.poolSound
    (fun h ending => ending.steps.keep CapStep.poolSound h) fun _ _ _ h _ => h) h stepped

end Sys2Proof.Machine
end

section
/-! PROOFS. The ranges of registers, counters and FIFOs (O4, its first statement) and the flash target models (its third). -/

namespace Sys2Proof.Machine

variable {s t : State}

/-! ## Contexts at the ends of gaps and of calibrations -/

theorem Context.reclamp_engines (level : Level) (c : Context) :
    (c.reclamp level).asyncSettings = c.asyncSettings ∧ (c.reclamp level).protocol = c.protocol
      ∧ (c.reclamp level).flashEngine = c.flashEngine ∧ (c.inRange → (c.reclamp level).inRange) := by
  unfold Context.reclamp
  split <;> exact ⟨rfl, rfl, rfl, fun h => h⟩

theorem Context.gapEnd_engines (level : Level) (c : Context) :
    (c.gapEnd level).asyncSettings = c.asyncSettings ∧ (c.gapEnd level).protocol = c.protocol
      ∧ (c.gapEnd level).flashEngine = c.flashEngine ∧ (c.inRange → (c.gapEnd level).inRange) := by
  unfold Context.gapEnd
  split
  · split
    · exact ⟨rfl, rfl, rfl, fun h => h⟩
    · split
      · exact ⟨rfl, rfl, rfl, fun h => h⟩
      · exact Context.reclamp_engines level
          { c with afterGap := if c.state = .running then c.afterGap else true, fresh := true, state := .running }
  · exact ⟨rfl, rfl, rfl, fun h => h⟩

theorem Context.resumeFromCal_engines (c : Context) :
    c.resumeFromCal.asyncSettings = c.asyncSettings ∧ c.resumeFromCal.protocol = c.protocol
      ∧ c.resumeFromCal.flashEngine = c.flashEngine ∧ c.resumeFromCal.asyncEngine = c.asyncEngine
      ∧ (c.inRange → c.resumeFromCal.inRange) := by
  unfold Context.resumeFromCal
  split <;> exact ⟨rfl, rfl, rfl, rfl, fun h => h⟩

theorem Context.suspendForCal_engines (c : Context) :
    c.suspendForCal.asyncSettings = c.asyncSettings ∧ c.suspendForCal.protocol = c.protocol
      ∧ c.suspendForCal.flashEngine.model = c.flashEngine.model
      ∧ c.suspendForCal.asyncEngine.period = c.asyncEngine.period ∧ (c.inRange → c.suspendForCal.inRange) := by
  unfold Context.suspendForCal Context.gap
  split
  · split <;> exact ⟨rfl, rfl, rfl, rfl, fun h => h⟩
  · exact ⟨rfl, rfl, rfl, rfl, fun h => h⟩

/-- Every context replaced by its image keeps what the image keeps. -/
theorem contexts_map {P : Context → Prop} {contexts : Vector Context 16} {f : Context → Context}
    (h : ∀ i : CtxId, P contexts[i]) (kept : ∀ c, P c → P (f c)) (i : CtxId) : P (contexts.map f)[i] := by
  rw [map_get]
  exact kept _ (h i)

/-! ## Ranges -/

theorem inRange_of_fields (h : s.inRange) (pfe : t.pfe = s.pfe) (cal : t.cal = s.cal) (lvl : t.lvl = s.lvl)
    (threshold : t.cap.poolThreshold = s.cap.poolThreshold)
    (annotations : t.cap.stagedAnnotations = s.cap.stagedAnnotations) (dec : t.dec = s.dec) (dsp : t.dsp = s.dsp) :
    t.inRange where
  pfe := pfe ▸ h.pfe
  cal := cal ▸ h.cal
  count := lvl ▸ h.count
  poolThreshold := threshold ▸ h.poolThreshold
  stagedAnnotations := annotations ▸ h.stagedAnnotations
  contexts := dec ▸ h.contexts
  queue := dec ▸ h.queue
  span := dec ▸ h.span
  threshold := dec ▸ h.threshold
  rows := dsp ▸ h.rows

theorem inRange_setCap (h : s.inRange) {c : Cap} (threshold : c.poolThreshold ≤ Config.pageCount)
    (annotations : c.stagedAnnotations.length ≤ Config.annotationFifoDepth) : (s.setCap c).inRange where
  pfe := h.pfe
  cal := h.cal
  count := h.count
  poolThreshold := threshold
  stagedAnnotations := annotations
  contexts := h.contexts
  queue := h.queue
  span := h.span
  threshold := h.threshold
  rows := h.rows

theorem inRange_setDec (h : s.inRange) {d : Dec} (contexts : ∀ i : CtxId, d.contexts[i].inRange)
    (queue : d.queueSound) : (s.setDec d).inRange where
  pfe := h.pfe
  cal := h.cal
  count := h.count
  poolThreshold := h.poolThreshold
  stagedAnnotations := h.stagedAnnotations
  contexts := contexts
  queue := queue.1
  span := queue.2.1
  threshold := queue.2.2
  rows := h.rows

theorem State.inRange.queueSound (h : s.inRange) : s.dec.queueSound := ⟨h.queue, h.span, h.threshold⟩

theorem Cap.drainOne_annotations (c : Cap) : c.drainOne.stagedAnnotations.length ≤ c.stagedAnnotations.length := by
  unfold Cap.drainOne
  split
  · split <;> exact le_rfl
  · split
    · rename_i staged
      rw [staged]
      exact Nat.le_succ _
    · exact le_rfl

theorem CapStep.inRange (h : s.inRange) (step : CapStep s t) : t.inRange := by
  cases step with
  | raise | segment | entries | trg | pages => exact inRange_of_fields h rfl rfl rfl rfl rfl rfl rfl
  | path => exact inRange_setDec h h.contexts h.queueSound
  | annotations x depth => exact inRange_setCap h h.poolThreshold (depth h.stagedAnnotations)
  | pool pool m _ =>
    have mapped : (s.setCap { s.cap with pages := m, pool := pool }).inRange :=
      inRange_setCap h h.poolThreshold h.stagedAnnotations
    refine inRange_of_fields mapped ?_ ?_ ?_ ?_ ?_ ?_ ?_
    all_goals simp
  | drainOne =>
    refine inRange_setCap h ?_ (Nat.le_trans s.cap.drainOne_annotations h.stagedAnnotations)
    rw [s.cap.drainOne_frame.2.2.2.2.1]
    exact h.poolThreshold
  | port => exact inRange_of_fields h (by simp) (by simp) (by simp) (by simp) (by simp) (by simp) (by simp)

theorem reset_inRange : State.reset.inRange where
  pfe := by simp only [Pfe.inRange, FrontEnd.inRange]; decide
  cal := by simp only [Cal.inRange]; decide
  count := by decide
  poolThreshold := by decide
  stagedAnnotations := by decide
  contexts := by simp only [Context.inRange]; decide
  queue := by decide
  span := by decide
  threshold := by decide
  rows := by decide

theorem softReset_inRange (h : s.inRange) : s.softReset.inRange := by
  rw [State.softReset_eq]
  obtain ⟨full, economy, glitch, quiet, -⟩ := h.pfe
  refine { reset_inRange with
    pfe := ⟨full, economy, glitch, quiet, reset_inRange.pfe.2.2.2.2⟩
    count := Nat.zero_le _
    poolThreshold := h.poolThreshold
    threshold := h.threshold }

theorem Change.inRange (h : s.inRange) (change : Change s t) : t.inRange := by
  cases change with
  | cmd | emptied | raise | trg | capRest | prepare | segment =>
    exact inRange_of_fields h rfl rfl rfl rfl rfl rfl rfl
  | request | settled => exact { h with count := h.count }
  | raiseGlitch | raiseActivity | raiseLock | raiseError | evaluate =>
    exact inRange_of_fields h (by simp) (by simp) (by simp) (by simp) (by simp) (by simp) (by simp)
  | pfe x range => exact { h with pfe := range h.pfe }
  | count n e range => exact { h with count := range h.count }
  | switching x target _ count _ => exact { h with count := (by rw [State.setLvl_lvl, count]; exact h.count) }
  | gapEnd level =>
    exact inRange_setDec h (contexts_map h.contexts fun c => (c.gapEnd_engines level).2.2.2) h.queueSound
  | cal x range => exact { h with cal := range h.cal }
  | endCalibration o =>
    have idle : (s.setCal { s.cal with state := .idle, driven := false, outcome := o }).inRange :=
      { h with cal := h.cal }
    exact { idle with contexts := contexts_map h.contexts fun c => c.resumeFromCal_engines.2.2.2.2 }
  | dec x _ contexts queue => exact inRange_setDec h (fun i => (contexts i).range (h.contexts i)) (queue h.queueSound)
  | dsp x rows => exact { h with rows := rows h.rows }
  | poolThreshold n =>
    have written : (s.setCap { s.cap with poolThreshold := min n Config.pageCount }).inRange :=
      inRange_setCap h (Nat.min_le_right _ _) h.stagedAnnotations
    exact inRange_of_fields written (by simp) (by simp) (by simp) (by simp) (by simp) (by simp) (by simp)
  | retireNow i => exact (retireNow_steps i).keep CapStep.inRange h
  | startCapture i => exact (startCapture_steps i).keep CapStep.inRange h
  | writeAnnotation i r => exact (writeAnnotation_steps i r).keep CapStep.inRange h
  | drain => exact drain_steps.keep CapStep.inRange h
  | softReset => exact softReset_inRange h
  | powerOn => exact inRange_of_fields reset_inRange rfl rfl rfl rfl rfl rfl rfl

/-- R30, R32: an accepted seed is a register value other than all zeros. -/
theorem clampSeed_inRange (seed : Nat) :
    (1 ≤ clampSeed seed ∧ clampSeed seed ≤ 32767) ∧ BitVec.ofNat 15 (clampSeed seed) ≠ 0#15 := by
  have bounds : 1 ≤ clampSeed seed ∧ clampSeed seed ≤ 32767 := by
    unfold clampSeed
    split <;> omega
  refine ⟨bounds, fun zero => ?_⟩
  have value := congrArg BitVec.toNat zero
  simp only [BitVec.toNat_ofNat] at value
  omega

theorem acceptCalibrate_inRange (h : s.inRange) (channels : Lines) (seed tolerance : Nat) :
    (s.acceptCalibrate channels seed tolerance).inRange := by
  obtain ⟨bounds, pattern⟩ := clampSeed_inRange seed
  have suspended : s.suspendContexts.inRange :=
    inRange_setDec h (contexts_map h.contexts fun c => c.suspendForCal_engines.2.2.2.2) h.queueSound
  exact { suspended with cal := ⟨bounds, Nat.min_le_right _ _, pattern⟩ }

theorem step_inRange (h : s.inRange) (stepped : step s = .next t) : t.inRange :=
  step_keeps (fun _ _ h => inRange_of_fields h rfl rfl rfl rfl rfl rfl rfl) (fun _ => after_keeps Change.inRange
    (fun h ending => ending.steps.keep CapStep.inRange h)
    fun channels seed tolerance h _ => acceptCalibrate_inRange h channels seed tolerance) h stepped

/-! ## The flash target models (R132 to R134) -/

theorem modelsSound_of_dec (h : s.modelsSound) (same : t.dec = s.dec) : t.modelsSound := by
  unfold State.modelsSound at *
  rw [same]
  exact h

theorem CapStep.modelsSound (h : s.modelsSound) (step : CapStep s t) : t.modelsSound := by
  cases step with
  | raise | segment | entries | annotations | pages | drainOne | trg | path => exact h
  | pool => exact modelsSound_of_dec h (by simp)
  | port => exact modelsSound_of_dec h (by simp)

theorem reset_modelsSound : State.reset.modelsSound := by
  intro i
  have fresh : State.reset.dec.contexts[i] = {} := replicate_get _ i
  rw [fresh]
  exact nofun

theorem modelsSound_map (h : s.modelsSound) {f : Context → Context}
    (model : ∀ c, c.flashEngine.model.sound → (f c).flashEngine.model.sound)
    (mapped : t.dec.contexts = s.dec.contexts.map f) : t.modelsSound := by
  intro i
  rw [mapped]
  exact contexts_map (P := fun c => c.flashEngine.model.sound) h model i

theorem Change.modelsSound (h : s.modelsSound) (change : Change s t) : t.modelsSound := by
  cases change with
  | cmd | emptied | raise | pfe | count | request | switching | settled | cal | trg | dsp | capRest | prepare | segment =>
    exact h
  | raiseGlitch | raiseActivity | raiseLock | raiseError | poolThreshold | evaluate =>
    exact modelsSound_of_dec h (by simp)
  | gapEnd level => exact modelsSound_map h (fun c kept => (c.gapEnd_engines level).2.2.1 ▸ kept) rfl
  | endCalibration o => exact modelsSound_map h (fun c kept => c.resumeFromCal_engines.2.2.1 ▸ kept) rfl
  | dec x _ contexts _ => exact fun i => (contexts i).model (h i)
  | retireNow i => exact (retireNow_steps i).keep CapStep.modelsSound h
  | startCapture i => exact (startCapture_steps i).keep CapStep.modelsSound h
  | writeAnnotation i r => exact (writeAnnotation_steps i r).keep CapStep.modelsSound h
  | drain => exact drain_steps.keep CapStep.modelsSound h
  | softReset =>
    rw [State.softReset_eq]
    exact reset_modelsSound
  | powerOn => exact reset_modelsSound

theorem step_modelsSound (h : s.modelsSound) (stepped : step s = .next t) : t.modelsSound :=
  step_keeps (fun _ _ h => h) (fun _ => after_keeps Change.modelsSound
    (fun h ending => ending.steps.keep CapStep.modelsSound h)
    fun _ _ _ h _ => modelsSound_map h (fun c kept => c.suspendForCal_engines.2.2.1 ▸ kept) rfl) h stepped

end Sys2Proof.Machine
end

section
/-! PROOFS. One capture at most, with encoder and sequencer following it (O5): what each operation does to the states of
the segments, and that every change keeps the invariant. -/

namespace Sys2Proof.Machine

variable {s t u : State} {i : SegId}

/-! ## What an operation leaves of the segments' states -/

/-- Every segment keeps its state and its drain-pending flag. -/
def State.SameSegments (s t : State) : Prop :=
  ∀ j : SegId, t.cap.segments[j].state = s.cap.segments[j].state
    ∧ t.cap.segments[j].drainPending = s.cap.segments[j].drainPending

theorem State.SameSegments.of_eq (same : t.cap.segments = s.cap.segments) : s.SameSegments t := fun j => by
  rw [same]
  exact ⟨rfl, rfl⟩

theorem State.SameSegments.trans (h : s.SameSegments t) (g : t.SameSegments u) : s.SameSegments u := fun j =>
  ⟨(g j).1.trans (h j).1, (g j).2.trans (h j).2⟩

theorem State.SameSegments.setCap {c : Cap} (same : c.segments = s.cap.segments) : s.SameSegments (s.setCap c) :=
  .of_eq same

theorem setSegment_get (s : State) (i : SegId) (g : Segment) (j : SegId) :
    (s.setSegment i g).cap.segments[j] = if j = i then g else s.cap.segments[j] := set_get _ _ _ _

theorem State.SameSegments.setSegment {g : Segment} (state : g.state = s.cap.segments[i].state)
    (drains : g.drainPending = s.cap.segments[i].drainPending) : s.SameSegments (s.setSegment i g) := fun j => by
  rw [setSegment_get]
  split
  · subst_vars
    exact ⟨state, drains⟩
  · exact ⟨rfl, rfl⟩

theorem State.SameSegments.captures_iff (h : s.SameSegments t) (j : SegId) : t.captures j ↔ s.captures j := by
  unfold State.captures
  rw [(h j).1]

theorem State.SameSegments.holdsEncoder_iff (h : s.SameSegments t) (j : SegId) :
    t.holdsEncoder j ↔ s.holdsEncoder j := by
  unfold State.holdsEncoder
  rw [h.captures_iff, (h j).2]

theorem allocate_segments {owner : PageOwner} {c chain : Chain} (h : s.allocate owner c = some (t, chain)) :
    t.cap.segments = s.cap.segments := by
  unfold State.allocate at h
  split at h
  · cases h
  · cases h
    simp

theorem openRecordPage_same (s : State) (i : SegId) : s.SameSegments (s.openRecordPage i) := by
  unfold State.openRecordPage
  extract_lets g
  split
  · split
    · rename_i t chain allocated
      have allocated := State.SameSegments.of_eq (allocate_segments allocated)
      exact allocated.trans (.setSegment rfl rfl)
    · exact .of_eq rfl
  · exact State.SameSegments.trans (.of_eq rfl) (.setSegment rfl rfl)
  · exact .of_eq rfl

theorem placeEntry_same (s : State) (i : SegId) (e : Entry) : s.SameSegments (s.placeEntry i e) := by
  unfold State.placeEntry
  extract_lets opens header t g tick staged _
  have opened : s.SameSegments t := by
    dsimp only [t]
    split
    · exact openRecordPage_same s i
    · exact .of_eq rfl
  refine opened.trans (State.SameSegments.trans (.of_eq rfl) (.setSegment ?_ ?_))
  all_goals rfl

theorem stopEncoder_same (s : State) (i : SegId) : s.SameSegments (s.stopEncoder i) :=
  State.SameSegments.trans (.of_eq rfl) (.setSegment rfl rfl)

theorem placeAnnotation_same (s : State) (i : SegId) (a : Annotation) : s.SameSegments (s.placeAnnotation i a) :=
  State.SameSegments.trans (.of_eq rfl) (.setSegment rfl rfl)

theorem writeAnnotation_same (s : State) (i : SegId) (r : Record) : s.SameSegments (s.writeAnnotation i r) := by
  unfold State.writeAnnotation
  extract_lets g a
  split
  · exact .setSegment rfl rfl
  · split
    · split
      · exact .setSegment rfl rfl
      · split
        · rename_i t chain allocated
          have allocated := State.SameSegments.of_eq (allocate_segments allocated)
          refine State.SameSegments.trans (.trans allocated (.setSegment ?_ ?_)) (placeAnnotation_same _ i a)
          all_goals rfl
        · exact .setSegment rfl rfl
      · refine State.SameSegments.trans (.trans (.setCap ?_) (.setSegment ?_ ?_)) (placeAnnotation_same _ i a)
        all_goals rfl
    · exact placeAnnotation_same s i a

theorem vacate_segments (s : State) (i : SegId) : (s.vacate i).cap.segments = s.cap.segments.set i {} := by
  unfold State.vacate State.setSegment
  simp

theorem vacate_get (s : State) (i j : SegId) :
    (s.vacate i).cap.segments[j] = if j = i then {} else s.cap.segments[j] := by
  simp only [vacate_segments, set_get]

theorem retireNow_get (s : State) (i j : SegId) :
    (s.retireNow i).cap.segments[j] = if j = i then {} else s.cap.segments[j] := vacate_get s i j

/-- R71, R77: the seal completion leaves its segment sealed, retiring or vacant, with no drain pending, and the others as
they were. -/
theorem completeSeal_get (s : State) (i j : SegId) :
    (j ≠ i → (s.completeSeal i).cap.segments[j] = s.cap.segments[j])
      ∧ (s.completeSeal i).cap.segments[i].drainPending = false
      ∧ ((s.completeSeal i).cap.segments[i].state = s.cap.segments[i].state
        ∨ (s.completeSeal i).cap.segments[i].state = .retiring
        ∨ (s.completeSeal i).cap.segments[i].state = .vacant) := by
  have done (k : SegId) : ((s.setSegment i { s.segment i with drainPending := false }).raise
      .segmentSealed).cap.segments[k] = if k = i then { s.cap.segments[i] with drainPending := false }
        else s.cap.segments[k] := setSegment_get _ _ _ _
  unfold State.completeSeal
  extract_lets _ t
  split
  · split
    · rw [retireNow_get, retireNow_get, if_pos rfl]
      exact ⟨fun other => by rw [if_neg other, done, if_neg other], rfl, .inr (.inr rfl)⟩
    · rw [setSegment_get, setSegment_get, if_pos rfl]
      refine ⟨fun other => by rw [if_neg other, done, if_neg other], ?_, .inr (.inl rfl)⟩
      show t.cap.segments[i].drainPending = false
      rw [done, if_pos rfl]
  · rw [done, done, if_pos rfl]
    exact ⟨fun other => by rw [if_neg other], rfl, .inl rfl⟩

end Sys2Proof.Machine
end

section
/-! PROOFS. One capture at most (O5): every change keeps it. -/

namespace Sys2Proof.Machine

variable {s t u : State} {i : SegId}

/-! ## Changes that begin and end no capture -/

/-- A change under which every segment keeps its state and its drain, encoder and sequencer keep serving what they
served, and entries are staged or unstaged only while a segment holds the encoder. -/
theorem captureSound_of_same (h : s.captureSound) (same : s.SameSegments t)
    (staged : ∀ i : SegId, s.cap.segments[i].drainPending = true → ¬ t.nothingStaged) (holder : ¬ t.nothingStaged → ∃ i, s.holdsEncoder i)
    (fifo : t.cap.staged.length ≤ Config.transitionFifoDepth)
    (idle : t.cap.encoder.state = .idle ↔ s.cap.encoder.state = .idle)
    (serves : ∀ i, t.cap.encoder.state = .encoding i ∨ t.cap.encoder.state = .dropping i →
      s.cap.encoder.state = .encoding i ∨ s.cap.encoder.state = .dropping i)
    (trg : t.trg.state = s.trg.state)
    (steady : (∃ i, s.captures i) → t.lvl.transition = .steady ∧ t.cal.state = .idle) : t.captureSound where
  unique i j hi hj := h.unique i j ((same.holdsEncoder_iff i).mp hi) ((same.holdsEncoder_iff j).mp hj)
  drains i draining := by
    rw [(same i).2] at draining
    exact ⟨(same i).1.trans (h.drains i draining).1, staged i draining⟩
  staged some_ := by
    obtain ⟨i, holds⟩ := holder some_
    exact ⟨i, (same.holdsEncoder_iff i).mpr holds⟩
  fifo := fifo
  encoderIdle := by
    unfold State.noCapture
    simp only [same.captures_iff]
    exact idle.trans h.encoderIdle
  encoderServes i serving := (same.captures_iff i).mpr (h.encoderServes i (serves i serving))
  running := by
    simp only [(same _).1, trg]
    exact h.running
  finished := by
    simp only [(same _).1, trg]
    exact h.finished
  steady capturing := by
    simp only [same.captures_iff] at capturing
    exact steady capturing

/-- A change outside capture memory and the sequencer's state. -/
theorem captureSound_of_cap (h : s.captureSound) (segments : t.cap.segments = s.cap.segments)
    (staged : t.cap.staged = s.cap.staged) (annotations : t.cap.stagedAnnotations = s.cap.stagedAnnotations)
    (encoder : t.cap.encoder = s.cap.encoder) (trg : t.trg.state = s.trg.state)
    (steady : (∃ i, s.captures i) → t.lvl.transition = .steady ∧ t.cal.state = .idle) : t.captureSound := by
  have nothing : t.nothingStaged ↔ s.nothingStaged := by
    unfold State.nothingStaged
    rw [staged, annotations]
  exact captureSound_of_same h (.of_eq segments) (fun i draining none => (h.drains i draining).2 (nothing.mp none))
    (fun some_ => h.staged fun none => some_ (nothing.mpr none)) (by rw [staged]; exact h.fifo) (by rw [encoder])
    (fun _ => by rw [encoder]; exact fun serving => serving) trg steady

theorem captureSound_of_blocks (h : s.captureSound) (segments : t.cap.segments = s.cap.segments)
    (staged : t.cap.staged = s.cap.staged) (annotations : t.cap.stagedAnnotations = s.cap.stagedAnnotations)
    (encoder : t.cap.encoder = s.cap.encoder) (trg : t.trg.state = s.trg.state)
    (lvl : t.lvl.transition = s.lvl.transition) (cal : t.cal.state = s.cal.state) : t.captureSound :=
  captureSound_of_cap h segments staged annotations encoder trg fun capturing => by
    rw [lvl, cal]
    exact h.steady capturing

/-! ## One segment that holds no encoder replaced by another -/

/-- A segment that neither captures nor drains replaced by one that does neither. -/
theorem captureSound_replace (h : s.captureSound) (before : ¬ s.holdsEncoder i)
    (others : ∀ j, j ≠ i → t.cap.segments[j] = s.cap.segments[j]) (after : ¬ t.holdsEncoder i)
    (staged : t.cap.staged = s.cap.staged) (annotations : t.cap.stagedAnnotations = s.cap.stagedAnnotations)
    (encoder : t.cap.encoder = s.cap.encoder) (trg : t.trg.state = s.trg.state)
    (lvl : t.lvl.transition = s.lvl.transition) (cal : t.cal.state = s.cal.state) : t.captureSound := by
  have captures (j : SegId) : t.captures j ↔ s.captures j := by
    by_cases here : j = i
    · subst here
      exact iff_of_false (fun c => after (.inl c)) fun c => before (.inl c)
    · unfold State.captures
      rw [others j here]
  have drains (j : SegId) : t.cap.segments[j].drainPending = true ↔ s.cap.segments[j].drainPending = true := by
    by_cases here : j = i
    · subst here
      exact iff_of_false (fun d => after (.inr d)) fun d => before (.inr d)
    · rw [others j here]
  have holds (j : SegId) : t.holdsEncoder j ↔ s.holdsEncoder j := or_congr (captures j) (drains j)
  have state {k : SegState} (capturing : k = .preTrigger ∨ k = .postTrigger) :
      (∃ j : SegId, t.cap.segments[j].state = k) ↔ ∃ j : SegId, s.cap.segments[j].state = k := by
    refine exists_congr fun j => ?_
    by_cases here : j = i
    · subst here
      refine iff_of_false (fun e => after (.inl ?_)) fun e => before (.inl ?_)
      all_goals
        unfold State.captures
        rw [e]
        exact capturing
    · rw [others j here]
  have nothing : t.nothingStaged ↔ s.nothingStaged := by
    unfold State.nothingStaged
    rw [staged, annotations]
  exact
    { unique := fun j k hj hk => h.unique j k ((holds j).mp hj) ((holds k).mp hk)
      drains := fun j draining => by
        have draining' := (drains j).mp draining
        have other : j ≠ i := fun here => before (here ▸ .inr draining')
        rw [others j other, nothing]
        exact h.drains j draining'
      staged := fun some_ => by
        obtain ⟨j, holding⟩ := h.staged fun none => some_ (nothing.mpr none)
        exact ⟨j, (holds j).mpr holding⟩
      fifo := by rw [staged]; exact h.fifo
      encoderIdle := by
        unfold State.noCapture
        simp only [encoder, captures]
        exact h.encoderIdle
      encoderServes := fun j => by
        rw [encoder, captures]
        exact h.encoderServes j
      running := by rw [trg, state (.inl rfl)]; exact h.running
      finished := by rw [trg, state (.inr rfl)]; exact h.finished
      steady := fun capturing => by
        simp only [captures] at capturing
        rw [lvl, cal]
        exact h.steady capturing }

/-! ## The end of a capture -/

/-- What is left where the capture of one segment has ended: encoder and sequencer IDLE, and the segment draining
exactly while something is staged. -/
structure State.EndsCapture (s t : State) (i : SegId) : Prop where
  others : ∀ j, j ≠ i → t.cap.segments[j] = s.cap.segments[j]
  ended : ¬ t.captures i
  drains : t.cap.segments[i].drainPending = true → t.cap.segments[i].state = .sealed ∧ ¬ t.nothingStaged
  staged : ¬ t.nothingStaged → t.cap.segments[i].drainPending = true
  fifo : t.cap.staged.length ≤ Config.transitionFifoDepth
  encoder : t.cap.encoder.state = .idle
  trg : t.trg.state = .idle

theorem captureSound_of_ends (h : s.captureSound) (held : s.holdsEncoder i) (ends : s.EndsCapture t i) :
    t.captureSound := by
  have alone (j : SegId) (other : j ≠ i) : ¬ t.holdsEncoder j := by
    unfold State.holdsEncoder State.captures
    rw [ends.others j other]
    exact fun holds => other (h.unique j i holds held)
  have without : t.noCapture := fun j capturing => by
    by_cases here : j = i
    · exact ends.ended (here ▸ capturing)
    · exact alone j here (.inl capturing)
  have none {k : SegState} (capturing : k = .preTrigger ∨ k = .postTrigger) :
      ¬ ∃ j : SegId, t.cap.segments[j].state = k := by
    rintro ⟨j, rfl⟩
    exact without j capturing
  have holder (j : SegId) (holds : t.holdsEncoder j) : j = i := by
    by_contra other
    exact alone j other holds
  exact
    { unique := fun j k hj hk => (holder j hj).trans (holder k hk).symm
      drains := fun j draining => by
        obtain rfl := holder j (.inr draining)
        exact ends.drains draining
      staged := fun some_ => ⟨i, .inr (ends.staged some_)⟩
      fifo := ends.fifo
      encoderIdle := iff_of_true ends.encoder without
      encoderServes := fun j serving => by
        rw [ends.encoder] at serving
        rcases serving with e | e <;> cases e
      running := iff_of_false (by rw [ends.trg]; nofun) (none (.inl rfl))
      finished := iff_of_false (by rw [ends.trg]; nofun) (none (.inr rfl))
      steady := fun ⟨j, capturing⟩ => absurd capturing (without j) }

theorem not_captures_of_state {k : SegState} (state : t.cap.segments[i].state = k) (other : k ≠ .preTrigger)
    (other' : k ≠ .postTrigger) : ¬ t.captures i := by
  unfold State.captures
  rw [state]
  exact not_or.mpr ⟨other, other'⟩

theorem State.captureSound.drainFree (h : s.captureSound) (captures : s.captures i) :
    s.cap.segments[i].drainPending = false := by
  refine Bool.eq_false_iff.mpr fun draining => ?_
  exact not_captures_of_state (h.drains i draining).1 nofun nofun captures

theorem stopEncoder_others (s : State) {i j : SegId} (other : j ≠ i) :
    (s.stopEncoder i).cap.segments[j] = s.cap.segments[j] := by
  unfold State.stopEncoder
  extract_lets _ dropping _
  rw [setSegment_get, if_neg other]
  rfl

/-- R70: the segment sealed, encoder and sequencer stopped, with the drain still to be decided. -/
def State.sealing (s : State) (i : SegId) (reason : SealReason) : State :=
  let s := s.stopEncoder i
  let s := s.setSegment i { s.segment i with state := .sealed, sealReason := some reason }
  s.setTrg s.trg.halt

theorem sealSegment_eq (s : State) (i : SegId) (reason : SealReason) : s.sealSegment i reason =
    if s.cap.staged = [] ∧ s.cap.stagedAnnotations = [] then (s.sealing i reason).completeSeal i
    else (s.sealing i reason).setSegment i { (s.sealing i reason).segment i with drainPending := true } := by
  unfold State.sealSegment
  extract_lets t _ u v
  have staged : v.cap.staged = s.cap.staged := (s.stopEncoder_frame i).2.2.2.2.2.2.2.2.2.1
  have annotations : v.cap.stagedAnnotations = s.cap.stagedAnnotations := (s.stopEncoder_frame i).2.2.2.2.2.2.2.2.2.2.1
  rw [staged, annotations]
  rfl

theorem sealing_segment (s : State) (i : SegId) (reason : SealReason) :
    (s.sealing i reason).cap.segments[i].state = .sealed
      ∧ ∀ j, j ≠ i → (s.sealing i reason).cap.segments[j] = s.cap.segments[j] := by
  have written (j : SegId) : (s.sealing i reason).cap.segments[j] =
      if j = i then { (s.stopEncoder i).segment i with state := .sealed, sealReason := some reason }
      else (s.stopEncoder i).cap.segments[j] := setSegment_get _ _ _ _
  refine ⟨by rw [written, if_pos rfl], fun j other => ?_⟩
  rw [written, if_neg other, stopEncoder_others s other]

@[simp] theorem sealing_frame (s : State) (i : SegId) (reason : SealReason) :
    (s.sealing i reason).cap.staged = s.cap.staged
      ∧ (s.sealing i reason).cap.stagedAnnotations = s.cap.stagedAnnotations
      ∧ (s.sealing i reason).cap.encoder.state = .idle ∧ (s.sealing i reason).trg.state = .idle
      ∧ (s.sealing i reason).cap.pages = s.cap.pages ∧ (s.sealing i reason).cap.pool = s.cap.pool := by
  unfold State.sealing State.stopEncoder Trg.halt
  simp

theorem sealSegment_ends (h : s.captureSound) (i : SegId) (reason : SealReason) :
    s.EndsCapture (s.sealSegment i reason) i := by
  rw [sealSegment_eq]
  obtain ⟨state, others⟩ := sealing_segment s i reason
  obtain ⟨staged, annotations, encoder, trg, -⟩ := sealing_frame s i reason
  split
  · rename_i nothing
    obtain ⟨otherSegments, -⟩ := completeSeal_get (s.sealing i reason) i i
    have free : ((s.sealing i reason).completeSeal i).cap.segments[i].drainPending = false :=
      (completeSeal_get _ i i).2.1
    have kept : ((s.sealing i reason).completeSeal i).nothingStaged := by
      unfold State.nothingStaged
      simp only [State.completeSeal_frame, staged, annotations]
      exact nothing
    exact
      { others := fun j other => ((completeSeal_get _ i j).1 other).trans (others j other)
        ended := by
          rcases (completeSeal_get (s.sealing i reason) i i).2.2 with e | e | e
          · exact not_captures_of_state (e.trans state) nofun nofun
          · exact not_captures_of_state e nofun nofun
          · exact not_captures_of_state e nofun nofun
        drains := fun draining => absurd (free.symm.trans draining) nofun
        staged := fun some_ => absurd kept some_
        fifo := by simpa using h.fifo
        encoder := by simp
        trg := by simp }
  · rename_i some_
    have segment (j : SegId) : ((s.sealing i reason).setSegment i
        { (s.sealing i reason).segment i with drainPending := true }).cap.segments[j] =
        if j = i then { (s.sealing i reason).cap.segments[i] with drainPending := true }
        else (s.sealing i reason).cap.segments[j] := setSegment_get _ _ _ _
    have isSealed := (congrArg Segment.state (segment i)).trans ((congrArg Segment.state (if_pos rfl)).trans state)
    have draining : ((s.sealing i reason).setSegment i
        { (s.sealing i reason).segment i with drainPending := true }).cap.segments[i].drainPending = true := by
      rw [segment, if_pos rfl]
    exact
      { others := fun j other => by rw [segment, if_neg other, others j other]
        ended := not_captures_of_state isSealed nofun nofun
        drains := fun _ => ⟨isSealed, by
          unfold State.nothingStaged at *
          simpa [staged, annotations] using some_⟩
        staged := fun _ => draining
        fifo := by simpa using h.fifo
        encoder := by simp
        trg := by simp }

theorem captureSound_sealSegment (h : s.captureSound) (captures : s.captures i) (reason : SealReason) :
    (s.sealSegment i reason).captureSound := captureSound_of_ends h (.inl captures) (sealSegment_ends h i reason)

theorem captureSound_sealIfComplete (h : s.captureSound) (i : SegId) : (s.sealIfComplete i).captureSound := by
  unfold State.sealIfComplete
  extract_lets g
  split
  · rename_i reached
    exact captureSound_sealSegment h (.inr reached.1) _
  · exact h

end Sys2Proof.Machine
end

section
/-! PROOFS. One capture at most (O5): the encoder, fires, drains, starts and aborts; the statement. -/

namespace Sys2Proof.Machine

variable {s t u : State} {i : SegId}

/-! ## Entries placed (R51) -/

theorem placeEntry_staged (s : State) (i : SegId) (e : Entry) :
    (∃ x, (s.placeEntry i e).cap.staged = s.cap.staged ++ [x])
      ∧ (s.placeEntry i e).cap.encoder.state = s.cap.encoder.state := by
  unfold State.placeEntry
  extract_lets opens header t g tick staged _
  have opened : t.cap.staged = s.cap.staged ∧ t.cap.encoder = s.cap.encoder := by
    dsimp only [t]
    split <;> simp
  refine ⟨⟨staged, ?_⟩, ?_⟩
  · rw [← opened.1]
    rfl
  · rw [← opened.2]
    rfl

/-- R51: entries stored one after another: the segments keep their states, and each entry is staged behind the last. -/
theorem placeEntries_spec (i : SegId) (entries : List Entry) : ∀ s : State,
    s.SameSegments (entries.foldl (fun s e => s.placeEntry i e) s)
      ∧ (∃ x, (entries.foldl (fun s e => s.placeEntry i e) s).cap.staged = s.cap.staged ++ x
        ∧ x.length = entries.length)
      ∧ (entries.foldl (fun s e => s.placeEntry i e) s).cap.encoder.state = s.cap.encoder.state := by
  induction entries with
  | nil => exact fun s => ⟨.of_eq rfl, ⟨[], (List.append_nil _).symm, rfl⟩, rfl⟩
  | cons e rest ih =>
    intro s
    obtain ⟨⟨x, staged⟩, encoder⟩ := placeEntry_staged s i e
    obtain ⟨same, ⟨xs, stagedRest, length⟩, encoderRest⟩ := ih (s.placeEntry i e)
    refine ⟨(placeEntry_same s i e).trans same, ⟨x :: xs, ?_, congrArg (· + 1) length⟩, encoderRest.trans encoder⟩
    rw [List.foldl_cons, stagedRest, staged, List.append_assoc]
    rfl

theorem formedEntries_length (kind : EntryKind) (d : Nat) (lastState state : Lines) :
    0 < (formedEntries kind d lastState state).length ∧ (formedEntries kind d lastState state).length ≤ 2 := by
  unfold formedEntries
  split <;> simp

theorem captureSound_placeEntries (h : s.captureSound) (captures : s.captures i) {entries : List Entry}
    (room : s.cap.staged.length + entries.length ≤ Config.transitionFifoDepth) :
    (entries.foldl (fun s e => s.placeEntry i e) s).captureSound := by
  obtain ⟨same, ⟨x, staged, length⟩, encoder⟩ := placeEntries_spec i entries s
  refine captureSound_of_same h same (fun k draining none => (h.drains k draining).2 ?_) (fun _ => ⟨i, .inl captures⟩) ?_
    (by rw [encoder])
    (fun j => by rw [encoder]; exact fun serving => serving) (by simp) fun capturing => by simpa using h.steady capturing
  · obtain ⟨first, second⟩ := none
    rw [staged] at first
    exact ⟨(List.append_eq_nil_iff.mp first).1, by simpa using second⟩
  · rw [staged, List.length_append, length]
    exact room

/-- R51: the entries of a sample stored, or the segment sealed with nothing stored. -/
theorem captureSound_storeEntries (h : s.captureSound) (captures : s.captures i) {entries : List Entry}
    (room : s.cap.staged.length + entries.length ≤ Config.transitionFifoDepth) :
    (s.storeEntries i entries).1.captureSound
      ∧ ((s.storeEntries i entries).2 = true → (s.storeEntries i entries).1.captures i
        ∧ (s.storeEntries i entries).1.cap.encoder.state = s.cap.encoder.state) := by
  unfold State.storeEntries
  extract_lets g needsPage refusal
  cases refusal with
  | some reason => exact ⟨captureSound_sealSegment h captures reason, nofun⟩
  | none =>
    obtain ⟨same, -, encoder⟩ := placeEntries_spec i entries s
    exact ⟨captureSound_placeEntries h captures room, fun _ => ⟨(same.captures_iff i).mpr captures, encoder⟩⟩

/-- The encoder turning to DROPPING, or back, for the segment it serves. -/
theorem captureSound_setEncoder (h : s.captureSound) (captures : s.captures i) {e : EncoderState}
    (serves : e = .encoding i ∨ e = .dropping i) (before : s.cap.encoder.state = .encoding i ∨ s.cap.encoder.state = .dropping i) :
    (s.setCap { s.cap with encoder := { s.cap.encoder with state := e } }).captureSound := by
  have busy : e ≠ .idle ∧ s.cap.encoder.state ≠ .idle := by
    constructor
    · rcases serves with rfl | rfl <;> nofun
    · rcases before with e | e <;> rw [e] <;> nofun
  refine captureSound_of_same h (.of_eq rfl) (fun k draining => (h.drains k draining).2)
    (fun _ => ⟨i, .inl captures⟩) h.fifo
    (iff_of_false busy.1 busy.2) (fun j serving => ?_) rfl h.steady
  have here : j = i := by
    rcases serves with rfl | rfl <;> rcases serving with e | e <;> cases e <;> rfl
  rw [here]
  exact before

theorem captureSound_encodeSample (h : s.captureSound) (stamp : Nat) (lines : Lines) :
    (s.encodeSample stamp lines).captureSound := by
  unfold State.encodeSample
  split
  case h_1 => exact h
  case h_2 j encoding =>
    have captures := h.encoderServes j (.inl encoding)
    extract_lets g state d entries
    split
    · exact h
    · split
      · exact captureSound_setEncoder h captures (.inr rfl) (.inl encoding)
      · rename_i room
        exact captureSound_sealIfComplete (captureSound_storeEntries h captures (Nat.le_of_not_lt room)).1 j
  case h_3 j dropping =>
    have captures := h.encoderServes j (.inr dropping)
    split
    · exact h
    · rename_i resumed
      extract_lets g d entries
      have few : s.cap.staged.length + entries.length ≤ Config.transitionFifoDepth := by
        have two : entries.length ≤ 2 := (formedEntries_length _ _ _ _).2
        simp only [Config.dropoutResume, Config.transitionFifoDepth] at *
        omega
      obtain ⟨sound, stored⟩ := captureSound_storeEntries h captures few
      split
      · rename_i t refused
        rwa [refused] at sound
      · rename_i t kept
        rw [kept] at sound stored
        obtain ⟨capturing, encoder⟩ := stored rfl
        refine captureSound_sealIfComplete ?_ j
        have resumed := captureSound_setEncoder sound capturing (.inl rfl) (.inr (encoder.trans dropping))
        refine captureSound_of_same resumed (.setSegment ?_ ?_) (fun k draining => (resumed.drains k draining).2)
          (fun _ => ⟨j, .inl capturing⟩) resumed.fifo Iff.rfl (fun _ serving => serving) rfl resumed.steady
        all_goals rfl

/-! ## A fire (R65) -/

theorem State.captureSound.only (h : s.captureSound) (captures : s.captures i) (j : SegId) (capturing : s.captures j) :
    j = i := h.unique j i (.inl capturing) (.inl captures)

/-- R65, R152: the accepted fire: POST_TRIGGER and DONE. -/
theorem captureSound_fired (h : s.captureSound) (pre : s.cap.segments[i].state = .preTrigger) {g : Segment}
    (post : g.state = .postTrigger) (drains : g.drainPending = s.cap.segments[i].drainPending) :
    ((s.setSegment i g).setTrg s.trg.finish).captureSound := by
  have captures : s.captures i := .inl pre
  have segment (j : SegId) : ((s.setSegment i g).setTrg s.trg.finish).cap.segments[j] =
      if j = i then g else s.cap.segments[j] := setSegment_get _ _ _ _
  have capturing (j : SegId) : ((s.setSegment i g).setTrg s.trg.finish).captures j ↔ s.captures j := by
    unfold State.captures
    rw [segment]
    split
    · subst_vars
      exact iff_of_true (.inr post) captures
    · exact Iff.rfl
  have draining (j : SegId) : ((s.setSegment i g).setTrg s.trg.finish).cap.segments[j].drainPending
      = s.cap.segments[j].drainPending := by
    rw [segment]
    split
    · subst_vars
      exact drains
    · rfl
  have holds (j : SegId) : ((s.setSegment i g).setTrg s.trg.finish).holdsEncoder j ↔ s.holdsEncoder j :=
    or_congr (capturing j) (by rw [draining])
  exact
    { unique := fun j k hj hk => h.unique j k ((holds j).mp hj) ((holds k).mp hk)
      drains := fun j d => by
        rw [draining] at d
        obtain ⟨isSealed, some_⟩ := h.drains j d
        have other : j ≠ i := fun here => by
          rw [here, pre] at isSealed
          cases isSealed
        rw [segment, if_neg other]
        exact ⟨isSealed, some_⟩
      staged := fun some_ => by
        obtain ⟨j, holding⟩ := h.staged some_
        exact ⟨j, (holds j).mpr holding⟩
      fifo := h.fifo
      encoderIdle := by
        unfold State.noCapture
        simp only [capturing]
        exact h.encoderIdle
      encoderServes := fun j serving => (capturing j).mpr (h.encoderServes j serving)
      running := by
        refine iff_of_false nofun ?_
        rintro ⟨j, e⟩
        have here : j = i := h.only captures j ((capturing j).mp (.inl e))
        rw [segment, if_pos here, post] at e
        cases e
      finished := iff_of_true rfl ⟨i, by rw [segment, if_pos rfl]; exact post⟩
      steady := fun ⟨j, c⟩ => h.steady ⟨j, (capturing j).mp c⟩ }

theorem captureSound_takeFire (h : s.captureSound) (index : Nat) : (s.takeFire index).captureSound := by
  unfold State.takeFire
  split
  · exact h
  · rename_i f _
    extract_lets _ t
    have taken : t.captureSound := captureSound_of_blocks h rfl rfl rfl rfl rfl rfl rfl
    split
    · rename_i j _
      split
      · rename_i live
        unfold State.acceptFire
        extract_lets g start early tick v w
        refine captureSound_sealIfComplete ?_ j
        refine captureSound_of_blocks (captureSound_fired taken live.2 ?_ ?_) rfl rfl rfl rfl rfl rfl rfl
        all_goals rfl
      · exact taken
    · exact taken

/-! ## An abort (R74) -/

theorem discardStaged_get (s : State) (i : SegId) : (∀ j, j ≠ i → (s.discardStaged i).cap.segments[j] = s.cap.segments[j])
    ∧ (s.discardStaged i).cap.segments[i].drainPending = s.cap.segments[i].drainPending := by
  unfold State.discardStaged
  extract_lets t g kept _
  constructor
  · intro j other
    rw [setSegment_get, if_neg other]
    exact stopEncoder_others s other
  · rw [setSegment_get, if_pos rfl]
    exact (stopEncoder_same s i i).2

theorem abort_ends (ended : ¬ t.captures i)
    (others : ∀ j, j ≠ i → t.cap.segments[j] = s.cap.segments[j]) (drained : t.cap.segments[i].drainPending = false)
    (staged : t.cap.staged = []) (annotations : t.cap.stagedAnnotations = []) (encoder : t.cap.encoder.state = .idle)
    (trg : t.trg.state = .idle) : s.EndsCapture t i where
  others := others
  ended := ended
  drains draining := absurd (drained.symm.trans draining) nofun
  staged some_ := absurd ⟨staged, annotations⟩ some_
  fifo := by rw [staged]; exact Nat.zero_le _
  encoder := encoder
  trg := trg

theorem discardStaged_cap (s : State) (i : SegId) : (s.discardStaged i).cap.staged = []
    ∧ (s.discardStaged i).cap.stagedAnnotations = [] ∧ (s.discardStaged i).cap.encoder.state = .idle := ⟨rfl, rfl, rfl⟩

theorem captureSound_abortVacated (h : s.captureSound) (captures : s.captures i) :
    (((s.discardStaged i).setTrg s.trg.halt).vacate i).captureSound := by
  obtain ⟨staged, annotations, encoder⟩ := discardStaged_cap s i
  have vacated (j : SegId) := vacate_get ((s.discardStaged i).setTrg s.trg.halt) i j
  refine captureSound_of_ends h (.inl captures) (abort_ends ?_ ?_ ?_ (by simpa using staged) (by simpa using annotations)
    (by simpa using encoder) (by simp [Trg.halt]))
  · exact not_captures_of_state (k := .vacant) (by rw [vacated, if_pos rfl]) nofun nofun
  · intro j other
    rw [vacated, if_neg other]
    exact (discardStaged_get s i).1 j other
  · rw [vacated, if_pos rfl]

theorem captureSound_abortPinned (h : s.captureSound) (captures : s.captures i) :
    (((s.discardStaged i).setTrg s.trg.halt).setSegment i
      { (s.discardStaged i).segment i with state := .retiring, retirePending := true }).captureSound := by
  obtain ⟨staged, annotations, encoder⟩ := discardStaged_cap s i
  have written (j : SegId) := setSegment_get ((s.discardStaged i).setTrg s.trg.halt) i
    { (s.discardStaged i).segment i with state := .retiring, retirePending := true } j
  refine captureSound_of_ends h (.inl captures) (abort_ends ?_ ?_ ?_ staged annotations encoder rfl)
  · exact not_captures_of_state (k := .retiring) (by rw [written, if_pos rfl]) nofun nofun
  · intro j other
    rw [written, if_neg other]
    exact (discardStaged_get s i).1 j other
  · rw [written, if_pos rfl]
    exact (discardStaged_get s i).2.trans (h.drainFree captures)

theorem Ending.captureSound (h : s.captureSound) (ending : Ending s t) : t.captureSound := by
  cases ending with
  | sealSegment i reason captures => exact captureSound_sealSegment h captures reason
  | abortVacated i captures => exact captureSound_abortVacated h captures
  | abortPinned i captures => exact captureSound_abortPinned h captures
  | encodeSample stamp lines => exact captureSound_encodeSample h stamp lines
  | takeFire index => exact captureSound_takeFire h index

/-! ## A start (R60, R61) -/

theorem ite_some_eq_none {α : Type} {c : Prop} [Decidable c] {a : α} {b : Option α} :
    (if c then some a else b) = none ↔ ¬ c ∧ b = none := by
  split <;> simp [*]

/-- R60: what an accepted SEGMENT_START finds. -/
theorem startRefusal_eq_none (free : s.startRefusal i = none) : (s.segment i).state = .primed ∧ s.noCapture
    ∧ (∀ j : SegId, s.cap.segments[j].drainPending = false) ∧ s.lvl.transition = .steady ∧ s.cal.state = .idle
    ∧ 2 ≤ s.cap.pool.count := by
  unfold State.startRefusal at free
  simp only [ite_some_eq_none] at free
  obtain ⟨-, primed, captures, drains, steady, -, -, active, pool, -⟩ := free
  refine ⟨not_not.mp primed, fun j c => captures ((capturing?_isSome s).mpr ⟨j, c⟩), fun j => ?_, ?_, ?_,
    Nat.le_of_not_lt pool⟩
  · exact Bool.eq_false_iff.mpr fun d => drains ((draining?_isSome s).mpr ⟨j, d⟩)
  · cases transition : s.lvl.transition with
    | steady => rfl
    | switching target => exact absurd ((isSwitching_iff s).mpr ⟨target, transition⟩) steady
  · cases state : s.cal.state with
    | idle => rfl
    | settling => exact absurd ((isActive_iff s).mpr (.inl state)) active
    | measuring => exact absurd ((isActive_iff s).mpr (.inr state)) active

theorem captureSound_beginCapture (none : s.noCapture) (drained : ∀ j : SegId, s.cap.segments[j].drainPending = false)
    (nothing : s.nothingStaged) (steady : s.lvl.transition = .steady) (idle : s.cal.state = .idle) (i : SegId)
    (records annotations : Chain) : (s.beginCapture i records annotations).captureSound := by
  have segment (j : SegId) : (s.beginCapture i records annotations).cap.segments[j] =
      if j = i then { s.segment i with state := .preTrigger, level := some s.lvl.level, startTick := some s.pfe.stamp,
                                       records := records, annotations := annotations, written := 1 }
      else s.cap.segments[j] := setSegment_get _ _ _ _
  have state : (s.beginCapture i records annotations).cap.segments[i].state = .preTrigger := by
    rw [segment, if_pos rfl]
  have drains (j : SegId) : (s.beginCapture i records annotations).cap.segments[j].drainPending = false := by
    rw [segment]
    split
    · exact drained i
    · exact drained j
  have captures (j : SegId) : (s.beginCapture i records annotations).captures j ↔ j = i := by
    constructor
    · intro c
      by_contra other
      unfold State.captures at c
      rw [segment, if_neg other] at c
      exact none j c
    · rintro rfl
      exact .inl state
  have holder (j : SegId) (holds : (s.beginCapture i records annotations).holdsEncoder j) : j = i :=
    holds.elim (captures j).mp fun d => absurd ((drains j).symm.trans d) nofun
  exact
    { unique := fun j k hj hk => (holder j hj).trans (holder k hk).symm
      drains := fun j d => absurd ((drains j).symm.trans d) nofun
      staged := fun _ => ⟨i, .inl ((captures i).mpr rfl)⟩
      fifo := by
        show (s.cap.staged ++ [_]).length ≤ _
        rw [nothing.1]
        exact Nat.le_of_ble_eq_true rfl
      encoderIdle := iff_of_false nofun fun without => without i ((captures i).mpr rfl)
      encoderServes := fun j serving => by
        rcases serving with e | e
        · cases e
          exact (captures i).mpr rfl
        · cases e
      running := iff_of_true rfl ⟨i, state⟩
      finished := by
        refine iff_of_false nofun ?_
        rintro ⟨j, e⟩
        rw [(captures j).mp (.inr e), state] at e
        cases e
      steady := fun _ => ⟨steady, idle⟩ }

theorem captureSound_startCapture (h : s.captureSound) (free : s.startRefusal i = none) :
    (s.startCapture i).captureSound := by
  obtain ⟨-, none, drained, steady, idle, -⟩ := startRefusal_eq_none free
  have nothing : s.nothingStaged := by
    by_contra some_
    obtain ⟨j, holds⟩ := h.staged some_
    exact holds.elim (none j) fun d => absurd ((drained j).symm.trans d) nofun
  unfold State.startCapture
  split
  · exact h
  · rename_i t records first
    split
    · exact h
    · rename_i u annotations second
      have segments : u.cap.segments = s.cap.segments := (allocate_segments second).trans (allocate_segments first)
      have f := State.allocate_frame first
      have g := State.allocate_frame second
      simp only at f g
      refine captureSound_beginCapture ?_ ?_ ?_ ?_ ?_ i _ _
      · unfold State.noCapture State.captures
        rw [segments]
        exact none
      · rw [segments]
        exact drained
      · unfold State.nothingStaged
        simp only [f, g]
        exact nothing
      · simpa [f, g] using steady
      · simpa [f, g] using idle

/-! ## A drain completion and an annotation (R52, R55, R71) -/

theorem placeAnnotation_staged (s : State) (i : SegId) (a : Annotation) :
    (s.placeAnnotation i a).cap.stagedAnnotations ≠ [] :=
  List.append_ne_nil_of_right_ne_nil _ (List.cons_ne_nil _ _)

theorem writeAnnotation_staged {s : State} {i : SegId} {r : Record}
    (none : (s.writeAnnotation i r).cap.stagedAnnotations = []) : s.cap.stagedAnnotations = [] := by
  revert none
  unfold State.writeAnnotation
  extract_lets g a
  split
  · exact fun none => none
  · split
    · split
      · exact fun none => none
      · split
        · exact fun none => absurd none (placeAnnotation_staged _ _ _)
        · exact fun none => none
      · exact fun none => absurd none (placeAnnotation_staged _ _ _)
    · exact fun none => absurd none (placeAnnotation_staged _ _ _)

theorem captureSound_writeAnnotation (h : s.captureSound) (captures : s.captures i) (r : Record) :
    (s.writeAnnotation i r).captureSound := by
  refine captureSound_of_same h (writeAnnotation_same s i r)
    (fun k draining none => (h.drains k draining).2 ⟨?_, ?_⟩)
    (fun _ => ⟨i, .inl captures⟩) (by simpa using h.fifo) (by simp) (fun j serving => by simpa using serving) (by simp)
    fun capturing => by simpa using h.steady capturing
  · simpa using none.1
  · exact writeAnnotation_staged none.2

/-- R52: a drain completion removes one staged entry. -/
theorem drainOne_staged (c : Cap) : c.drainOne.staged.length ≤ c.staged.length
    ∧ (c.staged = [] → c.drainOne.staged = []) ∧ (c.stagedAnnotations = [] → c.drainOne.stagedAnnotations = []) := by
  unfold Cap.drainOne
  split
  · split
    · rename_i staged
      rw [staged]
      exact ⟨Nat.le_succ _, nofun, fun none => none⟩
    · exact ⟨le_rfl, fun none => none, fun none => none⟩
  · split
    · rename_i staged
      rw [staged]
      exact ⟨le_rfl, fun none => none, nofun⟩
    · exact ⟨le_rfl, fun none => none, fun none => none⟩

theorem captureSound_settlePort (h : s.captureSound) : s.settlePort.captureSound :=
  captureSound_of_blocks h (by simp) (by simp) (by simp) (by simp) (by simp) (by simp) (by simp)

/-- With a segment that drains, encoder and sequencer are IDLE. -/
theorem State.captureSound.drainIdle (h : s.captureSound) (draining : s.cap.segments[i].drainPending = true) :
    s.noCapture ∧ s.cap.encoder.state = .idle ∧ s.trg.state = .idle := by
  have without : s.noCapture := fun j captures => by
    have here : j = i := h.unique j i (.inl captures) (.inr draining)
    exact not_captures_of_state (h.drains i draining).1 nofun nofun (here ▸ captures)
  refine ⟨without, h.encoderIdle.mpr without, ?_⟩
  cases state : s.trg.state with
  | idle => rfl
  | running =>
    obtain ⟨j, pre⟩ := h.running.mp state
    exact absurd (.inl pre) (without j)
  | done =>
    obtain ⟨j, post⟩ := h.finished.mp state
    exact absurd (.inr post) (without j)

theorem captureSound_completeSeal (h : s.captureSound) (draining : s.cap.segments[i].drainPending = true)
    (segments : t.cap.segments = s.cap.segments) (nothing : t.nothingStaged)
    (encoder : t.cap.encoder = s.cap.encoder) (trg : t.trg = s.trg) : (t.completeSeal i).captureSound := by
  obtain ⟨without, encoderIdle, trgIdle⟩ := h.drainIdle draining
  obtain ⟨-, drained, state⟩ := completeSeal_get t i i
  refine captureSound_of_ends h (.inr draining) (abort_ends ?_ ?_ drained ?_ ?_ ?_ ?_)
  · rcases state with e | e | e
    · refine not_captures_of_state (k := .sealed) ?_ nofun nofun
      rw [e, segments]
      exact (h.drains i draining).1
    · exact not_captures_of_state e nofun nofun
    · exact not_captures_of_state e nofun nofun
  · intro j other
    rw [(completeSeal_get t i j).1 other, segments]
  · simpa using nothing.1
  · simpa using nothing.2
  · simpa [encoder] using encoderIdle
  · simpa [trg] using trgIdle

/-- R52, R71: the FIFOs are emptied under a capture, or under a drain that completes its seal with them. -/
theorem captureSound_drain (h : s.captureSound) (some_ : ¬ s.nothingStaged) : s.drain.captureSound := by
  obtain ⟨-, -, segments, encoder, -, -, -⟩ := s.cap.drainOne_frame
  unfold State.drain
  extract_lets t u
  refine captureSound_settlePort ?_
  have drained (left : ∀ j : SegId, s.cap.segments[j].drainPending = true → ¬ t.nothingStaged) : t.captureSound :=
    captureSound_of_same h (.of_eq segments) left (fun _ => h.staged some_)
      (Nat.le_trans (drainOne_staged s.cap).1 h.fifo) (by rw [← encoder]; rfl)
      (fun _ => by rw [← encoder]; exact fun serving => serving) rfl h.steady
  dsimp only [u]
  split
  · rename_i nothing
    split
    · rename_i j draining
      have draining : s.cap.segments[j].drainPending = true := by
        rw [← segments]
        exact draining?_of_some draining
      exact captureSound_completeSeal h draining segments nothing encoder rfl
    · rename_i none
      refine drained fun j draining => ?_
      have found : t.draining?.isSome = true := (draining?_isSome t).mpr ⟨j, by rw [← draining, ← segments]; rfl⟩
      rw [none] at found
      cases found
  · rename_i left
    exact drained fun _ _ => left

/-! ## Every change, and the statement -/

theorem captureSound_reset (segments : ∀ j : SegId, t.cap.segments[j] = {}) (staged : t.nothingStaged)
    (encoder : t.cap.encoder.state = .idle) (trg : t.trg.state = .idle) : t.captureSound := by
  have without : t.noCapture := fun j => not_captures_of_state (k := .vacant) (by rw [segments]) nofun nofun
  have free (j : SegId) : ¬ t.holdsEncoder j := not_or.mpr ⟨without j, by rw [segments]; nofun⟩
  exact
    { unique := fun j _ hj => absurd hj (free j)
      drains := fun j d => absurd (.inr d) (free j)
      staged := fun some_ => absurd staged some_
      fifo := by rw [staged.1]; exact Nat.zero_le _
      encoderIdle := iff_of_true encoder without
      encoderServes := fun j serving => by
        rw [encoder] at serving
        rcases serving with e | e <;> cases e
      running := iff_of_false (by rw [trg]; nofun) fun ⟨j, e⟩ => without j (.inl e)
      finished := iff_of_false (by rw [trg]; nofun) fun ⟨j, e⟩ => without j (.inr e)
      steady := fun ⟨j, c⟩ => absurd c (without j) }

theorem not_holdsEncoder_of_state {k : SegState} (state : s.cap.segments[i].state = k) (other : k ≠ .preTrigger)
    (other' : k ≠ .postTrigger) (drained : s.cap.segments[i].drainPending = false) : ¬ s.holdsEncoder i :=
  not_or.mpr ⟨not_captures_of_state state other other', fun d => absurd (drained.symm.trans d) nofun⟩

/-- A segment that is not sealed does not drain. -/
theorem State.captureSound.drained (h : s.captureSound) (other : s.cap.segments[i].state ≠ .sealed) :
    s.cap.segments[i].drainPending = false := Bool.eq_false_iff.mpr fun d => other (h.drains i d).1

theorem captureSound_prepare (h : s.captureSound)
    (unused : (s.segment i).state = .vacant ∨ (s.segment i).state = .primed) {g : Segment} (primed : g.state = .primed)
    (drained : g.drainPending = false) : (s.setSegment i g).captureSound := by
  have before : ¬ s.holdsEncoder i := by
    rcases unused with e | e
    all_goals exact not_holdsEncoder_of_state e nofun nofun (h.drained fun isSealed => nomatch e.symm.trans isSealed)
  refine captureSound_replace h before (fun j other => by rw [setSegment_get, if_neg other]) ?_ rfl rfl rfl rfl rfl rfl
  exact not_holdsEncoder_of_state (k := .primed) (by rw [setSegment_get, if_pos rfl, primed]) nofun nofun
    (by rw [setSegment_get, if_pos rfl, drained])

theorem captureSound_segment (h : s.captureSound) {g : Segment} (drains : g.drainPending = (s.segment i).drainPending)
    (state : g.state = (s.segment i).state
      ∨ (g.state = .retiring ∧ (s.segment i).state = .sealed ∧ (s.segment i).drainPending = false)) :
    (s.setSegment i g).captureSound := by
  rcases state with same | ⟨retiring, isSealed, drained⟩
  · exact captureSound_of_same h (.setSegment same drains) (fun k draining => (h.drains k draining).2) h.staged h.fifo
      Iff.rfl (fun _ serving => serving) rfl h.steady
  · refine captureSound_replace h (not_holdsEncoder_of_state isSealed nofun nofun drained)
      (fun j other => by rw [setSegment_get, if_neg other]) ?_ rfl rfl rfl rfl rfl rfl
    exact not_holdsEncoder_of_state (k := .retiring) (by rw [setSegment_get, if_pos rfl, retiring]) nofun nofun
      (by rw [setSegment_get, if_pos rfl, drains, drained])

theorem captureSound_retireNow (h : s.captureSound) (unread : (s.segment i).state = .primed
    ∨ (s.segment i).state = .retiring ∨ ((s.segment i).state = .sealed ∧ (s.segment i).drainPending = false)) :
    (s.retireNow i).captureSound := by
  have before : ¬ s.holdsEncoder i := by
    rcases unread with e | e | ⟨e, drained⟩
    · exact not_holdsEncoder_of_state e nofun nofun (h.drained fun isSealed => nomatch e.symm.trans isSealed)
    · exact not_holdsEncoder_of_state e nofun nofun (h.drained fun isSealed => nomatch e.symm.trans isSealed)
    · exact not_holdsEncoder_of_state e nofun nofun drained
  refine captureSound_replace h before (fun j other => by rw [retireNow_get, if_neg other]) ?_ (by simp) (by simp)
    (by simp) (by simp) (by simp) (by simp)
  exact not_holdsEncoder_of_state (k := .vacant) (by rw [retireNow_get, if_pos rfl]) nofun nofun
    (by rw [retireNow_get, if_pos rfl])

theorem Change.captureSound (h : s.captureSound) (change : Change s t) : t.captureSound := by
  cases change with
  | cmd | emptied | raise | pfe | count | request | gapEnd | dec | dsp | capRest =>
    exact captureSound_of_blocks h rfl rfl rfl rfl rfl rfl rfl
  | raiseGlitch | raiseActivity | raiseLock | raiseError | evaluate | poolThreshold =>
    exact captureSound_of_blocks h (by simp) (by simp) (by simp) (by simp) (by simp) (by simp) (by simp)
  | switching x target switches _ free =>
    refine captureSound_of_cap h rfl rfl rfl rfl rfl fun ⟨j, captures⟩ => ?_
    rcases free with ⟨target, switching⟩ | ⟨without, -⟩
    · exact absurd ((h.steady ⟨j, captures⟩).1.symm.trans switching) nofun
    · exact absurd captures (without j)
  | settled => exact captureSound_of_cap h rfl rfl rfl rfl rfl fun captures => ⟨rfl, (h.steady captures).2⟩
  | cal x _ active =>
    exact captureSound_of_cap h rfl rfl rfl rfl rfl fun captures =>
      ⟨(h.steady captures).1, active.mpr (h.steady captures).2⟩
  | endCalibration => exact captureSound_of_cap h rfl rfl rfl rfl rfl fun captures => ⟨(h.steady captures).1, rfl⟩
  | trg x state => exact captureSound_of_blocks h rfl rfl rfl rfl state rfl rfl
  | prepare i _ _ _ _ _ unused => exact captureSound_prepare h unused rfl rfl
  | segment i g _ _ drains state => exact captureSound_segment h drains state
  | retireNow i unread => exact captureSound_retireNow h unread
  | startCapture i free => exact captureSound_startCapture h free
  | writeAnnotation i r captures => exact captureSound_writeAnnotation h captures r
  | drain some_ => exact captureSound_drain h some_
  | softReset =>
    rw [State.softReset_eq]
    exact captureSound_reset (replicate_get _) ⟨rfl, rfl⟩ rfl rfl
  | powerOn => exact captureSound_reset (replicate_get _) ⟨rfl, rfl⟩ rfl rfl

theorem captureSound_acceptCalibrate (h : s.captureSound) (free : s.calibrateRefusal = none) (channels : Lines)
    (seed tolerance : Nat) : (s.acceptCalibrate channels seed tolerance).captureSound := by
  unfold State.calibrateRefusal at free
  simp only [ite_some_eq_none] at free
  refine captureSound_of_cap h rfl rfl rfl rfl rfl fun captures => ?_
  exact absurd (.inl ((capturing?_isSome s).mpr captures)) free.2.1

/-- Settles O5. -/
theorem stepKeepsOneCapture : Obligations.StepKeepsOneCapture := fun _ _ => step_keeps
  (fun _ _ h => captureSound_of_blocks h rfl rfl rfl rfl rfl rfl rfl)
  fun _ => after_keeps Change.captureSound Ending.captureSound fun channels seed tolerance h free =>
    captureSound_acceptCalibrate h free channels seed tolerance

end Sys2Proof.Machine
end

section
/-! PROOFS. The periods of ASYNC contexts, and what keeps calibrations, transitions and level requests apart (O4, its second
statement): the contexts' part is kept by every change, and a request that waits for nothing is released within the command
(`Settles`). -/

namespace Sys2Proof.Machine

variable {s t : State}

theorem calibrates_iff (s : State) : s.calibrates ↔ s.cal.state ≠ .idle := by
  unfold State.calibrates
  cases s.cal.state <;> simp

/-! ## The contexts' part -/

/-- R101, R103, R90: a context's window, its period at a decode level, and its suspension for a calibration run. -/
structure Context.Timed (level : Level) (calibrates : Prop) (c : Context) : Prop where
  window : c.windowSound
  period : c.periodSound level
  suspended : c.state = .suspended .calibration → calibrates

/-- What every change keeps of `State.periodsSound`. -/
structure State.timingSound (s : State) : Prop where
  contexts : ∀ i : CtxId, s.dec.contexts[i].Timed s.dec.level s.calibrates
  calibrating : s.calibrates → s.lvl.transition = .steady ∧ s.lvl.request = none

theorem periodsSound_iff : s.periodsSound ↔ s.timingSound ∧ s.requestWaits := by
  constructor
  · intro h
    exact ⟨⟨fun i => ⟨h.windows i, h.periods i, h.suspended i⟩, h.calibrating⟩, h.request⟩
  · rintro ⟨h, request⟩
    exact ⟨fun i => (h.contexts i).window, fun i => (h.contexts i).period, fun i => (h.contexts i).suspended,
      h.calibrating, request⟩

section Contexts

variable {level : Level} {calibrates : Prop} {c : Context}

theorem Context.timed_fresh : Context.Timed level calibrates {} :=
  ⟨⟨by decide, by decide, by decide⟩, nofun, nofun⟩

/-- R103: a gap end clamps the period of a context that it leaves RUNNING. -/
theorem Context.gapEnd_timed (h : c.windowSound) (runs : c.state ≠ .suspended .calibration) :
    (c.gapEnd level).Timed level calibrates := by
  have window : (c.gapEnd level).windowSound := by
    unfold Context.windowSound
    rw [(c.gapEnd_engines level).1]
    exact h
  obtain ⟨-, ordered, -⟩ := h
  unfold Context.gapEnd at window ⊢
  split at window
  · rename_i follows
    rw [if_pos follows]
    split at window
    · rename_i standby
      rw [if_pos standby]
      exact ⟨window, fun _ counts => absurd counts nofun, nofun⟩
    · rename_i awake
      rw [if_neg awake]
      split at window
      · rename_i fails
        rw [if_pos fails]
        exact ⟨window, fun _ counts => absurd counts nofun, nofun⟩
      · rename_i decodes
        rw [if_neg decodes]
        refine ⟨window, fun isAsync _ => ?_, fun suspended => ?_⟩
        · have isAsync : c.protocol = some .async := (Context.reclamp_engines level
            { c with afterGap := if c.state = .running then c.afterGap else true, fresh := true, state := .running }).2.1.symm.trans isAsync
          simp only [Context.decodesAt, isAsync, AsyncSettings.decodesAt] at decodes
          simp only [Context.reclamp, isAsync]
          refine AsyncSettings.clampPeriod_effective ordered (fun economy => ?_) _
          subst economy
          simp only [Bool.not_eq_true', Bool.not_eq_false] at decodes
          exact of_decide_eq_true decodes
        · simp only [Context.reclamp] at suspended
          split at suspended <;> cases suspended
  · rename_i other
    rw [if_neg other]
    refine ⟨window, fun _ counts => ?_, fun suspended => absurd suspended runs⟩
    rcases counts with running | suspended
    · rw [running] at other
      exact absurd rfl other
    · exact absurd suspended runs

theorem Context.resumeFromCal_timed (h : c.Timed level True) : c.resumeFromCal.Timed level calibrates := by
  unfold Context.resumeFromCal
  split
  · rename_i suspended
    exact ⟨h.window, fun isAsync _ => h.period isAsync (.inr suspended), nofun⟩
  · rename_i other
    exact ⟨h.window, h.period, fun suspended => absurd suspended other⟩

theorem Context.suspendForCal_timed (h : c.Timed level calibrates) : c.suspendForCal.Timed level True := by
  obtain ⟨settings, protocol, -, period, -⟩ := c.suspendForCal_engines
  refine ⟨?_, fun isAsync counts => ?_, fun _ => trivial⟩
  · unfold Context.windowSound
    rw [settings]
    exact h.window
  · rw [settings, period]
    refine h.period (protocol ▸ isAsync) ?_
    unfold Context.suspendForCal at counts
    split at counts
    · rename_i running
      exact .inl running
    · exact counts

theorem Context.Keeps.timed {d : Context} (keeps : c.Keeps level calibrates d) (h : c.Timed level calibrates) :
    d.Timed level calibrates :=
  ⟨keeps.window h.window, keeps.period h.window h.period, fun suspended => (keeps.suspended suspended).elim h.suspended id⟩

end Contexts

/-! ## The states' part -/

theorem timingSound_of_blocks (h : s.timingSound) (contexts : t.dec.contexts = s.dec.contexts)
    (level : t.dec.level = s.dec.level) (lvl : t.lvl = s.lvl) (cal : t.cal.state = .idle ↔ s.cal.state = .idle) :
    t.timingSound := by
  have calibrates : t.calibrates ↔ s.calibrates := by
    rw [calibrates_iff, calibrates_iff]
    exact not_congr cal
  constructor
  · intro i
    rw [contexts, level]
    exact ⟨(h.contexts i).window, (h.contexts i).period, fun suspended =>
      calibrates.mpr ((h.contexts i).suspended suspended)⟩
  · rw [lvl]
    exact fun active => h.calibrating (calibrates.mp active)

theorem CapStep.timingSound (h : s.timingSound) (step : CapStep s t) : t.timingSound := by
  cases step with
  | raise | segment | entries | annotations | pages | drainOne | trg | path =>
    exact timingSound_of_blocks h rfl rfl rfl .rfl
  | pool | port => exact timingSound_of_blocks h (by simp) (by simp) (by simp) (by simp)

/-- R24, R30: a transition excludes a calibration run. -/
theorem State.timingSound.uncalibrated (h : s.timingSound) (switches : s.switches) : ¬ s.calibrates := by
  obtain ⟨target, switching⟩ := switches
  exact fun active => absurd ((h.calibrating active).1.symm.trans switching) nofun

theorem timingSound_idle (contexts : ∀ i : CtxId, t.dec.contexts[i].Timed t.dec.level False) (idle : t.cal.state = .idle) :
    t.timingSound where
  contexts i := ⟨(contexts i).window, (contexts i).period, fun suspended => ((contexts i).suspended suspended).elim⟩
  calibrating active := absurd idle ((calibrates_iff t).mp active)

/-- Without a calibration run, any level block will do. -/
theorem timingSound_setLvl (h : s.timingSound) (none : ¬ s.calibrates) (x : Lvl) : (s.setLvl x).timingSound :=
  ⟨h.contexts, fun active => absurd active none⟩

theorem timingSound_request (sound : s.captureSound) (h : s.timingSound) {r : Option Level}
    (waits : r ≠ none → (∃ i, s.captures i) ∨ s.switches) : (s.setLvl { s.lvl with request := r }).timingSound := by
  by_cases active : s.calibrates
  · refine ⟨h.contexts, fun _ => ⟨(h.calibrating active).1, ?_⟩⟩
    by_contra some_
    rcases waits some_ with captures | switches
    · exact (calibrates_iff s).mp active (sound.steady captures).2
    · exact h.uncalibrated switches active
  · exact timingSound_setLvl h active _

theorem Change.timingSound (sound : s.captureSound) (h : s.timingSound) (change : Change s t) : t.timingSound := by
  cases change with
  | cmd | emptied | raise | pfe | trg | dsp | capRest | prepare | segment =>
    exact timingSound_of_blocks h rfl rfl rfl .rfl
  | raiseGlitch | raiseActivity | raiseLock | raiseError | evaluate | poolThreshold =>
    exact timingSound_of_blocks h (by simp) (by simp) (by simp) (by simp)
  | count n e => exact ⟨h.contexts, h.calibrating⟩
  | request r waits => exact timingSound_request sound h waits
  | switching x target _ _ free =>
    refine timingSound_setLvl h (fun active => ?_) x
    rcases free with switches | ⟨-, idle | requested⟩
    · exact h.uncalibrated switches active
    · exact idle active
    · exact requested (h.calibrating active).2
  | settled level switches => exact timingSound_setLvl h (h.uncalibrated switches) _
  | gapEnd level switches =>
    have idle := h.uncalibrated switches
    refine ⟨fun i => ?_, fun active => absurd active idle⟩
    show ((s.dec.contexts.map (Context.gapEnd level))[i]).Timed level s.calibrates
    rw [map_get]
    exact Context.gapEnd_timed (h.contexts i).window fun suspended => idle ((h.contexts i).suspended suspended)
  | cal x _ active => exact timingSound_of_blocks h rfl rfl rfl active
  | endCalibration o =>
    refine timingSound_idle (fun i => ?_) rfl
    show ((s.dec.contexts.map Context.resumeFromCal)[i]).Timed s.dec.level False
    rw [map_get]
    exact Context.resumeFromCal_timed ⟨(h.contexts i).window, (h.contexts i).period, fun _ => trivial⟩
  | dec x level contexts =>
    refine ⟨fun i => ?_, h.calibrating⟩
    show x.contexts[i].Timed x.level s.calibrates
    rw [level]
    exact (contexts i).timed (h.contexts i)
  | retireNow i => exact (retireNow_steps i).keep CapStep.timingSound h
  | startCapture i => exact (startCapture_steps i).keep CapStep.timingSound h
  | writeAnnotation i r => exact (writeAnnotation_steps i r).keep CapStep.timingSound h
  | drain => exact drain_steps.keep CapStep.timingSound h
  | softReset =>
    rw [State.softReset_eq]
    refine timingSound_idle (fun i => ?_) rfl
    rw [show (s.dec.softReset s.lvl.isSwitching).contexts[i] = {} from replicate_get _ i]
    exact Context.timed_fresh
  | powerOn =>
    refine timingSound_idle (fun i => ?_) rfl
    rw [show (State.reset.setPending s.pending).dec.contexts[i] = {} from replicate_get _ i]
    exact Context.timed_fresh

/-! ## What a request waits for (R25) -/

theorem requestWaits_of_captures (h : s.requestWaits) (request : t.lvl.request = s.lvl.request)
    (transition : t.lvl.transition = s.lvl.transition) (captures : ∀ i, s.captures i → t.captures i) :
    t.requestWaits := by
  unfold State.requestWaits State.switches
  rw [request, transition]
  exact fun some_ => (h some_).imp_left fun ⟨i, capturing⟩ => ⟨i, captures i capturing⟩

/-- A change of one segment that does not capture leaves the capture alone. -/
theorem captures_of_others {i : SegId} (free : ¬ s.captures i)
    (others : ∀ j : SegId, j ≠ i → t.cap.segments[j] = s.cap.segments[j]) (j : SegId) (capturing : s.captures j) :
    t.captures j := by
  have other : j ≠ i := fun here => free (here ▸ capturing)
  unfold State.captures
  rw [others j other]
  exact capturing

/-- R52, R71: a drain completion ends no capture. -/
theorem captures_drain (sound : s.captureSound) (j : SegId) (capturing : s.captures j) : s.drain.captures j := by
  have segments := s.cap.drainOne_frame.2.2.1
  unfold State.drain
  extract_lets t u
  have kept : t.captures j := by
    unfold State.captures
    rw [show t.cap.segments = s.cap.segments from segments]
    exact capturing
  suffices u.captures j by
    exact ((State.SameSegments.of_eq (by simp)).captures_iff j).mpr this
  dsimp only [u]
  split
  · split
    · rename_i i draining
      have draining : s.cap.segments[i].drainPending = true := by
        rw [← segments]
        exact draining?_of_some draining
      exact absurd capturing ((sound.drainIdle draining).1 j)
    · exact kept
  · exact kept

theorem Change.requestWaits (sound : s.captureSound) (h : s.requestWaits) (change : Change s t) : t.requestWaits := by
  cases change with
  | cmd | emptied | raise | pfe | count | gapEnd | cal | endCalibration | dec | trg | dsp | capRest => exact h
  | raiseGlitch | raiseActivity | raiseLock | raiseError | evaluate | poolThreshold =>
    refine requestWaits_of_captures h (by simp) (by simp) fun i =>
      ((State.SameSegments.of_eq ?_).captures_iff i).mpr
    simp
  | request r waits => exact waits
  | switching x target switching => exact fun _ => .inr ⟨target, switching⟩
  | settled level _ none => exact fun some_ => absurd none some_
  | prepare i mask budget target limit annotationBudget unused =>
    refine requestWaits_of_captures h rfl rfl (captures_of_others (i := i) ?_ fun j other => ?_)
    · rcases unused with e | e <;> exact not_captures_of_state e nofun nofun
    · rw [setSegment_get, if_neg other]
  | segment i g _ _ _ state =>
    rcases state with same | ⟨-, isSealed, -⟩
    · refine requestWaits_of_captures h rfl rfl fun j capturing => ?_
      unfold State.captures
      rw [setSegment_get]
      split
      · subst_vars
        rw [same]
        exact capturing
      · exact capturing
    · refine requestWaits_of_captures h rfl rfl
        (captures_of_others (i := i) (not_captures_of_state isSealed nofun nofun) fun j other => ?_)
      rw [setSegment_get, if_neg other]
  | retireNow i unread =>
    refine requestWaits_of_captures h (by simp) (by simp) (captures_of_others (i := i) ?_ fun j other => ?_)
    · rcases unread with e | e | ⟨e, -⟩ <;> exact not_captures_of_state e nofun nofun
    · rw [retireNow_get, if_neg other]
  | startCapture i free =>
    obtain ⟨-, none, -⟩ := startRefusal_eq_none free
    exact requestWaits_of_captures h (by simp) (by simp) fun j capturing => absurd capturing (none j)
  | writeAnnotation i r =>
    exact requestWaits_of_captures h (by simp) (by simp) fun j capturing =>
      ((writeAnnotation_same s i r).captures_iff j).mpr capturing
  | drain => exact requestWaits_of_captures h (by simp) (by simp) (captures_drain sound)
  | softReset =>
    rw [State.softReset_eq]
    exact fun some_ => absurd rfl some_
  | powerOn => exact fun some_ => absurd rfl some_

/-! ## The second statement of O4 -/

theorem Quiet.periodsSound (sound : s.captureSound) (h : s.periodsSound) (chain : Quiet s t) : t.periodsSound := by
  suffices t.captureSound ∧ t.periodsSound from this.2
  induction chain with
  | refl => exact ⟨sound, h⟩
  | tail _ last ih =>
    obtain ⟨timing, waits⟩ := periodsSound_iff.mp ih.2
    exact ⟨last.captureSound ih.1, periodsSound_iff.mpr ⟨last.timingSound ih.1 timing, last.requestWaits ih.1 waits⟩⟩

theorem Changes.timingSound (sound : s.captureSound) (h : s.timingSound) (chain : Changes s t) :
    t.captureSound ∧ t.timingSound := by
  induction chain with
  | refl => exact ⟨sound, h⟩
  | tail _ last ih =>
    rcases last with change | ending
    · exact ⟨change.captureSound ih.1, change.timingSound ih.1 ih.2⟩
    · exact ⟨ending.captureSound ih.1, ending.steps.keep CapStep.timingSound ih.2⟩

/-- R30, R31, R90: an accepted CALIBRATE. -/
theorem periodsSound_acceptCalibrate (h : s.periodsSound) (free : s.calibrateRefusal = none) (channels : Lines)
    (seed tolerance : Nat) : (s.acceptCalibrate channels seed tolerance).periodsSound := by
  obtain ⟨timing, waits⟩ := periodsSound_iff.mp h
  unfold State.calibrateRefusal at free
  simp only [ite_some_eq_none, not_or] at free
  obtain ⟨-, ⟨captures, switches, -⟩, -⟩ := free
  refine periodsSound_iff.mpr ⟨⟨fun i => ?_, fun _ => ⟨?_, ?_⟩⟩, waits⟩
  · show ((s.dec.contexts.map Context.suspendForCal)[i]).Timed s.dec.level _
    rw [map_get]
    have suspended := Context.suspendForCal_timed (timing.contexts i)
    exact ⟨suspended.window, suspended.period, fun _ => .inl rfl⟩
  · show s.lvl.transition = .steady
    cases transition : s.lvl.transition with
    | steady => rfl
    | switching target => exact absurd ((isSwitching_iff s).mpr ⟨target, transition⟩) switches
  · by_contra some_
    exact (waits some_).elim (fun c => captures ((capturing?_isSome s).mpr c)) fun c => switches ((isSwitching_iff s).mpr c)

theorem after_periodsSound (c : Instr) (sound : s.captureSound) (h : s.periodsSound) : (s.after c).periodsSound := by
  rcases after_runs (s := s) c with ⟨u, start, chain⟩ | ⟨channels, seed, tolerance, free, chain⟩
  · have settled : u.captureSound ∧ u.periodsSound := by
      rcases start with rfl | ⟨changes, waits⟩
      · exact ⟨sound, h⟩
      · obtain ⟨soundU, timing⟩ := changes.timingSound sound (periodsSound_iff.mp h).1
        exact ⟨soundU, periodsSound_iff.mpr ⟨timing, waits⟩⟩
    exact chain.periodsSound settled.1 settled.2
  · exact chain.periodsSound (captureSound_acceptCalibrate sound free channels seed tolerance)
      (periodsSound_acceptCalibrate h free channels seed tolerance)

end Sys2Proof.Machine
end

section
/-! PROOFS. Every page held once (O4, its fourth statement): the pool and the chains as one family over the owners, and what
an allocation, a rotation and a release make of it. -/

namespace Sys2Proof.Machine

/-- The chain of an owner: the free pool, or a chain of a segment. -/
def Cap.chainOf (c : Cap) : PageOwner → Chain
  | .free => c.pool
  | .records i => c.segments[i].records
  | .annotations i => c.segments[i].annotations

/-- The owners other than the free pool. -/
def chainOwners : List PageOwner := (List.finRange 8).flatMap fun i => [.records i, .annotations i]

theorem mem_chainOwners {o : PageOwner} (some_ : o ≠ .free) : o ∈ chainOwners := by
  cases o with
  | free => exact absurd rfl some_
  | records i => exact List.mem_flatMap.mpr ⟨i, List.mem_finRange i, by simp⟩
  | annotations i => exact List.mem_flatMap.mpr ⟨i, List.mem_finRange i, by simp⟩

theorem free_notMem_chainOwners : PageOwner.free ∉ chainOwners := by
  intro mem
  obtain ⟨i, -, here⟩ := List.mem_flatMap.mp mem
  simp at here

/-- R43 to R45, R57: chain by chain, the pages that the owners of `c` hold in the page map, every page once. -/
structure HeldBy (m : PageMap) (c : PageOwner → Chain) (f : PageOwner → List Nat) : Prop where
  holds : ∀ o, (c o).holds m o (f o)
  every : (f .free ++ chainOwners.flatMap f).Perm (List.range 32768)

section Lists

variable {f f' : PageOwner → List Nat} {o : PageOwner}

/-- Pages moved between the pool and one chain. -/
theorem perm_of_moved (some_ : o ≠ .free) (others : ∀ x, x ≠ .free → x ≠ o → f' x = f x)
    (moved : (f' .free ++ f' o).Perm (f .free ++ f o)) :
    (f' .free ++ chainOwners.flatMap f').Perm (f .free ++ chainOwners.flatMap f) := by
  have front (g : PageOwner → List Nat) :
      (chainOwners.flatMap g).Perm (g o ++ (chainOwners.erase o).flatMap g) :=
    (List.perm_cons_erase (mem_chainOwners some_)).flatMap_right g
  have rest : (chainOwners.erase o).flatMap f' = (chainOwners.erase o).flatMap f := by
    refine List.flatMap_congr fun x mem => others x ?_ ?_
    · exact fun here => free_notMem_chainOwners (here ▸ List.mem_of_mem_erase mem)
    · exact fun here => (List.Nodup.not_mem_erase (by decide)) (here ▸ mem)
  calc (f' .free ++ chainOwners.flatMap f').Perm (f' .free ++ (f' o ++ (chainOwners.erase o).flatMap f')) :=
        (front f').append_left _
    _ = (f' .free ++ f' o) ++ (chainOwners.erase o).flatMap f := by rw [rest, List.append_assoc]
    List.Perm _ ((f .free ++ f o) ++ (chainOwners.erase o).flatMap f) := moved.append_right _
    _ = f .free ++ (f o ++ (chainOwners.erase o).flatMap f) := List.append_assoc _ _ _
    List.Perm _ (f .free ++ chainOwners.flatMap f) := ((front f).symm).append_left _

end Lists

namespace HeldBy

variable {m m' : PageMap} {c c' : PageOwner → Chain} {f : PageOwner → List Nat} {o : PageOwner}

theorem owner (h : HeldBy m c f) {q : Nat} (mem : q ∈ f o) : (PageMap.get m q).owner = o := by
  obtain ⟨-, -, -, links⟩ := h.holds o
  obtain ⟨k, here⟩ := List.mem_iff_getElem?.mp mem
  rw [links k q here]

theorem nodup (h : HeldBy m c f) (some_ : o ≠ .free) : (f .free ++ f o).Nodup := by
  have all : (f .free ++ chainOwners.flatMap f).Nodup := h.every.nodup_iff.mpr List.nodup_range
  have part : (f o).Sublist (chainOwners.flatMap f) := List.sublist_flatten_of_mem
    (List.mem_map_of_mem (mem_chainOwners some_))
  exact all.sublist (part.append_left _)

/-- The tail of a chain that is not empty has its owner. -/
theorem tail (h : HeldBy m c f) (some_ : (c o).count ≠ 0) :
    ∃ t, (c o).tail = some t ∧ (PageMap.get m t).owner = o := by
  obtain ⟨count, -, tail, -⟩ := h.holds o
  rcases List.eq_nil_or_concat (f o) with none | ⟨front, t, concat⟩
  · rw [count, none] at some_
    exact absurd rfl some_
  · refine ⟨t, ?_, h.owner (q := t) ?_⟩
    · rw [tail, concat, List.concat_eq_append, List.getLast?_concat]
    · rw [concat]
      simp

/-- A chain without a page is the empty one. -/
theorem eq_empty (h : HeldBy m c f) (none : (c o).count = 0) : c o = {} := by
  obtain ⟨count, head, tail, -⟩ := h.holds o
  have empty : f o = [] := List.eq_nil_of_length_eq_zero (count.symm.trans none)
  rw [empty] at head tail
  cases chain : c o
  simp_all

theorem count_eq_zero_iff (h : HeldBy m c f) : (c o).count = 0 ↔ f o = [] := by
  rw [(h.holds o).1, List.length_eq_zero_iff]

/-- Pages moved between the pool and the chain of `o`, with the page map left alone elsewhere. -/
theorem move (h : HeldBy m c f) (some_ : o ≠ .free) {pool own : List Nat} (free : (c' .free).holds m' .free pool)
    (held : (c' o).holds m' o own) (others : ∀ x, x ≠ .free → x ≠ o → c' x = c x)
    (untouched : ∀ q, q ∉ f .free ++ f o → PageMap.get m' q = PageMap.get m q)
    (moved : (pool ++ own).Perm (f .free ++ f o)) : ∃ f', HeldBy m' c' f' := by
  have here (g : PageOwner → List Nat) (x : PageOwner) (other : x ≠ .free) (other' : x ≠ o) :
      (fun x => if x = .free then pool else if x = o then own else g x) x = g x := by
    dsimp only
    rw [if_neg other, if_neg other']
  refine ⟨fun x => if x = .free then pool else if x = o then own else f x, fun x => ?_, ?_⟩
  · split
    · subst_vars
      exact free
    · split
      · subst_vars
        exact held
      · rename_i other other'
        rw [others x other other']
        refine Chain.holds_congr (h.holds x) fun q mem => untouched q fun moved => ?_
        have isX := h.owner mem
        rcases List.mem_append.mp moved with mem | mem
        · exact other (isX.symm.trans (h.owner mem))
        · exact other' (isX.symm.trans (h.owner mem))
  · refine (perm_of_moved some_ (here f) ?_).trans h.every
    rw [if_pos rfl, if_neg some_, if_pos rfl]
    exact moved

/-- What keeps its owner where only pages of the pool and of one chain change. -/
theorem untouched (h : HeldBy m c f)
    (same : ∀ q, q ∉ f .free ++ f o → PageMap.get m' q = PageMap.get m q) {q : Nat} {x : PageOwner} (other : x ≠ .free)
    (other' : x ≠ o) (isX : (PageMap.get m q).owner = x) : (PageMap.get m' q).owner = x := by
  rw [same q fun mem => ?_]
  · exact isX
  · rcases List.mem_append.mp mem with mem | mem
    · exact other (isX.symm.trans (h.owner mem))
    · exact other' (isX.symm.trans (h.owner mem))

/-- Every page of a family has an owner that keeps it where the chain of `o` keeps its pages too. -/
theorem owners_kept (h : HeldBy m c f) {own : List Nat} (held : (c' o).holds m' o own) (kept : ∀ q ∈ f o, q ∈ own)
    (same : ∀ q, q ∉ f .free ++ f o → PageMap.get m' q = PageMap.get m q) {q : Nat} {x : PageOwner} (other : x ≠ .free)
    (isX : (PageMap.get m q).owner = x) : (PageMap.get m' q).owner = x := by
  by_cases mem : q ∈ f o
  · obtain ⟨k, here⟩ := List.mem_iff_getElem?.mp (kept q mem)
    rw [held.2.2.2 k q here]
    exact (h.owner mem).symm.trans isX
  · rw [same q fun elsewhere => ?_]
    · exact isX
    · rcases List.mem_append.mp elsewhere with free | mem'
      · exact other (isX.symm.trans (h.owner free))
      · exact mem mem'

/-- R44: a page of the pool becomes the tail of a chain; no page of a chain changes its owner. -/
theorem grow (h : HeldBy m c f) (wf : PageMap.wf m) (some_ : o ≠ .free) {p : Nat} {left : Chain}
    (taken : takePage m (c .free) = some (p, left)) (pool : c' .free = left)
    (own : c' o = (linkPage m (c o) p o).2) (others : ∀ x, x ≠ .free → x ≠ o → c' x = c x) :
    (∃ f', HeldBy (linkPage m (c o) p o).1 c' f')
      ∧ (∀ q x, x ≠ .free → (PageMap.get m q).owner = x → (PageMap.get (linkPage m (c o) p o).1 q).owner = x)
      ∧ (c' o).count = (c o).count + 1 := by
  cases pages : f .free with
  | nil =>
    unfold takePage at taken
    rw [if_pos (h.count_eq_zero_iff.mpr pages)] at taken
    cases taken
  | cons head rest =>
    obtain ⟨left', taken', free⟩ := takePage_holds (pages ▸ h.holds .free)
    rw [taken] at taken'
    obtain ⟨rfl, rfl⟩ : p = head ∧ left = left' := by cases taken'; exact ⟨rfl, rfl⟩
    have apart : (p :: rest ++ f o).Nodup := pages ▸ h.nodup some_
    have distinct : (f o ++ [p]).Nodup := by
      refine List.Perm.nodup (List.perm_append_comm (l₁ := [p])) ?_
      exact apart.sublist (List.Sublist.append_right (by simp) _)
    obtain ⟨held, same⟩ := linkPage_holds wf (h.holds o) distinct
    have untouched (q : Nat) (out : q ∉ f .free ++ f o) :
        PageMap.get (linkPage m (c o) p o).1 q = PageMap.get m q := by
      refine same q fun mem => out ?_
      rw [pages]
      rcases List.mem_append.mp mem with mem | mem
      · exact List.mem_append_right _ mem
      · exact List.mem_append_left _ (List.mem_cons.mpr (.inl (List.mem_singleton.mp mem)))
    rw [← own] at held
    have free' : left.holds (linkPage m (c o) p o).1 .free rest := by
      refine Chain.holds_congr free fun q mem => same q fun elsewhere => ?_
      rcases List.mem_append.mp elsewhere with mem' | mem'
      · exact (List.disjoint_of_nodup_append (List.nodup_cons.mp apart).2) mem mem'
      · rw [List.mem_singleton] at mem'
        subst mem'
        exact (List.nodup_cons.mp apart).1 (List.mem_append_left _ mem)
    refine ⟨h.move some_ (by rw [pool]; exact free') held others untouched ?_,
      fun q x other isX => h.owners_kept held (fun q mem => List.mem_append_left _ mem) untouched other isX, ?_⟩
    · rw [pages]
      calc (rest ++ (f o ++ [p])).Perm ((f o ++ [p]) ++ rest) := List.perm_append_comm
        List.Perm _ (p :: (rest ++ f o)) := by
          rw [List.append_assoc, List.singleton_append]
          exact List.perm_middle.trans ((List.perm_append_comm).cons p)
    · rw [held.1, (h.holds o).1]
      simp

/-- R45, R63: a rotation keeps every page with its owner. -/
theorem rotate (h : HeldBy m c f) (wf : PageMap.wf m) (some_ : o ≠ .free)
    (own : c' o = (rotateChain m (c o)).2) (others : ∀ x, x ≠ o → c' x = c x) :
    (∃ f', HeldBy (rotateChain m (c o)).1 c' f')
      ∧ (∀ q x, x ≠ .free → (PageMap.get m q).owner = x → (PageMap.get (rotateChain m (c o)).1 q).owner = x)
      ∧ (c' o).count = (c o).count := by
  have apart := h.nodup some_
  obtain ⟨turned, perm, held, same⟩ := rotateChain_holds wf (h.holds o) (List.Nodup.of_append_right apart)
  rw [← own] at held
  have untouched (q : Nat) (out : q ∉ f .free ++ f o) :
      PageMap.get (rotateChain m (c o)).1 q = PageMap.get m q :=
    same q fun mem => out (List.mem_append_right _ mem)
  have free : (c' .free).holds (rotateChain m (c o)).1 .free (f .free) := by
    rw [others _ (Ne.symm some_)]
    exact Chain.holds_congr (h.holds .free) fun q mem => same q fun mem' => (List.disjoint_of_nodup_append apart) mem mem'
  refine ⟨h.move some_ free held (fun x _ => others x) untouched (perm.append_left _),
    fun q x other isX => h.owners_kept held (fun q mem => perm.mem_iff.mpr mem) untouched other isX, ?_⟩
  rw [held.1, (h.holds o).1, perm.length_eq]

/-- R45: a chain returned to the pool; the pages of the others keep their owners. -/
theorem release {s : State} (h : HeldBy s.cap.pages c f) (wf : PageMap.wf s.cap.pages) (some_ : o ≠ .free)
    (before : c .free = s.cap.pool) (pool : c' .free = (s.release (c o)).cap.pool) (own : c' o = {})
    (others : ∀ x, x ≠ .free → x ≠ o → c' x = c x) :
    (∃ f', HeldBy (s.release (c o)).cap.pages c' f')
      ∧ ∀ q x, x ≠ .free → x ≠ o → (PageMap.get s.cap.pages q).owner = x →
        (PageMap.get (s.release (c o)).cap.pages q).owner = x := by
  obtain ⟨freed, same⟩ := s.release_holds wf (before ▸ h.holds .free) (h.holds o) (h.nodup some_)
  refine ⟨h.move some_ (pool ▸ freed) (own := []) ?_ others same (by simp), fun q x other other' isX =>
    h.untouched same other other' isX⟩
  rw [own]
  exact ⟨rfl, rfl, rfl, linked_nil _ _⟩

end HeldBy

/-! ## States -/

/-- R57: a VACANT or PRIMED segment holds no page. -/
def State.unusedEmpty (s : State) : Prop := ∀ i : SegId,
  s.cap.segments[i].state = .vacant ∨ s.cap.segments[i].state = .primed →
    s.cap.segments[i].records.count = 0 ∧ s.cap.segments[i].annotations.count = 0

theorem pagesSound_iff (s : State) :
    s.pagesSound ↔ (∃ f, HeldBy s.cap.pages s.cap.chainOf f) ∧ s.unusedEmpty := by
  have order (f : PageOwner → List Nat) : ((List.finRange 8).flatMap fun i => f (.records i) ++ f (.annotations i))
      = chainOwners.flatMap f := by
    unfold chainOwners
    rw [List.flatMap_assoc]
    simp
  constructor
  · rintro ⟨pool, records, annotations, free, chains, every⟩
    obtain ⟨f, rfl, rfl, rfl⟩ : ∃ f : PageOwner → List Nat, f .free = pool ∧ (fun i => f (.records i)) = records
        ∧ (fun i => f (.annotations i)) = annotations :=
      ⟨fun | .free => pool | .records i => records i | .annotations i => annotations i, rfl, rfl, rfl⟩
    refine ⟨⟨f, fun o => ?_, order f ▸ every⟩, fun i unused => ?_⟩
    · cases o with
      | free => exact free
      | records i => exact (chains i).1
      | annotations i => exact (chains i).2.1
    · obtain ⟨held, heldAnnotations, none⟩ := chains i
      obtain ⟨noRecords, noAnnotations⟩ := none unused
      dsimp only at noRecords noAnnotations held heldAnnotations
      rw [held.1, heldAnnotations.1, noRecords, noAnnotations]
      exact ⟨rfl, rfl⟩
  · rintro ⟨⟨f, held⟩, unused⟩
    refine ⟨f .free, fun i => f (.records i), fun i => f (.annotations i), held.holds .free, fun i =>
      ⟨held.holds (.records i), held.holds (.annotations i), fun none => ?_⟩, order f ▸ held.every⟩
    obtain ⟨noRecords, noAnnotations⟩ := unused i none
    exact ⟨held.count_eq_zero_iff.mp noRecords, held.count_eq_zero_iff.mp noAnnotations⟩

end Sys2Proof.Machine
end

section
/-! PROOFS. Pages and staged entries (O4, its fourth and sixth statements): one invariant, with the part about staged
entries where `Q` holds, so that each operation is gone through once for both statements. -/

namespace Sys2Proof.Machine

variable {s t u : State} {i : SegId} {Q : Prop}

/-- The page map in canonical form, every page held once, and, where `Q`, what is staged in its place. -/
structure State.storageSound (Q : Prop) (s : State) : Prop where
  wf : PageMap.wf s.cap.pages
  held : ∃ f, HeldBy s.cap.pages s.cap.chainOf f
  unused : s.unusedEmpty
  staged : Q → s.stagedSound

/-- R45: a segment's record and annotation pages keep their owner. -/
def State.keepsPages (s t : State) (i : SegId) : Prop := ∀ q x, x = .records i ∨ x = .annotations i →
  (PageMap.get s.cap.pages q).owner = x → (PageMap.get t.cap.pages q).owner = x

theorem storageSound_of (h : s.storageSound Q) (wf : PageMap.wf t.cap.pages)
    (held : ∃ f, HeldBy t.cap.pages t.cap.chainOf f) (unused : t.unusedEmpty)
    (entries : ∀ e ∈ t.cap.staged, e ∈ s.cap.staged)
    (annotations : ∀ a ∈ t.cap.stagedAnnotations, a ∈ s.cap.stagedAnnotations)
    (holders : ¬ t.nothingStaged → ∀ i, s.holdsEncoder i → t.holdsEncoder i ∧ s.keepsPages t i)
    (chains : ∀ i : SegId, t.captures i → s.captures i
      ∧ s.cap.segments[i].records.count ≤ t.cap.segments[i].records.count
      ∧ s.cap.segments[i].annotations.count ≤ t.cap.segments[i].annotations.count) : t.storageSound Q where
  wf := wf
  held := held
  unused := unused
  staged q := by
    have sound := h.staged q
    refine ⟨fun i capturing => ?_, fun e mem => ?_, fun a mem => ?_⟩
    · obtain ⟨before, records, annotations⟩ := chains i capturing
      obtain ⟨some_, some'⟩ := sound.chains i before
      omega
    · obtain ⟨slot, j, holds, owner⟩ := sound.entries e (entries e mem)
      obtain ⟨holding, kept⟩ := holders (fun none => by rw [none.1] at mem; cases mem) j holds
      exact ⟨slot, j, holding, kept _ _ (.inl rfl) owner⟩
    · obtain ⟨slot, j, holds, owner⟩ := sound.annotations a (annotations a mem)
      obtain ⟨holding, kept⟩ := holders (fun none => by rw [none.2] at mem; cases mem) j holds
      exact ⟨slot, j, holding, kept _ _ (.inr rfl) owner⟩

theorem chainOf_congr {c d : Cap} (pool : d.pool = c.pool) (records : ∀ j : SegId, d.segments[j].records = c.segments[j].records)
    (annotations : ∀ j : SegId, d.segments[j].annotations = c.segments[j].annotations) : d.chainOf = c.chainOf := by
  funext o
  cases o with
  | free => exact pool
  | records j => exact records j
  | annotations j => exact annotations j

theorem chainOf_setSegment (s : State) (i : SegId) (g : Segment) (o : PageOwner) :
    (s.setSegment i g).cap.chainOf o
      = if o = .records i then g.records else if o = .annotations i then g.annotations else s.cap.chainOf o := by
  cases o with
  | free => simp [Cap.chainOf]
  | records j =>
    simp only [Cap.chainOf, setSegment_get, PageOwner.records.injEq, reduceCtorEq, if_false]
    split <;> rfl
  | annotations j =>
    simp only [Cap.chainOf, setSegment_get, PageOwner.annotations.injEq, reduceCtorEq, if_false]
    split <;> rfl

/-- A change of no page and no chain. -/
theorem storageSound_of_chains (h : s.storageSound Q) (pages : t.cap.pages = s.cap.pages)
    (chain : t.cap.chainOf = s.cap.chainOf)
    (unused : ∀ j : SegId, t.cap.segments[j].state = .vacant ∨ t.cap.segments[j].state = .primed →
      s.cap.segments[j].state = .vacant ∨ s.cap.segments[j].state = .primed)
    (entries : ∀ e ∈ t.cap.staged, e ∈ s.cap.staged)
    (annotations : ∀ a ∈ t.cap.stagedAnnotations, a ∈ s.cap.stagedAnnotations)
    (holders : ¬ t.nothingStaged → ∀ i, s.holdsEncoder i → t.holdsEncoder i)
    (captures : ∀ i, t.captures i → s.captures i) : t.storageSound Q := by
  have records (j : SegId) : t.cap.segments[j].records = s.cap.segments[j].records := congrFun chain (.records j)
  have annotationChains (j : SegId) : t.cap.segments[j].annotations = s.cap.segments[j].annotations :=
    congrFun chain (.annotations j)
  refine storageSound_of h (pages ▸ h.wf) (by rw [pages, chain]; exact h.held) (fun j none => ?_) entries annotations
    (fun some_ j holds => ⟨holders some_ j holds, fun q x _ owner => by rw [pages]; exact owner⟩) fun j capturing => ?_
  · rw [records, annotationChains]
    exact h.unused j (unused j none)
  · rw [records, annotationChains]
    exact ⟨captures j capturing, le_rfl, le_rfl⟩

/-- A change under which segments keep their states, their drains and their chains. -/
theorem storageSound_of_same (h : s.storageSound Q) (pages : t.cap.pages = s.cap.pages)
    (chain : t.cap.chainOf = s.cap.chainOf) (same : s.SameSegments t) (entries : ∀ e ∈ t.cap.staged, e ∈ s.cap.staged)
    (annotations : ∀ a ∈ t.cap.stagedAnnotations, a ∈ s.cap.stagedAnnotations) : t.storageSound Q :=
  storageSound_of_chains h pages chain (fun j => by rw [(same j).1]; exact fun none => none) entries annotations
    (fun _ j => (same.holdsEncoder_iff j).mpr) fun j => (same.captures_iff j).mp

theorem storageSound_of_cap (h : s.storageSound Q) (pages : t.cap.pages = s.cap.pages) (pool : t.cap.pool = s.cap.pool)
    (segments : t.cap.segments = s.cap.segments) (staged : t.cap.staged = s.cap.staged)
    (annotations : t.cap.stagedAnnotations = s.cap.stagedAnnotations) : t.storageSound Q :=
  storageSound_of_same h pages (chainOf_congr pool (by simp [segments]) (by simp [segments])) (.of_eq segments)
    (by simp [staged]) (by simp [annotations])

/-- One segment replaced by one with its chains. -/
theorem storageSound_setSegment (h : s.storageSound Q) {g : Segment} (records : g.records = s.cap.segments[i].records)
    (annotations : g.annotations = s.cap.segments[i].annotations)
    (unused : g.state = .vacant ∨ g.state = .primed →
      s.cap.segments[i].state = .vacant ∨ s.cap.segments[i].state = .primed)
    (holder : ¬ s.nothingStaged → s.holdsEncoder i → (s.setSegment i g).holdsEncoder i)
    (captures : (s.setSegment i g).captures i → s.captures i) : (s.setSegment i g).storageSound Q := by
  refine storageSound_of_chains h rfl ?_ (fun j => ?_) (fun _ mem => mem) (fun _ mem => mem) (fun some_ j holds => ?_)
    fun j capturing => ?_
  · funext o
    rw [chainOf_setSegment]
    split
    · subst_vars
      exact records
    · split
      · subst_vars
        exact annotations
      · rfl
  · rw [setSegment_get]
    split
    · subst_vars
      exact unused
    · exact fun none => none
  · by_cases here : j = i
    · subst here
      exact holder some_ holds
    · unfold State.holdsEncoder State.captures
      rw [setSegment_get, if_neg here]
      exact holds
  · by_cases here : j = i
    · subst here
      exact captures capturing
    · unfold State.captures at capturing
      rw [setSegment_get, if_neg here] at capturing
      exact capturing

/-! ## Chains that grow, rotate and return to the pool -/

/-- A chain of a capturing segment with its pages moved, the pool's with them. -/
theorem storageSound_chain (h : s.storageSound Q) {o : PageOwner} (captured : o = .records i ∨ o = .annotations i)
    (captures : s.captures i) (wf : PageMap.wf t.cap.pages) (held : ∃ f, HeldBy t.cap.pages t.cap.chainOf f)
    (owners : ∀ q x, x ≠ .free → (PageMap.get s.cap.pages q).owner = x → (PageMap.get t.cap.pages q).owner = x)
    (count : (s.cap.chainOf o).count ≤ (t.cap.chainOf o).count)
    (others : ∀ x, x ≠ .free → x ≠ o → t.cap.chainOf x = s.cap.chainOf x) (same : s.SameSegments t)
    (staged : t.cap.staged = s.cap.staged) (annotations : t.cap.stagedAnnotations = s.cap.stagedAnnotations) :
    t.storageSound Q := by
  refine storageSound_of h wf held (fun j none => ?_) (by simp [staged]) (by simp [annotations])
    (fun _ j holds => ⟨(same.holdsEncoder_iff j).mpr holds, fun q x other =>
      owners q x (by rcases other with rfl | rfl <;> nofun)⟩) fun j capturing => ?_
  · rw [(same j).1] at none
    have other : j ≠ i := by
      rintro rfl
      rcases none with e | e <;> exact not_captures_of_state e nofun nofun captures
    obtain ⟨noRecords, noAnnotations⟩ := h.unused j none
    have records := others (.records j) nofun (by rcases captured with rfl | rfl <;> simp [other])
    have annotationChain := others (.annotations j) nofun (by rcases captured with rfl | rfl <;> simp [other])
    exact ⟨(congrArg Chain.count records).trans noRecords, (congrArg Chain.count annotationChain).trans noAnnotations⟩
  · have atLeast (x : PageOwner) (some_ : x ≠ .free) : (s.cap.chainOf x).count ≤ (t.cap.chainOf x).count := by
      by_cases here : x = o
      · exact here ▸ count
      · exact le_of_eq (congrArg Chain.count (others x some_ here)).symm
    exact ⟨(same.captures_iff j).mp capturing, atLeast (.records j) nofun, atLeast (.annotations j) nofun⟩

theorem allocate_spec {o : PageOwner} {c chain : Chain} (h : s.allocate o c = some (t, chain)) :
    ∃ p, takePage s.cap.pages s.cap.pool = some (p, t.cap.pool) ∧ t.cap.pages = (linkPage s.cap.pages c p o).1
      ∧ chain = (linkPage s.cap.pages c p o).2 := by
  unfold State.allocate at h
  split at h
  · cases h
  · rename_i p pool taken
    cases h
    exact ⟨p, by simpa using taken, by simp [linkPage], rfl⟩

/-- R44: a page allocated to a chain of a capturing segment. -/
theorem storageSound_allocate (h : s.storageSound Q) {o : PageOwner} (captured : o = .records i ∨ o = .annotations i)
    (captures : s.captures i) {chain : Chain} (allocated : s.allocate o (s.cap.chainOf o) = some (t, chain))
    (pages : u.cap.pages = t.cap.pages) (pool : u.cap.pool = t.cap.pool) (own : u.cap.chainOf o = chain)
    (others : ∀ x, x ≠ .free → x ≠ o → u.cap.chainOf x = s.cap.chainOf x) (same : s.SameSegments u)
    (staged : u.cap.staged = t.cap.staged) (annotations : u.cap.stagedAnnotations = t.cap.stagedAnnotations) :
    u.storageSound Q := by
  have some_ : o ≠ .free := by rcases captured with rfl | rfl <;> nofun
  obtain ⟨f, held⟩ := h.held
  obtain ⟨p, taken, mapped, rfl⟩ := allocate_spec allocated
  obtain ⟨grown, owners, count⟩ := held.grow (c' := u.cap.chainOf) h.wf some_ taken pool own others
  rw [← mapped, ← pages] at grown owners
  have frame := State.allocate_frame allocated
  simp only at frame
  refine storageSound_chain h captured captures ?_ grown owners (Nat.le.intro count.symm) others same
    (by simp [staged, frame]) (by simp [annotations, frame])
  rw [pages, mapped]
  exact linkPage_wf h.wf _ _ _

/-- R45, R63: a chain of a capturing segment rotated. -/
theorem storageSound_rotate (h : s.storageSound Q) {o : PageOwner} (captured : o = .records i ∨ o = .annotations i)
    (captures : s.captures i) (pages : u.cap.pages = (rotateChain s.cap.pages (s.cap.chainOf o)).1)
    (own : u.cap.chainOf o = (rotateChain s.cap.pages (s.cap.chainOf o)).2)
    (others : ∀ x, x ≠ o → u.cap.chainOf x = s.cap.chainOf x) (same : s.SameSegments u)
    (staged : u.cap.staged = s.cap.staged) (annotations : u.cap.stagedAnnotations = s.cap.stagedAnnotations) :
    u.storageSound Q := by
  have some_ : o ≠ .free := by rcases captured with rfl | rfl <;> nofun
  obtain ⟨f, held⟩ := h.held
  obtain ⟨turned, owners, count⟩ := held.rotate (c' := u.cap.chainOf) h.wf some_ own others
  rw [← pages] at turned owners
  refine storageSound_chain h captured captures ?_ turned owners count.ge (fun x _ => others x) same staged annotations
  rw [pages]
  exact rotateChain_wf h.wf _

theorem release_wf (wf : PageMap.wf s.cap.pages) (c : Chain) : PageMap.wf (s.release c).cap.pages := by
  unfold State.release
  split
  · extract_lets freed ended linked head src
    have endedWf : PageMap.wf ended := PageMap.setNext_wf (ownPages_wf wf _ _) _ _
    simp only [State.checkPool_frame, State.setCap_cap]
    dsimp only [linked]
    split
    · exact PageMap.setNext_wf endedWf _ _
    · exact endedWf
  · exact wf

theorem release_chainOf (s : State) (c : Chain) {o : PageOwner} (other : o ≠ .free) :
    (s.release c).cap.chainOf o = s.cap.chainOf o := by
  cases o with
  | free => exact absurd rfl other
  | records j => simp [Cap.chainOf]
  | annotations j => simp [Cap.chainOf]

/-- R45, R57: both chains of a segment back in the pool; the pages of the others keep their owners. -/
theorem vacate_held (h : s.storageSound Q) (i : SegId) : PageMap.wf (s.vacate i).cap.pages
    ∧ (∃ f, HeldBy (s.vacate i).cap.pages (s.vacate i).cap.chainOf f)
    ∧ ∀ q x, x ≠ .free → x ≠ .records i → x ≠ .annotations i → (PageMap.get s.cap.pages q).owner = x →
      (PageMap.get (s.vacate i).cap.pages q).owner = x := by
  obtain ⟨f, held⟩ := h.held
  let first := s.release (s.cap.chainOf (.records i))
  let between := Function.update first.cap.chainOf (.records i) {}
  have firstWf : PageMap.wf first.cap.pages := release_wf h.wf _
  have between_get (x : PageOwner) (other : x ≠ .records i) : between x = first.cap.chainOf x :=
    Function.update_of_ne other _ _
  obtain ⟨⟨f', mid⟩, owners⟩ := held.release (o := .records i) (c' := between) h.wf nofun rfl (between_get _ nofun)
    (Function.update_self _ _ _)
    fun x other other' => (between_get x other').trans (release_chainOf s _ other)
  have annotations : between (.annotations i) = s.cap.segments[i].annotations :=
    (between_get (.annotations i) nofun).trans (release_chainOf s _ nofun)
  have vacated (x : PageOwner) : (s.vacate i).cap.chainOf x = if x = .records i then {} else if x = .annotations i then {}
      else (first.release s.cap.segments[i].annotations).cap.chainOf x := chainOf_setSegment _ _ _ _
  obtain ⟨final, owners'⟩ := mid.release (s := first) (o := .annotations i) (c' := (s.vacate i).cap.chainOf) firstWf nofun
    (between_get _ nofun) (by rw [annotations]; rfl) (by rw [vacated, if_neg nofun, if_pos rfl])
    fun x other other' => by
      rw [vacated, if_neg other']
      split
      · subst_vars
        exact (Function.update_self (.records i) ({} : Chain) first.cap.chainOf).symm
      · rename_i other''
        rw [release_chainOf _ _ other, between_get x other'']
  rw [annotations] at final owners'
  exact ⟨release_wf firstWf _, final, fun q x other other' other'' owner =>
    owners' q x other other'' (owners q x other other' owner)⟩

/-- R45, R57: a segment vacated that holds no encoder, or with nothing staged. -/
theorem storageSound_vacate (h : s.storageSound Q) (free : s.nothingStaged ∨ ¬ s.holdsEncoder i) :
    (s.vacate i).storageSound Q := by
  obtain ⟨wf, held, owners⟩ := vacate_held h i
  refine storageSound_of h wf held (fun j none => ?_) (by simp) (by simp) (fun some_ j holds => ?_) fun j capturing => ?_
  · rw [vacate_get] at none ⊢
    split
    · exact ⟨rfl, rfl⟩
    · rename_i other
      rw [if_neg other] at none
      exact h.unused j none
  · have other : j ≠ i := by
      rintro rfl
      rcases free with nothing | free
      · exact some_ ⟨by simpa using nothing.1, by simpa using nothing.2⟩
      · exact free holds
    refine ⟨?_, fun q x isX owner => owners q x ?_ ?_ ?_ owner⟩
    · unfold State.holdsEncoder State.captures
      rw [vacate_get, if_neg other]
      exact holds
    all_goals rcases isX with rfl | rfl <;> simp [other]
  · unfold State.captures at capturing
    rw [vacate_get] at capturing ⊢
    split at capturing
    · rcases capturing with e | e <;> cases e
    · rename_i other
      rw [if_neg other]
      exact ⟨capturing, le_rfl, le_rfl⟩

end Sys2Proof.Machine
end

section
/-! PROOFS. Pages and staged entries (O4): the operations of capture memory. -/

namespace Sys2Proof.Machine

variable {s t u : State} {i : SegId} {Q : Prop}

/-! ## Entries and annotations staged (R47, R51, R55) -/

/-- What is staged anew lies in the tail pages of the capturing segment. -/
theorem storageSound_stage (h : s.storageSound Q) (captures : s.captures i) (pages : t.cap.pages = s.cap.pages)
    (chain : t.cap.chainOf = s.cap.chainOf) (same : s.SameSegments t)
    (entries : ∀ e ∈ t.cap.staged, e ∈ s.cap.staged
      ∨ (e.slot < 510 ∧ e.page = s.cap.segments[i].records.tail.getD 0))
    (annotations : ∀ a ∈ t.cap.stagedAnnotations, a ∈ s.cap.stagedAnnotations
      ∨ (a.slot < 256 ∧ a.page = s.cap.segments[i].annotations.tail.getD 0)) : t.storageSound Q where
  wf := pages ▸ h.wf
  held := by rw [pages, chain]; exact h.held
  unused j none := by
    rw [(same j).1] at none
    have records := congrFun chain (.records j)
    have annotationChain := congrFun chain (.annotations j)
    obtain ⟨noRecords, noAnnotations⟩ := h.unused j none
    exact ⟨(congrArg Chain.count records).trans noRecords, (congrArg Chain.count annotationChain).trans noAnnotations⟩
  staged q := by
    have sound := h.staged q
    obtain ⟨f, held⟩ := h.held
    obtain ⟨some_, some'⟩ := sound.chains i captures
    have holds : t.holdsEncoder i := .inl ((same.captures_iff i).mpr captures)
    refine ⟨fun j capturing => ?_, fun e mem => ?_, fun a mem => ?_⟩
    · rw [show t.cap.segments[j].records = s.cap.segments[j].records from congrFun chain (.records j),
        show t.cap.segments[j].annotations = s.cap.segments[j].annotations from congrFun chain (.annotations j)]
      exact sound.chains j ((same.captures_iff j).mp capturing)
    · rw [pages]
      rcases entries e mem with before | ⟨slot, page⟩
      · obtain ⟨slot, j, holding, owner⟩ := sound.entries e before
        exact ⟨slot, j, (same.holdsEncoder_iff j).mpr holding, owner⟩
      · obtain ⟨p, tail, owner⟩ := held.tail (o := .records i) some_
        rw [page, show s.cap.segments[i].records.tail = some p from tail]
        exact ⟨slot, i, holds, owner⟩
    · rw [pages]
      rcases annotations a mem with before | ⟨slot, page⟩
      · obtain ⟨slot, j, holding, owner⟩ := sound.annotations a before
        exact ⟨slot, j, (same.holdsEncoder_iff j).mpr holding, owner⟩
      · obtain ⟨p, tail, owner⟩ := held.tail (o := .annotations i) some'
        rw [page, show s.cap.segments[i].annotations.tail = some p from tail]
        exact ⟨slot, i, holds, owner⟩

theorem chainOf_setSegment_same (s : State) {g : Segment} (records : g.records = s.cap.segments[i].records)
    (annotations : g.annotations = s.cap.segments[i].annotations) : (s.setSegment i g).cap.chainOf = s.cap.chainOf := by
  funext o
  rw [chainOf_setSegment]
  split
  · subst_vars
    exact records
  · split
    · subst_vars
      exact annotations
    · rfl

/-- One chain of a segment replaced. -/
theorem chainOf_setRecords (s : State) {g : Segment} (annotations : g.annotations = s.cap.segments[i].annotations)
    (x : PageOwner) : (s.setSegment i g).cap.chainOf x = if x = .records i then g.records else s.cap.chainOf x := by
  rw [chainOf_setSegment]
  split
  · rfl
  · split
    · subst_vars
      exact annotations
    · rfl

theorem chainOf_setAnnotations (s : State) {g : Segment} (records : g.records = s.cap.segments[i].records)
    (x : PageOwner) :
    (s.setSegment i g).cap.chainOf x = if x = .annotations i then g.annotations else s.cap.chainOf x := by
  rw [chainOf_setSegment]
  by_cases here : x = .records i
  · subst here
    rw [if_pos rfl, if_neg nofun]
    exact records
  · rw [if_neg here]

theorem allocate_chainOf {o x : PageOwner} {c chain : Chain} (h : s.allocate o c = some (t, chain)) (other : x ≠ .free) :
    t.cap.chainOf x = s.cap.chainOf x := by
  have segments := allocate_segments h
  cases x with
  | free => exact absurd rfl other
  | records j => simp [Cap.chainOf, segments]
  | annotations j => simp [Cap.chainOf, segments]

theorem storageSound_openRecordPage (h : s.storageSound Q) (captures : s.captures i) :
    (s.openRecordPage i).storageSound Q := by
  have same := openRecordPage_same s i
  revert same
  unfold State.openRecordPage
  extract_lets g
  split
  · split
    · rename_i t chain allocated
      intro same
      have segments := allocate_segments allocated
      have written := chainOf_setRecords (i := i) t (g := { t.segment i with records := chain }) rfl
      refine storageSound_allocate h (.inl rfl) captures allocated rfl rfl ((written _).trans (if_pos rfl))
        (fun x other other' => ?_) same rfl rfl
      rw [written, if_neg other', allocate_chainOf allocated other]
    · exact fun _ => h
  · cases turned : rotateChain s.cap.pages g.records with
    | mk pages chain =>
      have pagesTurned := (congrArg Prod.fst turned).symm
      have chainTurned := (congrArg Prod.snd turned).symm
      dsimp only
      intro same
      refine storageSound_rotate h (o := .records i) (.inl rfl) captures pagesTurned ?_ (fun x other => ?_) same rfl rfl
      · rw [chainOf_setRecords, if_pos rfl]
        · exact chainTurned
        · rfl
      · rw [chainOf_setRecords, if_neg other]
        · rfl
        · rfl
  · exact fun _ => h

theorem storageSound_placeEntry (h : s.storageSound Q) (captures : s.captures i) (e : Entry) :
    (s.placeEntry i e).storageSound Q := by
  unfold State.placeEntry
  extract_lets opens header t g tick staged _
  have opened : t.storageSound Q ∧ s.SameSegments t := by
    dsimp only [t]
    split
    · exact ⟨storageSound_openRecordPage h captures, openRecordPage_same s i⟩
    · exact ⟨h, .of_eq rfl⟩
  obtain ⟨sound, same⟩ := opened
  refine storageSound_stage sound ((same.captures_iff i).mpr captures) rfl ?_ ?_ (fun x mem => ?_) fun _ mem => .inl mem
  · refine (chainOf_setSegment_same _ ?_ ?_).trans ?_
    all_goals rfl
  · refine State.SameSegments.trans (.of_eq rfl) (.setSegment ?_ ?_)
    all_goals rfl
  · rcases List.mem_append.mp mem with before | new
    · exact .inl before
    · rw [List.mem_singleton.mp new]
      exact .inr ⟨Nat.mod_lt _ (by decide), rfl⟩

theorem storageSound_placeEntries (h : s.storageSound Q) (captures : s.captures i) (entries : List Entry) :
    (entries.foldl (fun s e => s.placeEntry i e) s).storageSound Q := by
  induction entries generalizing s with
  | nil => exact h
  | cons e rest ih =>
    exact ih (storageSound_placeEntry h captures e) (((placeEntry_same s i e).captures_iff i).mpr captures)

theorem storageSound_placeAnnotation (h : s.storageSound Q) (captures : s.captures i) (a : Annotation) :
    (s.placeAnnotation i a).storageSound Q := by
  unfold State.placeAnnotation
  extract_lets g staged
  refine storageSound_stage h captures rfl ?_ ?_ (fun _ mem => .inl mem) fun x mem => ?_
  · refine (chainOf_setSegment_same _ ?_ ?_).trans ?_
    all_goals rfl
  · refine State.SameSegments.trans (.of_eq rfl) (.setSegment ?_ ?_)
    all_goals rfl
  · rcases List.mem_append.mp mem with before | new
    · exact .inl before
    · rw [List.mem_singleton.mp new]
      exact .inr ⟨Nat.mod_lt _ (by decide), rfl⟩

/-- A segment's counts written. -/
theorem storageSound_counts (h : s.storageSound Q) {g : Segment} (records : g.records = s.cap.segments[i].records)
    (annotations : g.annotations = s.cap.segments[i].annotations) (state : g.state = s.cap.segments[i].state)
    (drains : g.drainPending = s.cap.segments[i].drainPending) : (s.setSegment i g).storageSound Q :=
  storageSound_of_same h rfl (chainOf_setSegment_same s records annotations) (.setSegment state drains) (fun _ mem => mem)
    fun _ mem => mem

theorem storageSound_writeAnnotation (h : s.storageSound Q) (captures : s.captures i) (r : Record) :
    (s.writeAnnotation i r).storageSound Q := by
  have dropped : (s.dropAnnotation i).storageSound Q := by
    refine storageSound_counts h ?_ ?_ ?_ ?_
    all_goals rfl
  unfold State.writeAnnotation
  extract_lets g a
  split
  · exact dropped
  · split
    · split
      · exact dropped
      · split
        · rename_i t chain allocated
          have segments := allocate_segments allocated
          have same : s.SameSegments (t.setSegment i { t.segment i with annotations := chain }) :=
            State.SameSegments.trans (.of_eq segments) (.setSegment rfl rfl)
          refine storageSound_placeAnnotation ?_ ((same.captures_iff i).mpr captures) a
          have written := chainOf_setAnnotations (i := i) t (g := { t.segment i with annotations := chain }) rfl
          refine storageSound_allocate h (.inr rfl) captures allocated rfl rfl ((written _).trans (if_pos rfl))
            (fun x other other' => ?_) same rfl rfl
          rw [written, if_neg other', allocate_chainOf allocated other]
        · exact dropped
      · cases turned : rotateChain s.cap.pages g.annotations with
        | mk pages chain =>
        have pagesTurned := (congrArg Prod.fst turned).symm
        have chainTurned := (congrArg Prod.snd turned).symm
        have same : s.SameSegments ((s.setCap { s.cap with pages := pages }).setSegment i
            { g with annotations := chain, firstAnnotation := g.firstAnnotation + Config.annotationsPerPage }) := by
          refine State.SameSegments.trans (.of_eq rfl) (.setSegment ?_ ?_)
          all_goals rfl
        refine storageSound_placeAnnotation ?_ ((same.captures_iff i).mpr captures) a
        refine storageSound_rotate h (o := .annotations i) (.inr rfl) captures pagesTurned ?_ (fun x other => ?_) same rfl rfl
        · rw [chainOf_setAnnotations, if_pos rfl]
          · exact chainTurned
          · rfl
        · rw [chainOf_setAnnotations, if_neg other]
          · rfl
          · rfl
    · exact storageSound_placeAnnotation h captures a

/-! ## Seals (R70, R71) -/

theorem storageSound_retireNow (h : s.storageSound Q) (free : s.nothingStaged ∨ ¬ s.holdsEncoder i) :
    (s.retireNow i).storageSound Q :=
  storageSound_of_cap (storageSound_vacate h free) rfl rfl rfl rfl rfl

theorem storageSound_completeSeal (h : s.storageSound Q) (nothing : s.nothingStaged) :
    (s.completeSeal i).storageSound Q := by
  unfold State.completeSeal
  extract_lets _ t
  have done : t.storageSound Q := by
    have drained : (s.setSegment i { s.segment i with drainPending := false }).storageSound Q :=
      storageSound_setSegment h rfl rfl (fun none => none) (fun some_ => absurd nothing some_)
        fun capturing => by
          unfold State.captures at capturing
          rw [setSegment_get, if_pos rfl] at capturing
          exact capturing
    exact storageSound_of_cap drained rfl rfl rfl rfl rfl
  split
  · split
    · exact storageSound_retireNow done (.inl nothing)
    · refine storageSound_setSegment done rfl rfl (fun none => ?_) (fun some_ => absurd nothing some_) fun capturing => ?_
      · rcases none with e | e <;> cases e
      · exact absurd capturing (not_captures_of_state (k := .retiring) (by rw [setSegment_get, if_pos rfl]) nofun nofun)
  · exact done

theorem sealing_chainOf (s : State) (i : SegId) (reason : SealReason) :
    (s.sealing i reason).cap.chainOf = s.cap.chainOf := by
  unfold State.sealing State.stopEncoder
  refine (chainOf_setSegment_same _ ?_ ?_).trans ((chainOf_setSegment_same _ ?_ ?_).trans ?_)
  all_goals rfl

theorem storageSound_sealSegment (h : s.storageSound Q) (i : SegId) (reason : SealReason) :
    (s.sealSegment i reason).storageSound Q := by
  obtain ⟨isSealed, others⟩ := sealing_segment s i reason
  obtain ⟨staged, annotations, -, -, pages, -⟩ := sealing_frame s i reason
  have used {state : SegState} (j : SegId) (here : j = i → state = .sealed)
      (other : j ≠ i → state = s.cap.segments[j].state) (none : state = .vacant ∨ state = .primed) :
      s.cap.segments[j].state = .vacant ∨ s.cap.segments[j].state = .primed := by
    by_cases e : j = i
    · rw [here e] at none
      rcases none with e | e <;> cases e
    · rw [other e] at none
      exact none
  rw [sealSegment_eq]
  split
  · rename_i nothing
    have nothing' : (s.sealing i reason).nothingStaged := by
      unfold State.nothingStaged
      rw [staged, annotations]
      exact nothing
    refine storageSound_completeSeal (storageSound_of_chains h pages (sealing_chainOf s i reason)
      (fun j => used j (fun e => e ▸ isSealed) fun e => by rw [others j e]) (by simp) (by simp)
      (fun some_ => absurd nothing' some_) fun j capturing => ?_) nothing'
    by_cases e : j = i
    · subst e
      exact absurd capturing (not_captures_of_state isSealed nofun nofun)
    · unfold State.captures at capturing
      rw [others j e] at capturing
      exact capturing
  · have written := setSegment_get (s.sealing i reason) i { (s.sealing i reason).segment i with drainPending := true }
    refine storageSound_of_chains h pages (.trans (chainOf_setSegment_same _ ?_ ?_) (sealing_chainOf s i reason))
      (fun j => used j (fun e => ?_) fun e => ?_) (fun e mem => staged ▸ mem) (fun a mem => annotations ▸ mem)
      (fun _ j holds => ?_) fun j capturing => ?_
    · rfl
    · rfl
    · rw [written, if_pos e]
      exact isSealed
    · rw [written, if_neg e, others j e]
    · by_cases e : j = i
      · exact .inr (by rw [written, if_pos e])
      · unfold State.holdsEncoder State.captures
        rw [written, if_neg e, others j e]
        exact holds
    · unfold State.captures at capturing
      rw [written] at capturing
      split at capturing
      · rcases capturing with e | e <;> exact absurd (isSealed.symm.trans e) nofun
      · rename_i e
        rw [others j e] at capturing
        exact capturing

theorem storageSound_sealIfComplete (h : s.storageSound Q) (i : SegId) : (s.sealIfComplete i).storageSound Q := by
  unfold State.sealIfComplete
  extract_lets g
  split
  · exact storageSound_sealSegment h i _
  · exact h

/-! ## The encoder and fires (R51, R65) -/

theorem storageSound_storeEntries (h : s.storageSound Q) (captures : s.captures i) (entries : List Entry) :
    (s.storeEntries i entries).1.storageSound Q := by
  unfold State.storeEntries
  extract_lets g needsPage refusal
  cases refusal with
  | some reason => exact storageSound_sealSegment h i reason
  | none => exact storageSound_placeEntries h captures entries

theorem storageSound_encodeSample (sound : s.captureSound) (h : s.storageSound Q) (stamp : Nat) (lines : Lines) :
    (s.encodeSample stamp lines).storageSound Q := by
  unfold State.encodeSample
  split
  case h_1 => exact h
  case h_2 j encoding =>
    have captures := sound.encoderServes j (.inl encoding)
    extract_lets g state d entries
    split
    · exact h
    · split
      · exact storageSound_of_cap h rfl rfl rfl rfl rfl
      · exact storageSound_sealIfComplete (storageSound_storeEntries h captures entries) j
  case h_3 j dropping =>
    have captures := sound.encoderServes j (.inr dropping)
    split
    · exact h
    · extract_lets g d entries
      have stored := storageSound_storeEntries h captures entries
      split
      · rename_i t refused
        rwa [refused] at stored
      · rename_i t kept
        rw [kept] at stored
        refine storageSound_sealIfComplete (storageSound_counts (storageSound_of_cap stored ?_ ?_ ?_ ?_ ?_) ?_ ?_ ?_ ?_) j
        all_goals rfl

theorem storageSound_takeFire (h : s.storageSound Q) (index : Nat) : (s.takeFire index).storageSound Q := by
  unfold State.takeFire
  split
  · exact h
  · rename_i f _
    extract_lets _ t
    have taken : t.storageSound Q := storageSound_of_cap h rfl rfl rfl rfl rfl
    split
    · rename_i j _
      split
      · rename_i live
        unfold State.acceptFire
        extract_lets g start early tick v w
        have captures : t.captures j := .inl live.2
        have fired : v.storageSound Q := by
          refine storageSound_setSegment taken ?_ ?_ (fun none => ?_) (fun _ _ => ?_) fun _ => captures
          · rfl
          · rfl
          · rcases none with e | e <;> cases e
          · exact .inl (.inr (by rw [setSegment_get, if_pos rfl]))
        refine storageSound_sealIfComplete (storageSound_of_cap fired ?_ ?_ ?_ ?_ ?_) j
        all_goals rfl
      · exact taken
    · exact taken

end Sys2Proof.Machine
end

section
/-! PROOFS. Pages and staged entries (O4) under every change, and the statements O4 and O8. -/

namespace Sys2Proof.Machine

variable {s t u : State} {i : SegId} {Q : Prop}

/-! ## Starts, aborts and drains (R52, R61, R74) -/

theorem allocate_wf {o : PageOwner} {c chain : Chain} (wf : PageMap.wf s.cap.pages)
    (allocated : s.allocate o c = some (t, chain)) : PageMap.wf t.cap.pages := by
  obtain ⟨p, -, mapped, -⟩ := allocate_spec allocated
  rw [mapped]
  exact linkPage_wf wf _ _ _

/-- R61: the first two pages of a segment that has none. -/
theorem startPages_held (h : s.storageSound Q) (none : s.cap.chainOf (.records i) = {})
    (none' : s.cap.chainOf (.annotations i) = {}) {records annotations : Chain}
    (first : s.allocate (.records i) {} = some (t, records)) (second : t.allocate (.annotations i) {} = some (u, annotations)) :
    (∃ f, HeldBy u.cap.pages
        (Function.update (Function.update u.cap.chainOf (.records i) records) (.annotations i) annotations) f)
      ∧ records.count = 1 ∧ annotations.count = 1 := by
  obtain ⟨f, held⟩ := h.held
  obtain ⟨p, taken, mapped, rfl⟩ := allocate_spec first
  obtain ⟨p', taken', mapped', rfl⟩ := allocate_spec second
  let between := Function.update t.cap.chainOf (.records i) (linkPage s.cap.pages {} p (.records i)).2
  have between_get (x : PageOwner) (other : x ≠ .records i) : between x = t.cap.chainOf x :=
    Function.update_of_ne other _ _
  have started : between (.records i) = (linkPage s.cap.pages {} p (.records i)).2 := Function.update_self _ _ _
  obtain ⟨⟨f', mid⟩, -, count⟩ := held.grow (o := .records i) (c' := between) h.wf nofun taken (between_get .free nofun)
    (by rw [none]; exact started) fun x other other' =>
      (between_get x other').trans (allocate_chainOf first other)
  rw [none] at mid count
  rw [← mapped] at mid
  have empty : between (.annotations i) = {} :=
    (between_get (.annotations i) nofun).trans
      ((allocate_chainOf (x := .annotations i) first nofun).trans none')
  have tFree : between .free = t.cap.pool := between_get .free nofun
  obtain ⟨final, -, count'⟩ := mid.grow (o := .annotations i)
    (c' := Function.update (Function.update u.cap.chainOf (.records i) (linkPage s.cap.pages {} p (.records i)).2)
      (.annotations i) (linkPage t.cap.pages {} p' (.annotations i)).2) (allocate_wf h.wf first) nofun
    (by rw [tFree]; exact taken') rfl (by rw [empty]; exact Function.update_self _ _ _) fun x other other' => by
      rw [Function.update_of_ne other']
      by_cases here : x = .records i
      · subst here
        rw [Function.update_self, started]
      · rw [Function.update_of_ne here, between_get x here, allocate_chainOf second other]
  rw [empty, ← mapped'] at final
  rw [empty, Function.update_self] at count'
  rw [started] at count
  exact ⟨final, count, count'⟩

theorem beginCapture_get (u : State) (i : SegId) (records annotations : Chain) (j : SegId) :
    (u.beginCapture i records annotations).cap.segments[j] =
      if j = i then { u.segment i with state := .preTrigger, level := some u.lvl.level, startTick := some u.pfe.stamp,
                                       records := records, annotations := annotations, written := 1 }
      else u.cap.segments[j] := setSegment_get _ _ _ _

theorem beginCapture_chainOf (u : State) (i : SegId) (records annotations : Chain) :
    (u.beginCapture i records annotations).cap.chainOf
      = Function.update (Function.update u.cap.chainOf (.records i) records) (.annotations i) annotations := by
  funext x
  cases x with
  | free =>
    simp only [Function.update_apply, reduceCtorEq, if_false]
    rfl
  | records j =>
    simp only [Function.update_apply, reduceCtorEq, if_false, PageOwner.records.injEq, Cap.chainOf, beginCapture_get]
    split <;> rfl
  | annotations j =>
    simp only [Function.update_apply, reduceCtorEq, if_false, PageOwner.annotations.injEq, Cap.chainOf,
      beginCapture_get]
    split <;> rfl

theorem storageSound_startCapture (sound : s.captureSound) (h : s.storageSound Q) (free : s.startRefusal i = none) :
    (s.startCapture i).storageSound Q := by
  obtain ⟨primed, noCapture, drained, -, -, -⟩ := startRefusal_eq_none free
  have nothing : s.nothingStaged := by
    by_contra some_
    obtain ⟨j, holds⟩ := sound.staged some_
    exact holds.elim (noCapture j) fun d => absurd ((drained j).symm.trans d) nofun
  obtain ⟨f, held⟩ := h.held
  obtain ⟨noRecords, noAnnotations⟩ := h.unused i (.inr primed)
  unfold State.startCapture
  split
  · exact h
  · rename_i t records first
    split
    · exact h
    · rename_i u annotations second
      obtain ⟨started, count, count'⟩ := startPages_held h (held.eq_empty (o := .records i) noRecords)
        (held.eq_empty (o := .annotations i) noAnnotations) first second
      have segments : u.cap.segments = s.cap.segments := (allocate_segments second).trans (allocate_segments first)
      have frame := State.allocate_frame first
      have frame' := State.allocate_frame second
      simp only at frame frame'
      have segment (j : SegId) : (u.beginCapture i records annotations).cap.segments[j] =
          if j = i then { u.segment i with state := .preTrigger, level := some u.lvl.level, startTick := some u.pfe.stamp,
                                           records := records, annotations := annotations, written := 1 }
          else s.cap.segments[j] := by
        rw [← segments]
        exact beginCapture_get u i records annotations j
      have captures (j : SegId) (capturing : (u.beginCapture i records annotations).captures j) : j = i := by
        by_contra other
        unfold State.captures at capturing
        rw [segment, if_neg other] at capturing
        exact noCapture j capturing
      have here : (u.beginCapture i records annotations).cap.segments[i].state = .preTrigger := by
        rw [segment, if_pos rfl]
      have wf : PageMap.wf u.cap.pages := allocate_wf (allocate_wf h.wf first) second
      refine ⟨wf, by rw [beginCapture_chainOf]; exact started, fun j none => ?_,
        fun _ => ⟨fun j capturing => ?_, fun e mem => ?_, fun a mem => ?_⟩⟩
      · rw [segment] at none ⊢
        split
        · rename_i here
          rw [if_pos here] at none
          rcases none with e | e <;> cases e
        · rename_i other
          rw [if_neg other] at none
          exact h.unused j none
      · rw [segment, if_pos (captures j capturing)]
        exact ⟨by rw [count]; nofun, by rw [count']; nofun⟩
      · have mem : e ∈ u.cap.staged ++ [_] := mem
        rw [frame'.2.2.2.2.2.2.2.2.2.2.2.2.2.1, frame.2.2.2.2.2.2.2.2.2.2.2.2.2.1, nothing.1, List.nil_append,
          List.mem_singleton] at mem
        subst mem
        obtain ⟨f', heldU⟩ := started
        have own : Function.update (Function.update u.cap.chainOf (.records i) records) (.annotations i) annotations
            (.records i) = records := by
          simp only [Function.update_apply, reduceCtorEq, if_false, if_true]
        obtain ⟨p, tail, owner⟩ := heldU.tail (o := .records i) (by rw [own, count]; nofun)
        rw [own] at tail
        refine ⟨Nat.le_of_ble_eq_true rfl, i, .inl (.inl here), ?_⟩
        rw [tail]
        exact owner
      · have mem : a ∈ u.cap.stagedAnnotations := mem
        rw [frame'.2.2.2.2.2.2.2.2.2.2.2.2.2.2.1, frame.2.2.2.2.2.2.2.2.2.2.2.2.2.2.1, nothing.2] at mem
        cases mem

theorem storageSound_discardStaged (h : s.storageSound Q) (i : SegId) : (s.discardStaged i).storageSound Q := by
  unfold State.discardStaged
  extract_lets t g kept src
  have stopped : t.storageSound Q := by
    refine storageSound_of_same h rfl ?_ (stopEncoder_same s i) (fun _ mem => mem) fun _ mem => mem
    refine (chainOf_setSegment_same _ ?_ ?_).trans ?_
    all_goals rfl
  have emptied : (t.setCap { t.cap with staged := [], stagedAnnotations := [] }).storageSound Q :=
    storageSound_of_same stopped rfl rfl (.of_eq rfl) nofun nofun
  refine storageSound_counts emptied ?_ ?_ ?_ ?_
  all_goals rfl

theorem Ending.storageSound (sound : s.captureSound) (h : s.storageSound Q) (ending : Ending s t) : t.storageSound Q := by
  cases ending with
  | sealSegment i reason => exact storageSound_sealSegment h i reason
  | abortVacated i =>
    exact storageSound_vacate (storageSound_of_cap (storageSound_discardStaged h i) rfl rfl rfl rfl rfl) (.inl ⟨rfl, rfl⟩)
  | abortPinned i =>
    have halted : ((s.discardStaged i).setTrg s.trg.halt).storageSound Q :=
      storageSound_of_cap (storageSound_discardStaged h i) rfl rfl rfl rfl rfl
    refine storageSound_setSegment halted ?_ ?_ (fun none => ?_) (fun some_ => absurd ⟨rfl, rfl⟩ some_)
      fun capturing => absurd capturing (not_captures_of_state (k := .retiring) (by rw [setSegment_get, if_pos rfl]) nofun nofun)
    · rfl
    · rfl
    · rcases none with e | e <;> cases e
  | encodeSample stamp lines => exact storageSound_encodeSample sound h stamp lines
  | takeFire index => exact storageSound_takeFire h index

theorem drainOne_mem (c : Cap) : (∀ e ∈ c.drainOne.staged, e ∈ c.staged)
    ∧ ∀ a ∈ c.drainOne.stagedAnnotations, a ∈ c.stagedAnnotations := by
  unfold Cap.drainOne
  split
  · split
    · rename_i staged
      rw [staged]
      exact ⟨fun _ mem => List.mem_cons_of_mem _ mem, fun _ mem => mem⟩
    · exact ⟨fun _ mem => mem, fun _ mem => mem⟩
  · split
    · rename_i staged
      rw [staged]
      exact ⟨fun _ mem => mem, fun _ mem => List.mem_cons_of_mem _ mem⟩
    · exact ⟨fun _ mem => mem, fun _ mem => mem⟩

theorem storageSound_drain (h : s.storageSound Q) : s.drain.storageSound Q := by
  obtain ⟨pages, pool, segments, -⟩ := s.cap.drainOne_frame
  obtain ⟨entries, annotations⟩ := drainOne_mem s.cap
  unfold State.drain
  extract_lets t u
  have drained : t.storageSound Q := storageSound_of_same h pages
    (chainOf_congr pool (fun j => congrArg (·[j].records) segments) fun j => congrArg (·[j].annotations) segments) (.of_eq segments) entries annotations
  suffices u.storageSound Q from
    storageSound_of_cap this (by simp) (by simp) (by simp) (by simp) (by simp)
  dsimp only [u]
  split
  · rename_i nothing
    split
    · exact storageSound_completeSeal drained nothing
    · exact drained
  · exact drained

/-! ## Every change -/

/-- The pages of the owners with every page in the pool. -/
def freshPages : PageOwner → List Nat
  | .free => List.range 32768
  | .records _ | .annotations _ => []

/-- R44, R57: with every page in the pool and every segment VACANT, nothing staged. -/
theorem storageSound_fresh (pages : t.cap.pages = []) (pool : t.cap.pool = .fullPool)
    (segments : ∀ j : SegId, t.cap.segments[j] = {}) (nothing : t.nothingStaged) : t.storageSound Q := by
  have records (j : SegId) := congrArg Segment.records (segments j)
  have annotations (j : SegId) := congrArg Segment.annotations (segments j)
  have state (j : SegId) := congrArg Segment.state (segments j)
  have none (m : PageMap) (o : PageOwner) : Chain.holds {} m o [] := ⟨rfl, rfl, rfl, linked_nil m o⟩
  refine ⟨by rw [pages]; exact reset_pages_wf, ⟨freshPages, fun o => ?_, ?_⟩, fun j _ => ?_,
    fun _ => ⟨fun j capturing => ?_, fun e mem => ?_, fun a mem => ?_⟩⟩
  · cases o with
    | free =>
      rw [show t.cap.chainOf .free = .fullPool from pool, pages]
      refine ⟨List.length_range.symm, by simp [freshPages, List.head?_range]; rfl,
        by simp [freshPages, List.getLast?_range]; rfl, fun k p here => ?_⟩
      obtain ⟨below, value⟩ := List.getElem?_eq_some_iff.mp here
      have isLast : (List.range 32768)[k + 1]? = if k < 32767 then some (k + 1) else .none := by
        split
        · exact List.getElem?_range (by omega)
        · exact List.getElem?_eq_none (by rw [List.length_range]; omega)
      rw [← value, PageMap.get_empty]
      simp only [freshPages, List.getElem_range, isLast]
    | records j =>
      rw [show t.cap.chainOf (.records j) = {} from records j]
      exact none _ _
    | annotations j =>
      rw [show t.cap.chainOf (.annotations j) = {} from annotations j]
      exact none _ _
  · have empty : chainOwners.flatMap freshPages = [] := by
      refine List.flatMap_eq_nil_iff.mpr fun o mem => ?_
      cases o with
      | free => exact absurd mem free_notMem_chainOwners
      | records j => rfl
      | annotations j => rfl
    rw [empty, List.append_nil]
    exact .refl _
  · rw [records, annotations]
    exact ⟨rfl, rfl⟩
  · exact absurd capturing (not_captures_of_state (state j) nofun nofun)
  · rw [nothing.1] at mem
    cases mem
  · rw [nothing.2] at mem
    cases mem

theorem Change.storageSound (sound : s.captureSound) (h : s.storageSound Q) (change : Change s t) : t.storageSound Q := by
  cases change with
  | cmd | emptied | raise | pfe | count | request | switching | settled | gapEnd | cal | endCalibration | dec | trg | dsp
    | capRest => exact storageSound_of_cap h rfl rfl rfl rfl rfl
  | raiseGlitch | raiseActivity | raiseLock | raiseError | evaluate | poolThreshold =>
    exact storageSound_of_cap h (by simp) (by simp) (by simp) (by simp) (by simp)
  | prepare i mask budget target limit annotationBudget unused =>
    obtain ⟨f, held⟩ := h.held
    obtain ⟨noRecords, noAnnotations⟩ := h.unused i unused
    refine storageSound_setSegment h (held.eq_empty (o := .records i) noRecords).symm
      (held.eq_empty (o := .annotations i) noAnnotations).symm (fun _ => unused) (fun _ holds => ?_) fun capturing => ?_
    · rcases holds with capturing | draining
      · rcases unused with e | e <;> exact absurd capturing (not_captures_of_state e nofun nofun)
      · rcases unused with e | e <;> exact absurd ((sound.drains i draining).1.symm.trans e) nofun
    · exact absurd capturing (not_captures_of_state (k := .primed) (by rw [setSegment_get, if_pos rfl]; rfl) nofun nofun)
  | segment i g records annotations drains state =>
    rcases state with same | ⟨retiring, isSealed, drained⟩
    · exact storageSound_counts h records annotations same drains
    · refine storageSound_setSegment h records annotations (fun none => ?_) (fun _ holds => ?_) fun capturing => ?_
      · rw [retiring] at none
        rcases none with e | e <;> cases e
      · rcases holds with capturing | draining
        · exact absurd capturing (not_captures_of_state isSealed nofun nofun)
        · exact absurd (drained.symm.trans draining) nofun
      · exact absurd capturing
          (not_captures_of_state (k := .retiring) (by rw [setSegment_get, if_pos rfl, retiring]) nofun nofun)
  | retireNow i unread =>
    refine storageSound_retireNow h (.inr fun holds => ?_)
    rcases holds with capturing | draining
    · rcases unread with e | e | ⟨e, -⟩ <;> exact absurd capturing (not_captures_of_state e nofun nofun)
    · have isSealed := (sound.drains i draining).1
      rcases unread with e | e | ⟨-, drained⟩
      · exact absurd (isSealed.symm.trans e) nofun
      · exact absurd (isSealed.symm.trans e) nofun
      · exact absurd (drained.symm.trans draining) nofun
  | startCapture i free => exact storageSound_startCapture sound h free
  | writeAnnotation i r captures => exact storageSound_writeAnnotation h captures r
  | drain => exact storageSound_drain h
  | softReset =>
    rw [State.softReset_eq]
    exact storageSound_fresh rfl rfl (replicate_get _) ⟨rfl, rfl⟩
  | powerOn => exact storageSound_fresh rfl rfl (replicate_get _) ⟨rfl, rfl⟩

theorem step_storageSound (sound : s.captureSound) (h : s.storageSound Q) (stepped : step s = .next t) :
    t.storageSound Q := by
  suffices t.captureSound ∧ t.storageSound Q from this.2
  refine step_keeps (P := fun s => s.captureSound ∧ s.storageSound Q) (fun _ _ h => ⟨?_, ?_⟩)
    (fun _ => after_keeps (P := fun s => s.captureSound ∧ s.storageSound Q) (fun h change => ⟨change.captureSound h.1, change.storageSound h.1 h.2⟩)
      (fun h ending => ⟨ending.captureSound h.1, ending.storageSound h.1 h.2⟩)
      fun channels seed tolerance h free => ⟨captureSound_acceptCalibrate h.1 free channels seed tolerance, ?_⟩)
    ⟨sound, h⟩ stepped
  · exact captureSound_of_blocks h.1 rfl rfl rfl rfl rfl rfl rfl
  · exact storageSound_of_cap h.2 rfl rfl rfl rfl rfl
  · exact storageSound_of_cap h.2 rfl rfl rfl rfl rfl

theorem step_periodsSound (sound : s.captureSound) (h : s.periodsSound) (stepped : step s = .next t) :
    t.periodsSound := by
  suffices t.captureSound ∧ t.periodsSound from this.2
  refine step_keeps (P := fun s => s.captureSound ∧ s.periodsSound) (fun _ _ h => ⟨?_, ?_⟩)
    (fun _ c h => ⟨?_, after_periodsSound c h.1 h.2⟩) ⟨sound, h⟩ stepped
  · exact captureSound_of_blocks h.1 rfl rfl rfl rfl rfl rfl rfl
  · obtain ⟨timing, waits⟩ := periodsSound_iff.mp h.2
    exact periodsSound_iff.mpr ⟨timingSound_of_blocks timing rfl rfl rfl .rfl, waits⟩
  · exact after_keeps Change.captureSound Ending.captureSound (fun channels seed tolerance h free =>
      captureSound_acceptCalibrate h free channels seed tolerance) c h.1

/-- Settles O4. -/
theorem stepKeepsRangesOfTheRules : Obligations.StepKeepsRangesOfTheRules := by
  refine ⟨fun _ _ => step_inRange, fun _ _ => step_periodsSound, fun _ _ => step_modelsSound,
    fun s t sound canonical pages stepped => ?_, fun _ _ => step_poolSound,
    fun s t sound canonical pages staged stepped => ?_⟩
  · obtain ⟨held, unused⟩ := (pagesSound_iff s).mp pages
    have kept := step_storageSound (Q := False) sound ⟨canonical.2, held, unused, False.elim⟩ stepped
    exact (pagesSound_iff t).mpr ⟨kept.held, kept.unused⟩
  · obtain ⟨held, unused⟩ := (pagesSound_iff s).mp pages
    exact (step_storageSound (Q := True) sound ⟨canonical.2, held, unused, fun _ => staged⟩ stepped).staged trivial

/-- Settles O8. -/
theorem resetMeetsTheInvariants : Obligations.ResetMeetsTheInvariants := by
  have fresh : State.reset.storageSound True := storageSound_fresh rfl rfl (replicate_get _) ⟨rfl, rfl⟩
  have timing : State.reset.timingSound := timingSound_idle (fun i => by
    rw [show State.reset.dec.contexts[i] = {} from replicate_get _ i]
    exact Context.timed_fresh) rfl
  exact ⟨reset_memoryCanonical, reset_inRange, captureSound_reset (replicate_get _) ⟨rfl, rfl⟩ rfl rfl, by unfold State.noticesSound; decide,
    reset_triggerSound, periodsSound_iff.mpr ⟨timing, fun some_ => absurd rfl some_⟩, reset_modelsSound,
    (pagesSound_iff _).mpr ⟨fresh.held, fresh.unused⟩, reset_poolSound, fresh.staged trivial⟩

end Sys2Proof.Machine
end

section
/-! PROOFS. The front end's writes (O18): what each request stores, and when it is refused. -/

namespace Sys2Proof.Machine

variable {s : State}

/-- A request that the port admits, by what its body gives. -/
theorem exec_of_body {c : Instr} {body : State → State × Response} {u : State} {st : Status} {d : ResponseData}
    (h : s.admits) (hc : s.after c = request false .enough body s) (gives : body s = (u, ⟨st, d⟩)) :
    exec c s = .next (u.answered st d) := by
  rw [exec_of_admits h hc, gives]
  rfl

theorem frontEndOf_full {b : Byte} (named : b.toNat = 0) : frontEndOf b = some .full := by
  unfold frontEndOf levelOf
  rw [named]
  rfl

theorem frontEndOf_economy {b : Byte} (named : b.toNat = 1) : frontEndOf b = some .economy := by
  unfold frontEndOf levelOf
  rw [named]
  rfl

theorem contextInUse_iff (s : State) (x : FrontEndId) :
    s.contextInUse x = true ↔ s.pfe.active = some x ∧ ((∃ i, s.captures i) ∨ s.calibrates) := by
  unfold State.contextInUse
  rw [Bool.and_eq_true, Bool.or_eq_true, decide_eq_true_iff, capturing?_isSome, isActive_iff]

section Writes

variable {level : Byte} {x : FrontEndId} {f : FrontEnd → FrontEnd}

theorem writeFrontEnd_unknown (unknown : 2 ≤ level.toNat) : writeFrontEnd level f s = answer .badParam s := by
  unfold writeFrontEnd
  rw [frontEndOf_of_le unknown]

theorem writeFrontEnd_busy (named : frontEndOf level = some x)
    (used : s.pfe.active = some x ∧ ((∃ i, s.captures i) ∨ s.calibrates)) :
    writeFrontEnd level f s = answer .busy s := by
  unfold writeFrontEnd
  rw [named]
  exact if_pos ((contextInUse_iff s x).mpr used)

theorem writeFrontEnd_free (named : frontEndOf level = some x)
    (unused : ¬ (s.pfe.active = some x ∧ ((∃ i, s.captures i) ∨ s.calibrates))) :
    writeFrontEnd level f s = (s.setPfe (s.pfe.setFrontEnd x (f (s.pfe.frontEnd x))), .only .ok) := by
  unfold writeFrontEnd
  rw [named]
  exact if_neg fun used => unused ((contextInUse_iff s x).mp used)

end Writes

/-- Settles O18. -/
theorem frontEndWritesStoreClampOrRefuse : Obligations.FrontEndWritesStoreClampOrRefuse := by
  refine ⟨fun s pod code h => ⟨fun above => ?_, fun below => ?_⟩,
    fun s level pods channels offset width h => ⟨fun unknown => ⟨?_, ?_⟩, fun x isX => ?_⟩⟩
  · refine exec_of_body h (after_thresholdSet s .enough pod code) ?_
    unfold bodyThresholdSet
    rw [idOf_of_le pod above]
    rfl
  · refine ⟨s.pfe.thresholds.set pod.toNat code, exec_of_body h (after_thresholdSet s .enough pod code) ?_, fun p => ?_⟩
    · unfold bodyThresholdSet
      rw [idOf_of_lt pod below]
      rfl
    · rw [show s.pfe.thresholds.set pod.toNat code = s.pfe.thresholds.set (⟨pod.toNat, below⟩ : Pod) code from rfl, set_get]
      simp only [Fin.ext_iff]
  · exact exec_of_body h (after_deskewSet s .enough level channels offset) (writeFrontEnd_unknown unknown)
  · exact exec_of_body h (after_glitchWidthSet s .enough level pods width) (writeFrontEnd_unknown unknown)
  · have named : frontEndOf level = some x := by
      cases x
      · exact frontEndOf_full isX
      · exact frontEndOf_economy isX
    refine ⟨fun active inUse => ⟨?_, ?_⟩, fun unused => ⟨?_, ?_⟩⟩
    · exact exec_of_body h (after_deskewSet s .enough level channels offset) (writeFrontEnd_busy named ⟨active, inUse⟩)
    · exact exec_of_body h (after_glitchWidthSet s .enough level pods width) (writeFrontEnd_busy named ⟨active, inUse⟩)
    · have written := exec_of_body h (after_deskewSet s .enough level channels offset) (writeFrontEnd_free named unused)
      exact ⟨_, written, (s.pfe.frontEnd x).setOffsets_widths channels offset, (s.pfe.frontEnd x).setOffsets_get channels offset⟩
    · have written := exec_of_body h (after_glitchWidthSet s .enough level pods width) (writeFrontEnd_free named unused)
      exact ⟨_, written, (s.pfe.frontEnd x).setWidths_offsets pods width, (s.pfe.frontEnd x).setWidths_get pods width⟩

end Sys2Proof.Machine
end

section
/-! PROOFS. The channel monitors' requests (O19): MONITOR_SET compares at once, MONITOR_READ returns and clears. -/

namespace Sys2Proof.Machine

variable {s : State}

theorem raisedBy_setOf_iff {w : Nat} {p : BitVec 14} {k j : Nat} (kind : k < 14) (q : Fin w → Bool) :
    (raisedBy p k (setOf q)).getLsbD j = true ↔ p.getLsbD j = true ∨ (j = k ∧ ∃ c, q c = true) := by
  unfold raisedBy
  split
  · rename_i none
    have none := (setOf_eq_zero q).mp none
    simp [none]
  · rename_i some_
    obtain ⟨c, member⟩ : ∃ c, q c = true := by
      by_contra without
      exact some_ ((setOf_eq_zero q).mpr fun c => Bool.eq_false_iff.mpr fun here => without ⟨c, here⟩)
    rw [BitVec.getLsbD_or, Bool.or_eq_true, BitVec.getLsbD_twoPow, Bool.and_eq_true, decide_eq_true_iff, decide_eq_true_iff]
    constructor
    · rintro (pending | ⟨-, rfl⟩)
      · exact .inl pending
      · exact .inr ⟨rfl, c, member⟩
    · rintro (pending | ⟨rfl, -⟩)
      · exact .inl pending
      · exact .inr ⟨kind, rfl⟩

theorem detail_setOf_iff {w : Nat} (d : BitVec w) (q : Fin w → Bool) (c : Fin w) :
    (d ||| setOf q).getLsbD c.val = true ↔ d.getLsbD c.val = true ∨ q c = true := by
  rw [BitVec.getLsbD_or, Bool.or_eq_true, setOf_getLsbD]

/-! ## MONITOR_SET (R14, R15, R17) -/

/-- R14: a channel whose armed counter has reached the threshold. -/
def Monitor.crosses (m : Monitor) (threshold : Nat) : Bool := m.armed && decide (threshold ≤ m.glitches)

theorem Monitor.crosses_iff (m : Monitor) (threshold : Nat) :
    m.crosses threshold = true ↔ m.armed = true ∧ threshold ≤ m.glitches := by
  unfold Monitor.crosses
  rw [Bool.and_eq_true, decide_eq_true_iff]

theorem setGlitchThreshold_eq (s : State) (threshold : Nat) : s.setGlitchThreshold threshold =
    { s with
      pfe := { s.pfe with
        glitchThreshold := clamp 1 65535 threshold
        monitors := s.pfe.monitors.map fun m => { m with armed := decide (m.glitches < clamp 1 65535 threshold) } }
      cmd := { s.cmd with
        pending := raisedBy s.cmd.pending 9 (setOf fun c : Chan => s.pfe.monitors[c].crosses (clamp 1 65535 threshold))
        glitch := s.cmd.glitch ||| setOf fun c : Chan => s.pfe.monitors[c].crosses (clamp 1 65535 threshold) } } := by
  unfold State.setGlitchThreshold
  extract_lets t out _
  have monitors : out.map (·.1) = s.pfe.monitors.map fun m => { m with armed := decide (m.glitches < t) } := by
    dsimp only [out]
    rw [Vector.map_map]
    exact Vector.map_congr_left fun m _ => congrArg Prod.fst (m.checkGlitch_eq t)
  have crossing : (setOf fun c : Chan => out[c].2) = setOf fun c : Chan => s.pfe.monitors[c].crosses t := by
    congr 1
    funext c
    dsimp only [out]
    rw [map_get, Monitor.checkGlitch_eq]
    rfl
  rw [monitors, crossing, State.raiseGlitch_eq]
  rfl

/-- R14, R17: the state with the flagged values written, and what the comparison raises. -/
theorem monitorSet_written (s : State) (writeThreshold writeQuiet : Bool) (threshold quiet : Nat) :
    (bodyMonitorSet writeThreshold threshold writeQuiet quiet s).1 = { s with
      pfe := { s.pfe with
        glitchThreshold := if writeThreshold then clamp 1 65535 threshold else s.pfe.glitchThreshold
        quietTime := if writeQuiet then clamp 1 16777215 quiet else s.pfe.quietTime
        monitors := s.pfe.monitors.map fun m => { m with
          armed := if writeThreshold then decide (m.glitches < clamp 1 65535 threshold) else m.armed
          expiry := if writeQuiet then none else m.expiry } }
      cmd := { s.cmd with
        pending := raisedBy s.cmd.pending 9
          (setOf fun c : Chan => writeThreshold && s.pfe.monitors[c].crosses (clamp 1 65535 threshold))
        glitch := s.cmd.glitch
          ||| setOf fun c : Chan => writeThreshold && s.pfe.monitors[c].crosses (clamp 1 65535 threshold) } } := by
  have none : (setOf fun _ : Chan => false) = 0#32 := (setOf_eq_zero _).mpr fun _ => rfl
  unfold bodyMonitorSet
  extract_lets u
  dsimp only [u]
  cases writeThreshold <;> cases writeQuiet <;> simp only [if_true, if_false, Bool.false_eq_true, Bool.false_and, Bool.true_and,
    none, BitVec.or_zero, raisedBy, setGlitchThreshold_eq, State.setQuietTime, State.setPfe, Vector.map_map, Vector.map_id']
  all_goals rfl

theorem monitorSet_frame (writeThreshold writeQuiet : Bool) (threshold quiet : Nat) :
    (bodyMonitorSet writeThreshold threshold writeQuiet quiet s).2 = .only .ok := rfl

/-! ## MONITOR_READ (R17) -/

theorem readings_ascending {n : Nat} (p : Fin n → Bool) : (((everyId n).filter p).map fun c => c.val).Pairwise (· < ·) := by
  rw [List.pairwise_map]
  exact (List.pairwise_lt_finRange n).filter p

/-- Settles O19. -/
theorem monitorSetAndMonitorRead : Obligations.MonitorSetAndMonitorRead := by
  refine ⟨fun s writeThreshold writeQuiet threshold quiet h => ?_, fun s channels h => ?_⟩
  · have written := monitorSet_written s writeThreshold writeQuiet threshold quiet
    refine ⟨_, exec_of_body h (after_monitorSet s .enough writeThreshold threshold writeQuiet quiet)
      (Prod.ext written rfl), rfl, fun c => ?_, fun c => ?_, fun k _ => ?_⟩
    · refine (map_get s.pfe.monitors _ c).trans ?_
      cases writeThreshold <;> rfl
    · refine (detail_setOf_iff _ _ c).trans ?_
      rw [Bool.and_eq_true, Monitor.crosses_iff]
      cases writeThreshold
      · simp
      · exact Iff.rfl
    · refine (raisedBy_setOf_iff (by decide) _).trans ?_
      simp only [Bool.and_eq_true, Monitor.crosses_iff, exists_and_left]
      cases writeThreshold
      · simp
      · exact Iff.rfl
  · refine ⟨_, _, exec_of_body h (after_monitorRead s .enough channels) rfl, ?_, fun r => ?_, fun c => ?_⟩
    · rw [List.map_map]
      exact readings_ascending fun c => inSet channels c.val
    · rw [List.mem_map]
      constructor
      · rintro ⟨c, mem, rfl⟩
        exact ⟨(List.mem_filter.mp mem).2, rfl⟩
      · rintro ⟨member, e⟩
        exact ⟨r.channel, List.mem_filter.mpr ⟨List.mem_finRange _, member⟩, e.symm⟩
    · exact mapIds_get s.pfe.monitors _ c

end Sys2Proof.Machine
end

section
/-! PROOFS. The glitch filter over several samples (O20): what a sample makes of the history, and runs of samples of the
other level, short of the width and beyond it. -/

namespace Sys2Proof.Machine

/-! ## Histories -/

theorem pushHistory_zero (h : BitVec 33) (b : Bool) : (pushHistory h b).getLsbD 0 = b := by
  unfold pushHistory
  cases b <;> simp

theorem pushHistory_succ (h : BitVec 33) (b : Bool) {i : Nat} (small : i < 32) :
    (pushHistory h b).getLsbD (i + 1) = h.getLsbD i := by
  unfold pushHistory
  rw [BitVec.getLsbD_or, BitVec.getLsbD_shiftLeft, decide_eq_true (by omega : i + 1 < 33), Nat.add_sub_cancel]
  cases b <;> simp

theorem setNewest_getLsbD (h : BitVec 33) (n : Nat) (b : Bool) {i : Nat} (small : i < 33) :
    (setNewest h n b).getLsbD i = if i < n then b else h.getLsbD i := by
  have mask : (BitVec.ofNat 33 (2 ^ n - 1)).getLsbD i = decide (i < n) := by
    rw [BitVec.getLsbD_ofNat, decide_eq_true small, Bool.true_and, Nat.testBit_two_pow_sub_one]
  unfold setNewest
  cases b with
  | true =>
    rw [if_pos rfl, BitVec.getLsbD_or, mask]
    by_cases newer : i < n <;> simp [newer]
  | false =>
    rw [if_neg (by decide), BitVec.getLsbD_and, BitVec.getLsbD_not, mask, decide_eq_true small]
    by_cases newer : i < n <;> simp [newer]

/-! ## One sample (R3, R4) -/

/-- R3: the length of the open run, 0 without one. -/
def GlitchFilter.openLength (f : GlitchFilter) : Nat :=
  match f.openRun with
  | none => 0
  | some r => r.length

variable {w n : Nat} {f : GlitchFilter}

theorem GlitchFilter.openLength_of_none (h : f.openRun = none) : f.openLength = 0 := by
  unfold GlitchFilter.openLength
  rw [h]

theorem GlitchFilter.openRun_isSome (h : f.openLength ≠ 0) : f.openRun.isSome = true := by
  unfold GlitchFilter.openLength at h
  split at h
  · exact absurd rfl h
  · rename_i some_
    rw [some_]
    rfl

theorem GlitchFilter.extended_length (f : GlitchFilter) (n : Nat) : (f.extended n).length = f.openLength + 1 := by
  unfold GlitchFilter.extended GlitchFilter.openLength
  cases f.openRun <;> rfl

/-- A sample of the accepted level. -/
theorem GlitchFilter.sample_same (f : GlitchFilter) (w n : Nat) : f.sample w n f.accepted
    = (⟨f.accepted, none, pushHistory f.history f.accepted⟩, f.openRun.isSome) := if_pos rfl

/-- A sample of the other level that the width still suppresses. -/
theorem GlitchFilter.sample_suppressed (n : Nat) (short : f.openLength + 1 ≤ w) : f.sample w n (!f.accepted)
    = (⟨f.accepted, some (f.extended n), pushHistory f.history f.accepted⟩, false) := by
  unfold GlitchFilter.sample
  rw [if_neg (by simp), if_neg (by rw [f.extended_length]; omega)]

/-- A sample of the other level that is accepted. -/
theorem GlitchFilter.sample_accepted (n : Nat) (long : w ≤ f.openLength) : f.sample w n (!f.accepted)
    = (⟨!f.accepted, none, setNewest (pushHistory f.history f.accepted) (f.openLength + 1) (!f.accepted)⟩, false) := by
  unfold GlitchFilter.sample
  rw [if_neg (by simp), if_pos (by rw [f.extended_length]; omega), f.extended_length]

/-! ## Several samples -/

theorem GlitchFilter.feed_cons (w n : Nat) (f : GlitchFilter) (x : Bool) (xs : List Bool) : f.feed w n (x :: xs)
    = (((f.sample w n x).1.feed w (n + 1) xs).1, (f.sample w n x).2 :: ((f.sample w n x).1.feed w (n + 1) xs).2) := rfl

theorem GlitchFilter.feed_append (w : Nat) (ys xs : List Bool) (f : GlitchFilter) (n : Nat) : f.feed w n (xs ++ ys)
    = (((f.feed w n xs).1.feed w (n + xs.length) ys).1,
        (f.feed w n xs).2 ++ ((f.feed w n xs).1.feed w (n + xs.length) ys).2) := by
  induction xs generalizing f n with
  | nil => rfl
  | cons x xs ih => simp [GlitchFilter.feed_cons, ih, Nat.add_assoc, Nat.add_comm 1]

/-- R3: samples of the other level that the width suppresses leave the accepted level at every one of their steps. -/
theorem GlitchFilter.feed_suppressed (m : Nat) : ∀ (f : GlitchFilter) (n : Nat), f.openLength + m ≤ w →
    (f.feed w n (List.replicate m (!f.accepted))).1.accepted = f.accepted
      ∧ (f.feed w n (List.replicate m (!f.accepted))).1.openLength = f.openLength + m
      ∧ (f.feed w n (List.replicate m (!f.accepted))).2 = List.replicate m false
      ∧ ∀ i, i < 33 → (f.feed w n (List.replicate m (!f.accepted))).1.history.getLsbD i
        = if i < m then f.accepted else f.history.getLsbD (i - m) := by
  induction m with
  | zero => exact fun f n _ => ⟨rfl, rfl, rfl, fun i _ => by simp [GlitchFilter.feed]⟩
  | succ m ih =>
    intro f n short
    rw [List.replicate_succ, GlitchFilter.feed_cons, GlitchFilter.sample_suppressed n (by omega)]
    have longer : GlitchFilter.openLength ⟨f.accepted, some (f.extended n), pushHistory f.history f.accepted⟩
        = f.openLength + 1 := f.extended_length n
    obtain ⟨accepted, length, flags, history⟩ :=
      ih ⟨f.accepted, some (f.extended n), pushHistory f.history f.accepted⟩ (n + 1) (by omega)
    refine ⟨accepted, by rw [length, longer]; omega, congrArg (false :: ·) flags, fun i small => ?_⟩
    rw [history i small]
    by_cases newer : i < m
    · rw [if_pos newer, if_pos (by omega)]
    · rw [if_neg newer]
      rcases Nat.eq_or_lt_of_not_lt newer with here | older
      · rw [if_pos (by omega), here, Nat.sub_self]
        exact pushHistory_zero _ _
      · obtain ⟨k, rfl⟩ := Nat.exists_eq_add_of_lt older
        rw [if_neg (by omega), show m + k + 1 - m = k + 1 by omega, show m + k + 1 - (m + 1) = k by omega]
        exact pushHistory_succ _ _ (by omega)

/-- Settles O20. -/
theorem glitchFilterSuppressesShortPulses : Obligations.GlitchFilterSuppressesShortPulses := by
  refine ⟨fun w n f width noRun => ⟨fun m some_ short => ?_, ?_⟩, fun w n f r isOpen => ?_⟩
  · obtain ⟨accepted, length, flags, history⟩ := GlitchFilter.feed_suppressed (w := w) m f n
      (by rw [GlitchFilter.openLength_of_none noRun]; omega)
    rw [GlitchFilter.feed_append]
    generalize f.feed w n (List.replicate m (!f.accepted)) = g at *
    have ends := g.1.sample_same w (n + (List.replicate m (!f.accepted)).length)
    rw [accepted] at ends
    rw [GlitchFilter.feed_cons, ends]
    refine ⟨rfl, rfl, ?_, fun i below => ?_⟩
    · rw [flags, GlitchFilter.openRun_isSome (by rw [length]; omega)]
      rfl
    · show (pushHistory g.1.history f.accepted).getLsbD i = f.accepted
      cases i with
      | zero => exact pushHistory_zero _ _
      | succ i => rw [pushHistory_succ _ _ (by omega), history i (by omega), if_pos (by omega)]
  · obtain ⟨accepted, length, flags, history⟩ := GlitchFilter.feed_suppressed (w := w) w f n
      (by rw [GlitchFilter.openLength_of_none noRun]; omega)
    rw [List.replicate_succ', GlitchFilter.feed_append]
    generalize f.feed w n (List.replicate w (!f.accepted)) = g at *
    have lengthW : g.1.openLength = w := by rw [length, GlitchFilter.openLength_of_none noRun, Nat.zero_add]
    have ends := GlitchFilter.sample_accepted (w := w) (f := g.1) (n + (List.replicate w (!f.accepted)).length) lengthW.ge
    rw [accepted, lengthW] at ends
    rw [GlitchFilter.feed_cons, ends]
    have older (i : Nat) (small : i + (w + 1) < 33) :
        (setNewest (pushHistory g.1.history f.accepted) (w + 1) (!f.accepted)).getLsbD (i + (w + 1)) = f.history.getLsbD i := by
      rw [setNewest_getLsbD _ _ _ small, if_neg (by omega), ← Nat.add_assoc, pushHistory_succ _ _ (by omega),
        history _ (by omega), if_neg (by omega), Nat.add_sub_cancel]
    refine ⟨rfl, rfl, ?_, fun i below => ?_, older, fun level => ?_⟩
    · rw [flags, List.replicate_succ']
      rfl
    · show (setNewest (pushHistory g.1.history f.accepted) (w + 1) (!f.accepted)).getLsbD i = _
      rw [setNewest_getLsbD _ _ _ (by omega), if_pos (by omega)]
    · have last := older 0 (by omega)
      rw [Nat.zero_add] at last
      exact last.trans level
  · have length : f.openLength = r.length := by
      unfold GlitchFilter.openLength
      rw [isOpen]
    have extended : f.extended n = ⟨r.start, r.length + 1⟩ := by
      unfold GlitchFilter.extended
      rw [isOpen]
    refine ⟨?_, ?_, fun short => ?_, fun long => ?_⟩
    · rw [GlitchFilter.sample_same, isOpen]
      exact ⟨rfl, rfl, rfl, pushHistory_zero _ _, fun i small => pushHistory_succ _ _ small⟩
    · rcases Nat.lt_or_ge f.openLength w with short | long
      · rw [GlitchFilter.sample_suppressed n short]
      · rw [GlitchFilter.sample_accepted n long]
    · rw [GlitchFilter.sample_suppressed n (by omega), extended]
      exact ⟨rfl, rfl, pushHistory_zero _ _, fun i small => pushHistory_succ _ _ small⟩
    · rw [GlitchFilter.sample_accepted n (by omega), length]
      refine ⟨rfl, rfl, fun i below small => ?_, fun i above small => ?_⟩
      · show (setNewest (pushHistory f.history f.accepted) (r.length + 1) (!f.accepted)).getLsbD i = _
        rw [setNewest_getLsbD _ _ _ small, if_pos (by omega)]
      · show (setNewest (pushHistory f.history f.accepted) (r.length + 1) (!f.accepted)).getLsbD (i + 1) = _
        rw [setNewest_getLsbD _ _ _ (by omega), if_neg (by omega), pushHistory_succ _ _ small]

end Sys2Proof.Machine
end

section
/-! PROOFS. The quiet timers of the channel monitors (O23). -/

namespace Sys2Proof.Machine

variable {s : State}

theorem exec_quietTimerExpiry (s : State) (c : Chan) : exec (.quietTimerExpiry c) s = .next (s.quietExpiry c) := by
  rw [exec_eq_after, after_quietTimerExpiry]

theorem twoPow_ne_zero {w : Nat} (i : Fin w) : BitVec.twoPow w i.val ≠ 0#w := fun zero => by
  have bit := congrArg (·.getLsbD i.val) zero
  simp at bit

/-! ## One monitor -/

section Monitors

variable {m : Monitor} {span stamp : Nat}

/-- R15, R16: a running timer's expiry tick. -/
theorem Monitor.expiryTick_eq {last due : Nat} (started : m.quietFrom = some last)
    (fixed : m.expiry = some due ∨ (m.expiry = none ∧ due = last + span)) : m.expiryTick span = some due := by
  unfold Monitor.expiryTick
  rw [started]
  rcases fixed with e | ⟨e, rfl⟩ <;> rw [e] <;> rfl

theorem Monitor.expiryTick_of_none (stopped : m.quietFrom = none) : m.expiryTick span = none := by
  unfold Monitor.expiryTick
  rw [stopped]
  rfl

theorem Monitor.not_quietDue_first : m.quietDue true span stamp = false := rfl

theorem Monitor.not_quietDue_quiet {first : Bool} (quiet : m.activity = .quiet) : m.quietDue first span stamp = false := by
  unfold Monitor.quietDue
  rw [quiet]
  cases first <;> rfl

theorem Monitor.quietDue_iff {due : Nat} (active : m.activity = .active) (tick : m.expiryTick span = some due) :
    m.quietDue false span stamp = decide (due ≤ stamp) := by
  unfold Monitor.quietDue
  rw [active, tick]
  rfl

/-- R16: without an expiry a sample fixes the expiry tick, and then takes the change. -/
theorem Monitor.sample_waiting {first : Bool} (waits : m.quietDue first span stamp = false) (changed : Bool) :
    m.sample first span stamp changed
      = if changed then ({ m with expiry := m.expiryTick span } : Monitor).change span stamp
        else { m with expiry := m.expiryTick span } := by
  unfold Monitor.sample
  rw [waits]
  rfl

theorem Monitor.sample_expiring {first : Bool} (due : m.quietDue first span stamp = true) (changed : Bool) :
    m.sample first span stamp changed = if changed then m.expire.change span stamp else m.expire := by
  unfold Monitor.sample
  rw [due]
  rfl

theorem Monitor.change_active (active : m.activity = .active) : m.change span stamp = { m with
    edges := min (m.edges + 1) 65535, activity := .active, quietFrom := some stamp, expiry := some (stamp + span) } := by
  unfold Monitor.change
  rw [active]
  rfl

theorem Monitor.change_near {t0 : Nat} (quiet : m.activity = .quiet) (remembered : m.remembered = some t0)
    (near : stamp - t0 < span) : m.change span stamp = { m with
      edges := min (m.edges + 1) 65535, activity := .active, remembered := none, quietFrom := some stamp,
      expiry := some (stamp + span) } := by
  unfold Monitor.change
  rw [quiet]
  dsimp only
  rw [remembered]
  exact if_pos near

theorem Monitor.change_far (quiet : m.activity = .quiet) (far : ∀ t0, m.remembered = some t0 → span ≤ stamp - t0) :
    m.change span stamp = { m with edges := min (m.edges + 1) 65535, remembered := some stamp } := by
  unfold Monitor.change
  rw [quiet]
  dsimp only
  split
  · rename_i t0 remembered
    exact if_neg (Nat.not_lt.mpr (far t0 remembered))
  · rfl

end Monitors

/-! ## The event -/

theorem quietExpiry_eq {c : Chan} {r : Run} (run : s.pfe.run = some r) (formed : 24 ≤ r.taken) : s.quietExpiry c =
    if s.pfe.monitors[c].quietDue (decide (r.formed = 0)) (max s.pfe.quietTime r.step) r.nextStamp then
      (s.setPfe { s.pfe with monitors := modifyId s.pfe.monitors c Monitor.expire,
                             activityDue := s.pfe.activityDue ++ [(c, .quiet)] }).raiseActivity (BitVec.twoPow 32 c.val)
    else s := by
  have sample : s.pfe.nextSample = some (s.pfe.conditioned r r.formed (r.taken - 1)).1 := by
    unfold Pfe.nextSample
    rw [run]
    exact if_pos formed
  unfold State.quietExpiry Pfe.formedSamples Pfe.quietSpan
  rw [sample, run]
  rfl

/-- Settles O23. -/
theorem quietTimerExpiryMakesTheChannelQuiet : Obligations.QuietTimerExpiryMakesTheChannelQuiet := by
  refine ⟨fun s c r last due run formed active started fixed => ⟨fun later reached => ?_, fun early => ?_⟩,
    fun m span stamp => ⟨fun quiet stopped unset => ?_, fun last due started fixed => ?_⟩,
    fun m span stamp edges counted => ⟨fun quiet stopped unset => ⟨?_, fun t0 remembered near => ?_, fun far => ?_⟩,
      fun last due active remembered started fixed => ⟨fun early => ⟨?_, ?_⟩, fun reached => ⟨?_, ?_⟩⟩⟩⟩
  · refine ⟨modifyId s.pfe.monitors c Monitor.expire, ?_, fun j => ?_⟩
    · rw [exec_quietTimerExpiry, quietExpiry_eq run formed, decide_eq_false (Nat.pos_iff_ne_zero.mp later),
        Monitor.quietDue_iff active (Monitor.expiryTick_eq started fixed), decide_eq_true reached, if_pos rfl,
        State.raiseActivity_eq, if_neg (twoPow_ne_zero c)]
      rfl
    · rw [modifyId_get]
      split
      · subst_vars
        rfl
      · rfl
  · rw [exec_quietTimerExpiry, quietExpiry_eq run formed]
    refine congrArg _ (if_neg (Bool.eq_false_iff.mp ?_))
    rcases early with first | early
    · rw [decide_eq_true first]
      exact Monitor.not_quietDue_first
    · by_cases first : r.formed = 0
      · rw [decide_eq_true first]
        exact Monitor.not_quietDue_first
      · rw [decide_eq_false first, Monitor.quietDue_iff active (Monitor.expiryTick_eq started fixed),
          decide_eq_false (Nat.not_le.mpr early)]
  · rw [Monitor.sample_waiting Monitor.not_quietDue_first, Monitor.expiryTick_of_none stopped, ← unset]
    rfl
  · rw [Monitor.sample_waiting Monitor.not_quietDue_first, Monitor.expiryTick_eq started fixed]
    rfl
  · rw [Monitor.sample_waiting (Monitor.not_quietDue_quiet quiet), Monitor.expiryTick_of_none stopped, ← unset]
    rfl
  · rw [Monitor.sample_waiting (Monitor.not_quietDue_quiet quiet), if_pos rfl, Monitor.change_near (m := { m with expiry := m.expiryTick span }) quiet remembered near, counted]
  · rw [Monitor.sample_waiting (Monitor.not_quietDue_quiet quiet), if_pos rfl, Monitor.change_far (m := { m with expiry := m.expiryTick span }) quiet far, Monitor.expiryTick_of_none stopped,
      ← unset, counted]
  all_goals have tick := Monitor.expiryTick_eq started fixed
  · rw [Monitor.sample_waiting (by rw [Monitor.quietDue_iff active tick, decide_eq_false (Nat.not_le.mpr early)]), tick]
    rfl
  · rw [Monitor.sample_waiting (by rw [Monitor.quietDue_iff active tick, decide_eq_false (Nat.not_le.mpr early)]), if_pos rfl,
      Monitor.change_active (m := { m with expiry := m.expiryTick span }) active, counted, active]
  · rw [Monitor.sample_expiring (by rw [Monitor.quietDue_iff active tick, decide_eq_true reached])]
    rfl
  · rw [Monitor.sample_expiring (by rw [Monitor.quietDue_iff active tick, decide_eq_true reached]), if_pos rfl,
      Monitor.change_far (m := m.expire) rfl fun t0 some_ => absurd (remembered.symm.trans some_) nofun, counted]
    rfl

end Sys2Proof.Machine
end

section
/-! PROOFS. What a context emits and what DEC makes of it at a sample (R83, R91, R93 to R95, R116). -/

namespace Sys2Proof.Machine

variable {s : State}

/-! ## Counted records (R93, R94) -/

theorem errorFlags_getLsbD (k : Fin 32) :
    errorFlags.getLsbD k.val = decide (k.val ∈ [0, 1, 2, 4, 5, 6, 16, 18, 19, 20]) := by
  revert k
  decide

theorem Record.isError_iff (r : Record) :
    r.isError = true ↔ ∃ k ∈ [0, 1, 2, 4, 5, 6, 16, 18, 19, 20], r.flags.getLsbD k = true := by
  have small : ∀ k ∈ [0, 1, 2, 4, 5, 6, 16, 18, 19, 20], k < 32 := by decide
  unfold Record.isError
  rw [bne_iff_ne]
  constructor
  · intro some_
    by_contra without
    refine some_ (BitVec.eq_of_getLsbD_eq fun k below => ?_)
    rw [BitVec.getLsbD_and, errorFlags_getLsbD ⟨k, below⟩, BitVec.getLsbD_zero, Bool.and_eq_false_iff]
    by_cases flag : r.flags.getLsbD k = true
    · exact .inr (decide_eq_false fun mem => without ⟨k, mem, flag⟩)
    · exact .inl (Bool.eq_false_iff.mpr flag)
  · rintro ⟨k, mem, flag⟩ zero
    have bit := congrArg (·.getLsbD k) zero
    simp only [BitVec.getLsbD_and, flag, errorFlags_getLsbD ⟨k, small k mem⟩, decide_eq_true mem, BitVec.getLsbD_zero,
      Bool.and_self, reduceCtorEq] at bit

theorem Record.not_isError_iff (r : Record) :
    r.isError = false ↔ ∀ k ∈ [0, 1, 2, 4, 5, 6, 16, 18, 19, 20], r.flags.getLsbD k = false := by
  rw [← Bool.not_eq_true, Record.isError_iff]
  push Not
  simp only [Bool.not_eq_true]

theorem Context.mark_eq (c : Context) (r : Record) : c.mark r
    = { r with flags := if c.afterGap then r.flags ||| BitVec.twoPow 32 3 else r.flags } := by
  unfold Context.mark
  split <;> rfl

/-- R93: AFTER_GAP is no error flag. -/
theorem Context.mark_isError (c : Context) (r : Record) : (c.mark r).isError = r.isError := by
  rw [Bool.eq_iff_iff, Record.isError_iff, Record.isError_iff, Context.mark_eq]
  refine exists_congr fun k => and_congr_right fun mem => ?_
  have other : k ≠ 3 := by
    rintro rfl
    simp at mem
  dsimp only
  split
  · rw [BitVec.getLsbD_or, BitVec.getLsbD_twoPow, decide_eq_false (Ne.symm other), Bool.and_false, Bool.or_false]
  · exact Iff.rfl

theorem Context.count_error (c : Context) {r : Record} (error : r.isError = true) : c.count r
    = ({ c with errors := min (c.errors + 1) 65535, armed := decide (min (c.errors + 1) 65535 < c.errorThreshold) },
        c.armed && decide (c.errorThreshold ≤ min (c.errors + 1) 65535)) := by
  unfold Context.count
  rw [if_pos error, Context.checkErrors_eq]
  rfl

theorem Context.count_good (c : Context) {r : Record} (good : r.isError = false) : c.count r
    = ({ c with good := min (c.good + 1) (2 ^ 32 - 1) }, false) := by
  unfold Context.count
  rw [if_neg (by rw [good]; decide)]
  rfl

/-! ## Emissions (R91) -/

theorem Emitted.add_takes (o : Emitted) (e : Emission) : o.takes e (o.add e) := by
  cases e with
  | record r =>
    have records : (o.add (.record r)).records
        = o.records ++ [{ r with flags := if o.context.afterGap then r.flags ||| BitVec.twoPow 32 3 else r.flags }] := by
      rw [← Context.mark_eq]
      rfl
    refine ⟨records, rfl, fun error => ?_, fun good => ?_⟩
    · have isError := (o.context.mark_isError r).trans ((Record.isError_iff r).mpr error)
      have counted := Context.count_error { o.context with afterGap := false } isError
      refine ⟨congrArg Prod.fst counted, ?_⟩
      show (o.error || (Context.count { o.context with afterGap := false } (o.context.mark r)).2) = true ↔ _
      rw [counted, Bool.or_eq_true, Bool.and_eq_true, decide_eq_true_iff]
    · have isGood := (o.context.mark_isError r).trans ((Record.not_isError_iff r).mpr good)
      have counted := Context.count_good { o.context with afterGap := false } isGood
      refine ⟨congrArg Prod.fst counted, ?_⟩
      show (o.error || (Context.count { o.context with afterGap := false } (o.context.mark r)).2) = _
      rw [counted, Bool.or_false]
  | suppressed => exact rfl
  | lockChange => exact rfl

theorem Context.emit_append (c : Context) (out : List Emission) (e : Emission) :
    c.emit (out ++ [e]) = (c.emit out).add e := by
  unfold Context.emit
  rw [List.foldl_append]
  rfl

/-- A record is offered to the consumers of the context as it stood: emissions leave them. -/
theorem Emitted.add_consumers (o : Emitted) (e : Emission) :
    (o.add e).context.report = o.context.report ∧ (o.add e).context.annotate = o.context.annotate := by
  cases e with
  | record r =>
    show (Context.count _ _).1.report = _ ∧ (Context.count _ _).1.annotate = _
    cases error : (o.context.mark r).isError with
    | true =>
      rw [Context.count_error _ error]
      exact ⟨rfl, rfl⟩
    | false =>
      rw [Context.count_good _ error]
      exact ⟨rfl, rfl⟩
  | suppressed | lockChange => exact ⟨rfl, rfl⟩

theorem foldl_add_consumers (out : List Emission) (o : Emitted) :
    (out.foldl Emitted.add o).context.report = o.context.report
      ∧ (out.foldl Emitted.add o).context.annotate = o.context.annotate := by
  induction out generalizing o with
  | nil => exact ⟨rfl, rfl⟩
  | cons e out ih => exact ⟨(ih (o.add e)).1.trans (o.add_consumers e).1, (ih (o.add e)).2.trans (o.add_consumers e).2⟩

theorem Context.engineSample_consumers (c : Context) (d : Dec) (i : CtxId) (x : Reading) :
    (c.engineSample d i x).1.report = c.report ∧ (c.engineSample d i x).1.annotate = c.annotate := by
  unfold Context.engineSample
  split <;> exact ⟨rfl, rfl⟩

theorem Context.read_consumers (c : Context) (d : Dec) (i : CtxId) (x : Conditioned) (step : Nat) :
    (c.read d i x step).context.report = c.report ∧ (c.read d i x step).context.annotate = c.annotate := by
  unfold Context.read
  split
  · obtain ⟨report, annotate⟩ := c.engineSample_consumers d i ⟨x.stamp, step, x.lines, x.changed, c.fresh⟩
    exact ⟨(foldl_add_consumers _ _).1.trans report, (foldl_add_consumers _ _).2.trans annotate⟩
  · exact ⟨rfl, rfl⟩

/-! ## The record path (R95) -/

/-- R95: the consumers that a record of a context is offered to. -/
def State.itemOf (s : State) (r : Record) : PathItem :=
  ⟨r, (s.context r.context).report, s.trg.state == .running,
    if (s.context r.context).annotate then s.capturing? else none⟩

/-- R95: some consumer's condition holds. -/
def State.offersTo (s : State) (r : Record) : Bool :=
  (s.itemOf r).toQueue || (s.itemOf r).toTrigger || (s.itemOf r).toSegment.isSome

theorem pathItem_eq (s : State) (r : Record) : s.pathItem r = if s.offersTo r then some (s.itemOf r) else none := rfl

theorem filterMap_pathItem (s : State) (records : List Record) :
    records.filterMap s.pathItem = (records.filter s.offersTo).map s.itemOf := by
  induction records with
  | nil => rfl
  | cons r records ih =>
    rw [List.filterMap_cons, List.filter_cons, pathItem_eq, ih]
    split
    · rename_i none
      split at none
      · cases none
      · rename_i out
        rw [if_neg out]
    · rename_i some_
      split at some_
      · rename_i offered
        cases some_
        rw [if_pos offered]
        rfl
      · cases some_

theorem enterPath_eq (s : State) (records : List Record) : s.enterPath records = s.setDec { s.dec with
    path := if (records.filter s.offersTo).map s.itemOf = [] then s.dec.path
      else s.dec.path ++ [(records.filter s.offersTo).map s.itemOf] } := by
  unfold State.enterPath
  rw [filterMap_pathItem]
  split
  · rename_i none
    rw [if_pos none]
    rfl
  · rename_i some_
    rw [if_neg some_]

theorem offersTo_iff (s : State) (r : Record) : s.offersTo r = true ↔ (s.context r.context).report = true
    ∨ s.trg.state = .running ∨ ((s.context r.context).annotate = true ∧ ∃ j, s.captures j) := by
  unfold State.offersTo State.itemOf
  rw [Bool.or_eq_true, Bool.or_eq_true, beq_iff_eq, or_assoc]
  refine or_congr_right (or_congr_right ?_)
  dsimp only
  split
  · rename_i annotate
    rw [capturing?_isSome]
    exact (and_iff_right annotate).symm
  · rename_i silent
    exact iff_of_false nofun fun h => silent h.1

theorem itemOf_toSegment (s : State) (r : Record) :
    (∀ j, (s.itemOf r).toSegment = some j → (s.context r.context).annotate = true ∧ s.captures j)
      ∧ ((s.context r.context).annotate = true → (∃ j, s.captures j) → (s.itemOf r).toSegment ≠ none) := by
  unfold State.itemOf
  dsimp only
  split
  · rename_i annotate
    refine ⟨fun j some_ => ⟨annotate, captures_of_capturing? some_⟩, fun _ captures none => ?_⟩
    have found := (capturing?_isSome s).mpr captures
    rw [none] at found
    cases found
  · rename_i silent
    exact ⟨nofun, fun annotate => absurd annotate silent⟩

end Sys2Proof.Machine
end

section
/-! PROOFS. A conditioned sample at the decoders (R83, R94, R95): the state after it, in full. -/

namespace Sys2Proof.Machine

variable {s t w : State} {x : Conditioned} {step : Nat}

/-- What a context gives at a conditioned sample. -/
def State.givenAt (s : State) (x : Conditioned) (step : Nat) (i : CtxId) : Emitted := s.dec.contexts[i].read s.dec i x step

/-- R95: the records of a sample as they enter the path. -/
def State.batchAt (s : State) (x : Conditioned) (step : Nat) : List PathItem :=
  (((List.finRange 16).flatMap fun i => (s.givenAt x step i).records).filter s.offersTo).map s.itemOf

theorem itemOf_congr (report : ∀ i : CtxId, t.dec.contexts[i].report = s.dec.contexts[i].report)
    (annotate : ∀ i : CtxId, t.dec.contexts[i].annotate = s.dec.contexts[i].annotate) (trg : t.trg = s.trg)
    (cap : t.cap = s.cap) : t.itemOf = s.itemOf := by
  have capturing : t.capturing? = s.capturing? := by
    unfold State.capturing? State.segment
    rw [cap]
  funext r
  unfold State.itemOf State.context
  rw [report, annotate, trg, capturing]

theorem offersTo_congr (same : t.itemOf = s.itemOf) : t.offersTo = s.offersTo := by
  unfold State.offersTo
  rw [same]

theorem decodeSample_eq (s : State) (x : Conditioned) (step : Nat) : s.decodeSample x step = { s with
    dec := { s.dec with
      contexts := (Vector.ofFn fun i : CtxId => (s.givenAt x step i).context)
      path := if s.batchAt x step = [] then s.dec.path else s.dec.path ++ [s.batchAt x step] }
    cmd := { s.cmd with
      pending := raisedBy (raisedBy s.cmd.pending 7 (setOf fun i : CtxId => (s.givenAt x step i).lock)) 8
        (setOf fun i : CtxId => (s.givenAt x step i).error)
      lockChange := s.cmd.lockChange ||| setOf fun i : CtxId => (s.givenAt x step i).lock
      errorThreshold := s.cmd.errorThreshold ||| setOf fun i : CtxId => (s.givenAt x step i).error } } := by
  have given (i : CtxId) : (mapIds s.dec.contexts fun i c => c.read s.dec i x step)[i] = s.givenAt x step i :=
    mapIds_get _ _ i
  have contexts : (mapIds s.dec.contexts fun i c => c.read s.dec i x step).map (·.context)
      = Vector.ofFn fun i : CtxId => (s.givenAt x step i).context := by
    unfold mapIds
    rw [Vector.map_ofFn]
    rfl
  have records : (mapIds s.dec.contexts fun i c => c.read s.dec i x step).toList.flatMap (·.records)
      = (List.finRange 16).flatMap fun i => (s.givenAt x step i).records := by
    unfold mapIds
    rw [Vector.toList_ofFn, List.ofFn_eq_map, List.flatMap_map]
    rfl
  unfold State.decodeSample State.applyEmitted
  extract_lets _ u v
  have raised : v = { s with
      dec := { s.dec with contexts := (Vector.ofFn fun i : CtxId => (s.givenAt x step i).context) }
      cmd := { s.cmd with
        pending := raisedBy (raisedBy s.cmd.pending 7 (setOf fun i : CtxId => (s.givenAt x step i).lock)) 8
          (setOf fun i : CtxId => (s.givenAt x step i).error)
        lockChange := s.cmd.lockChange ||| setOf fun i : CtxId => (s.givenAt x step i).lock
        errorThreshold := s.cmd.errorThreshold ||| setOf fun i : CtxId => (s.givenAt x step i).error } } := by
    dsimp only [v, u]
    simp only [given, contexts]
    rw [State.raiseError_eq, State.raiseLock_eq]
    rfl
  have context (i : CtxId) : v.dec.contexts[i] = (s.givenAt x step i).context := by
    rw [raised]
    exact Vector.getElem_ofFn _
  have consumers (i : CtxId) := s.dec.contexts[i].read_consumers s.dec i x step
  have items : v.itemOf = s.itemOf := by
    refine itemOf_congr (fun i => ?_) (fun i => ?_) (by rw [raised]) (by rw [raised])
    · rw [context]
      exact (consumers i).1
    · rw [context]
      exact (consumers i).2
  rw [enterPath_eq, records, items, offersTo_congr items, raised]
  rfl

/-- A sample as `State.takesDecoded` says it, for states that agree with those before and after the decoders where it
reads them. -/
theorem takesDecoded_of_decodeSample (dec : w.dec = s.dec) (trg : w.trg = s.trg) (cap : w.cap = s.cap)
    (lock : w.cmd.lockChange = s.cmd.lockChange) (error : w.cmd.errorThreshold = s.cmd.errorThreshold)
    (seven : w.cmd.pending.getLsbD 7 = s.cmd.pending.getLsbD 7) (eight : w.cmd.pending.getLsbD 8 = s.cmd.pending.getLsbD 8)
    (dec' : t.dec = (w.decodeSample x step).dec) (lock' : t.cmd.lockChange = (w.decodeSample x step).cmd.lockChange)
    (error' : t.cmd.errorThreshold = (w.decodeSample x step).cmd.errorThreshold)
    (seven' : t.cmd.pending.getLsbD 7 = (w.decodeSample x step).cmd.pending.getLsbD 7)
    (eight' : t.cmd.pending.getLsbD 8 = (w.decodeSample x step).cmd.pending.getLsbD 8) : s.takesDecoded x step t := by
  have given : w.givenAt x step = s.givenAt x step := by
    funext i
    unfold State.givenAt
    rw [dec]
  have items : w.itemOf = s.itemOf := itemOf_congr (by rw [dec]; simp) (by rw [dec]; simp) trg cap
  have batch : w.batchAt x step = s.batchAt x step := by
    unfold State.batchAt
    rw [given, items, offersTo_congr items]
  rw [decodeSample_eq, given, batch, dec] at dec'
  rw [decodeSample_eq, given, lock] at lock'
  rw [decodeSample_eq, given, error] at error'
  rw [decodeSample_eq, given] at seven' eight'
  have contexts (i : CtxId) : t.dec.contexts[i] = (s.givenAt x step i).context := by
    rw [dec']
    exact Vector.getElem_ofFn _
  refine ⟨s.givenAt x step, s.offersTo, s.batchAt x step, rfl, fun i => ⟨contexts i, ?_, ?_⟩, ?_, ?_, ?_, ?_, ?_,
    fun r => offersTo_iff s r, fun p mem => ?_⟩
  · rw [lock']
    exact detail_setOf_iff _ _ i
  · rw [error']
    exact detail_setOf_iff _ _ i
  · rw [seven', raisedBy_other _ _ (by decide), raisedBy_setOf_iff (by decide), seven]
    simp
  · rw [eight', raisedBy_setOf_iff (by decide), raisedBy_other _ _ (by decide), eight]
    simp
  · rw [dec']
  · rw [dec']
  · unfold State.batchAt
    rw [List.map_map]
    exact List.map_id _
  · obtain ⟨r, -, rfl⟩ := List.mem_map.mp mem
    obtain ⟨captured, found⟩ := itemOf_toSegment s r
    exact ⟨rfl, beq_iff_eq, captured, found⟩

end Sys2Proof.Machine
end

section
/-! PROOFS. A conditioned sample formed and offered to its consumers (R5 to R8), as `State.takesConditioned` says it. -/

namespace Sys2Proof.Machine

variable {s t u w : State} {r r' : Run} {newest : Nat}

/-! ## The sample formed (R5 to R8) -/

section Formed

variable (p : Pfe)

theorem formSample_eq : p.formSample r newest = ({ p with
    lines := (p.conditioned r r.formed newest).1.lines
    stamp := (p.conditioned r r.formed newest).1.stamp
    emitted := (p.conditioned r r.formed newest).2
    run := p.run.map fun r => { r with formed := r.formed + 1 } }, (p.conditioned r r.formed newest).1) := by
  unfold Pfe.formSample
  generalize p.conditioned r r.formed newest = x
  rfl

theorem conditioned_stamp : (p.conditioned r r.formed newest).1.stamp = r.nextStamp := by
  unfold Pfe.conditioned Run.nextStamp
  dsimp only

theorem conditioned_changed : (p.conditioned r r.formed newest).1.changed
    = if r.formed = 0 then 0#32 else p.lines ^^^ (p.conditioned r r.formed newest).1.lines := by
  unfold Pfe.conditioned
  dsimp only

theorem formSample_stamp : (p.formSample r newest).2.stamp = r.nextStamp := by
  rw [formSample_eq, conditioned_stamp]

theorem formSample_value (c : Chan) :
    ((p.formSample r newest).1.lines.getLsbD c.val, (p.formSample r newest).1.emitted[c])
      = conditionedValue p.filters[c] p.inUse.offsets[c] p.emitted[c] (inSet p.lines c.val) r.formed newest := by
  unfold Pfe.formSample Pfe.conditioned
  dsimp only
  rw [setOf_getLsbD, map_get]
  exact congrArg₂ Prod.mk (congrArg Prod.fst (Vector.getElem_ofFn _)) (congrArg Prod.snd (Vector.getElem_ofFn _))

theorem formSample_changed : (p.formSample r newest).2.changed
    = if r.formed = 0 then 0#32 else p.lines ^^^ (p.formSample r newest).1.lines := by
  rw [formSample_eq, conditioned_changed]

theorem formSample_lines : (p.formSample r newest).2.lines = (p.formSample r newest).1.lines := by
  rw [formSample_eq]

theorem formSample_rest : (p.formSample r newest).1
    = { p with lines := (p.formSample r newest).1.lines, stamp := r.nextStamp,
               emitted := (p.formSample r newest).1.emitted,
               run := p.run.map fun r => { r with formed := r.formed + 1 } } := by
  rw [formSample_eq, conditioned_stamp]

end Formed

theorem conditionedValue_repeated {f : GlitchFilter} {offset emitted : Int} {last : Bool} {k newest : Nat} (later : 0 < k)
    (past : (k : Int) + offset ≤ emitted) : conditionedValue f offset emitted last k newest = (last, emitted) :=
  if_pos ⟨later, past⟩

theorem conditionedValue_new {f : GlitchFilter} {offset emitted : Int} {last : Bool} {k newest : Nat}
    (ahead : k = 0 ∨ emitted < (k : Int) + offset) : conditionedValue f offset emitted last k newest
      = (f.history.getLsbD ((newest : Int) - (k + offset)).toNat, (k : Int) + offset) :=
  if_neg fun ⟨later, past⟩ => ahead.elim (fun first => by omega) fun ahead => by omega

/-! ## The monitors (R13, R15, R16) -/

theorem mem_activityChanges (before after : Vector Monitor 32) (c : Chan) (a : Activity) :
    (c, a) ∈ activityChanges before after ↔ a = after[c].activity ∧ a ≠ before[c].activity := by
  unfold activityChanges
  rw [List.mem_filterMap]
  constructor
  · rintro ⟨d, -, here⟩
    split at here
    · cases here
    · rename_i changed
      cases here
      exact ⟨rfl, fun same => changed same.symm⟩
  · rintro ⟨rfl, changed⟩
    exact ⟨c, List.mem_finRange c, if_neg fun same => changed same.symm⟩

theorem activityChannels_getLsbD (before after : Vector Monitor 32) (c : Chan) :
    (activityChannels (activityChanges before after)).getLsbD c.val = true ↔ after[c].activity ≠ before[c].activity := by
  unfold activityChannels
  rw [setOf_getLsbD, List.any_eq_true]
  constructor
  · rintro ⟨⟨d, a⟩, mem, here⟩
    obtain rfl : d = c := of_decide_eq_true here
    obtain ⟨rfl, changed⟩ := (mem_activityChanges before after d a).mp mem
    exact changed
  · intro changed
    exact ⟨(c, after[c].activity), (mem_activityChanges before after c _).mpr ⟨rfl, changed⟩, decide_eq_true rfl⟩

/-- The monitors after a sample. -/
def Pfe.monitored (p : Pfe) (x : Conditioned) : Vector Monitor 32 :=
  mapIds p.monitors fun c m => m.sample (decide (p.formedSamples = 1)) p.quietSpan x.stamp (inSet x.changed c.val)

theorem monitorSample_eq (s : State) (x : Conditioned) : s.monitorSample x =
    ({ s with
        pfe := { s.pfe with monitors := s.pfe.monitored x, activityDue := [] }
        cmd := { s.cmd with
          pending := raisedBy s.cmd.pending 10 (activityChannels (activityChanges s.pfe.monitors (s.pfe.monitored x)))
          activity := s.cmd.activity ||| activityChannels (activityChanges s.pfe.monitors (s.pfe.monitored x)) } },
      s.pfe.activityDue ++ activityChanges s.pfe.monitors (s.pfe.monitored x)) := by
  unfold State.monitorSample Pfe.monitored
  dsimp only
  rw [State.raiseActivity_eq]
  generalize mapIds s.pfe.monitors _ = after
  rfl

theorem raisedBy_of_member {w : Nat} {p : BitVec 14} {k : Nat} (kind : k < 14) {x : BitVec w} (i : Fin w)
    (member : x.getLsbD i.val = true) : (raisedBy p k x).getLsbD k = true := by
  unfold raisedBy
  split
  · rename_i none
    rw [none, BitVec.getLsbD_zero] at member
    cases member
  · rw [BitVec.getLsbD_or, BitVec.getLsbD_twoPow, decide_eq_true kind, decide_eq_true rfl, Bool.and_self, Bool.or_true]

/-! ## What sequencer and encoder leave of the notices with a detail set -/

/-- The notices with a detail set (R181) and their detail sets are as they were, and so is the rest of the port but the
other notices. -/
def State.keepsDetails (s t : State) : Prop := t.cmd = { s.cmd with pending := t.cmd.pending }
  ∧ ∀ k, 7 ≤ k → k ≤ 10 → t.cmd.pending.getLsbD k = s.cmd.pending.getLsbD k

theorem State.keepsDetails.of_eq (same : t.cmd = s.cmd) : s.keepsDetails t := by
  unfold State.keepsDetails
  rw [same]
  exact ⟨rfl, fun _ _ _ => rfl⟩

theorem State.keepsDetails.trans (h : s.keepsDetails t) (g : t.keepsDetails u) : s.keepsDetails u := by
  refine ⟨?_, fun k low high => (g.2 k low high).trans (h.2 k low high)⟩
  rw [g.1, h.1]

theorem State.keepsDetails.raise (s : State) {n : Notice} (plain : n.index < 7 ∨ 10 < n.index) :
    s.keepsDetails (s.raise n) :=
  ⟨rfl, fun _ _ _ => pending_or_other _ (by omega)⟩

theorem CapStep.keepsDetails (h : w.keepsDetails s) (step : CapStep s t) : w.keepsDetails t := by
  refine h.trans ?_
  cases step with
  | raise n plain => exact .raise s plain
  | segment | entries | annotations | pages | drainOne | trg | path => exact .of_eq rfl
  | pool pool m =>
    unfold State.checkPool
    split
    · split
      · exact State.keepsDetails.raise _ (.inl (by decide))
      · exact .of_eq rfl
    · exact .of_eq rfl
  | port => exact .of_eq (by simp)

theorem encodeSample_keepsDetails (s : State) (stamp : Nat) (lines : Lines) :
    s.keepsDetails (s.encodeSample stamp lines) :=
  (encodeSample_steps stamp lines).keep (P := s.keepsDetails) CapStep.keepsDetails (.of_eq rfl)

theorem evaluate_keepsDetails (s : State) (matched : UnitId → Bool) (tick : Nat) :
    s.keepsDetails (s.evaluate matched tick) := by
  obtain ⟨q, sent, n, -, e⟩ := evaluate_takesEvent s matched tick
  rw [e]
  refine ⟨rfl, fun k low high => ?_⟩
  dsimp only
  split
  · exact pending_or_other _ (by omega)
  · rfl

theorem stageTimerAt_keepsDetails (s : State) (stamp : Nat) : s.keepsDetails (s.stageTimerAt stamp) := by
  unfold State.stageTimerAt
  extract_lets previous entry _ t
  split
  · exact (State.keepsDetails.of_eq rfl).trans (evaluate_keepsDetails t _ _)
  · exact .of_eq rfl

theorem triggerSample_keepsDetails (s : State) (stamp : Nat) (lines changed : Lines) (activity : List (Chan × Activity)) :
    s.keepsDetails (s.triggerSample stamp lines changed activity) := by
  unfold State.triggerSample
  split
  · split
    · exact .of_eq rfl
    · extract_lets t
      have timed : s.keepsDetails t := stageTimerAt_keepsDetails s stamp
      split
      · exact timed.trans (.of_eq rfl)
      · cases brought : t.trg.patternsAt lines stamp with
        | mk q raised =>
          dsimp only
          exact (timed.trans (.of_eq (t := t.setTrg q) rfl)).trans (evaluate_keepsDetails _ _ _)
  · exact .of_eq rfl

/-! ## The sample taken -/

/-- The state that the monitors leave of a sample `x.2` formed with `x.1` left of the front end. -/
def State.monitoredSample (w : State) (x : Pfe × Conditioned) : State := ((w.setPfe x.1).monitorSample x.2).1

/-- The state that the decoders leave of it. -/
def State.decodedSample (w : State) (x : Pfe × Conditioned) (step : Nat) : State :=
  (w.monitoredSample x).decodeSample x.2 step

/-- The activity events of it. -/
def State.sampleActivity (w : State) (x : Pfe × Conditioned) : List (Chan × Activity) :=
  ((w.setPfe x.1).monitorSample x.2).2

theorem monitoredSample_eq (w : State) (x : Pfe × Conditioned) : w.monitoredSample x =
    { w with
      pfe := { x.1 with monitors := x.1.monitored x.2, activityDue := [] }
      cmd := { w.cmd with
        pending := raisedBy w.cmd.pending 10 (activityChannels (activityChanges x.1.monitors (x.1.monitored x.2)))
        activity := w.cmd.activity ||| activityChannels (activityChanges x.1.monitors (x.1.monitored x.2)) } } :=
  congrArg Prod.fst (monitorSample_eq _ _)

theorem sampleActivity_eq (w : State) (x : Pfe × Conditioned) : w.sampleActivity x
    = x.1.activityDue ++ activityChanges x.1.monitors (x.1.monitored x.2) :=
  congrArg Prod.snd (monitorSample_eq _ _)

theorem takeConditioned_eq (w : State) (x : Pfe × Conditioned) (step : Nat) : (w.setPfe x.1).takeConditioned x.2 step
    = ((w.decodedSample x step).triggerSample x.2.stamp x.2.lines x.2.changed (w.sampleActivity x)).encodeSample
      x.2.stamp x.2.lines := by
  unfold State.takeConditioned State.decodedSample State.sampleActivity State.monitoredSample
  cases (w.setPfe x.1).monitorSample x.2 with
  | mk t activity => rfl

theorem formNext_eq (run : w.pfe.run = some r) :
    w.formNext newest = (w.setPfe (w.pfe.formSample r newest).1).takeConditioned (w.pfe.formSample r newest).2 r.step := by
  unfold State.formNext
  rw [run]

theorem takeConditioned_pfe (w : State) (x : Pfe × Conditioned) (step : Nat) :
    ((w.setPfe x.1).takeConditioned x.2 step).pfe = { x.1 with monitors := x.1.monitored x.2, activityDue := [] } := by
  rw [takeConditioned_eq, (State.encodeSample_frame _ _ _).1, (State.triggerSample_frame _ _ _ _ _).1]
  unfold State.decodedSample
  rw [(State.decodeSample_frame _ _ _).1, monitoredSample_eq]

theorem formNext_pfe (run : w.pfe.run = some r) : (w.formNext newest).pfe = { w.pfe with
    lines := (w.formNext newest).pfe.lines, stamp := (w.formNext newest).pfe.stamp
    emitted := (w.formNext newest).pfe.emitted, monitors := (w.formNext newest).pfe.monitors, activityDue := []
    run := some { r with formed := r.formed + 1 } } := by
  have rest := formSample_rest (r := r) (newest := newest) w.pfe
  rw [formNext_eq run, takeConditioned_pfe]
  generalize w.pfe.formSample r newest = x at *
  generalize x.1.monitored x.2 = after
  rw [rest, run]
  rfl

theorem monitored_get (run : w.pfe.run = some r) (c : Chan) :
    ((w.pfe.formSample r newest).1.monitored (w.pfe.formSample r newest).2)[c]
      = w.pfe.monitors[c].sample (decide (r.formed = 0)) (max w.pfe.quietTime r.step) r.nextStamp
        (inSet (w.pfe.formSample r newest).2.changed c.val) := by
  have formed : (w.pfe.formSample r newest).1.formedSamples = r.formed + 1 := by
    unfold Pfe.formedSamples
    rw [formSample_rest, run]
    rfl
  have span : (w.pfe.formSample r newest).1.quietSpan = max w.pfe.quietTime r.step := by
    unfold Pfe.quietSpan
    rw [formSample_rest, run]
    rfl
  unfold Pfe.monitored
  rw [mapIds_get, formed, span, formSample_stamp]
  simp only [Nat.add_eq_right]
  rw [formSample_rest]

section Taken

/-! A conditioned sample `x.2`, with `x.1` the front end that has formed it, taken by the consumers of `w`. -/

variable {x : Pfe × Conditioned} {step : Nat}

theorem takeConditioned_details (w : State) (x : Pfe × Conditioned) (step : Nat) :
    (w.decodedSample x step).keepsDetails ((w.setPfe x.1).takeConditioned x.2 step) := by
  rw [takeConditioned_eq]
  exact (triggerSample_keepsDetails _ _ _ _ _).trans (encodeSample_keepsDetails _ _ _)

theorem takeConditioned_dec (w : State) (x : Pfe × Conditioned) (step : Nat) :
    ((w.setPfe x.1).takeConditioned x.2 step).dec = (w.decodedSample x step).dec := by
  rw [takeConditioned_eq, (State.encodeSample_frame _ _ _).2.2.2.1, (State.triggerSample_frame _ _ _ _ _).2.2.2.1]

theorem decodedSample_trg (w : State) (x : Pfe × Conditioned) (step : Nat) : (w.decodedSample x step).trg = w.trg := by
  unfold State.decodedSample
  rw [(State.decodeSample_frame _ _ _).2.2.2.2.1, monitoredSample_eq]

theorem decodedSample_cap (w : State) (x : Pfe × Conditioned) (step : Nat) : (w.decodedSample x step).cap = w.cap := by
  unfold State.decodedSample
  rw [(State.decodeSample_frame _ _ _).2.2.2.1, monitoredSample_eq]

theorem decodedSample_activity (w : State) (x : Pfe × Conditioned) (step : Nat) (c : Chan)
    (moved : (x.1.monitored x.2)[c].activity ≠ x.1.monitors[c].activity) :
    (w.decodedSample x step).cmd.pending.getLsbD 10 = true ∧ (w.decodedSample x step).cmd.activity.getLsbD c.val = true := by
  have member := (activityChannels_getLsbD x.1.monitors (x.1.monitored x.2) c).mpr moved
  unfold State.decodedSample
  rw [decodeSample_eq, monitoredSample_eq]
  dsimp only
  rw [raisedBy_other _ _ (by decide), raisedBy_other _ _ (by decide), BitVec.getLsbD_or, member, Bool.or_true]
  exact ⟨raisedBy_of_member (by decide) c member, rfl⟩

theorem takesDecoded_takeConditioned (dec : w.dec = s.dec) (trg : w.trg = s.trg) (cap : w.cap = s.cap)
    (lock : w.cmd.lockChange = s.cmd.lockChange) (error : w.cmd.errorThreshold = s.cmd.errorThreshold)
    (seven : w.cmd.pending.getLsbD 7 = s.cmd.pending.getLsbD 7)
    (eight : w.cmd.pending.getLsbD 8 = s.cmd.pending.getLsbD 8) :
    s.takesDecoded x.2 step ((w.setPfe x.1).takeConditioned x.2 step) := by
  have details := takeConditioned_details w x step
  have same := monitoredSample_eq w x
  have taken := takeConditioned_dec w x step
  unfold State.decodedSample at details taken
  generalize (w.setPfe x.1).takeConditioned x.2 step = t at *
  obtain ⟨cmd, other⟩ := details
  refine takesDecoded_of_decodeSample (w := w.monitoredSample x) ?_ ?_ ?_ ?_ ?_ ?_ ?_ taken (by rw [cmd]) (by rw [cmd])
    (other 7 (by decide) (by decide)) (other 8 (by decide) (by decide))
  all_goals rw [same]
  · exact dec
  · exact trg
  · exact cap
  · exact lock
  · exact error
  · exact (raisedBy_other _ _ (by decide)).trans seven
  · exact (raisedBy_other _ _ (by decide)).trans eight

/-- What `State.takesConditioned` says of a front end `p` that has formed a sample of run `r`. -/
structure Formed (s : State) (r : Run) (newest : Nat) (p : Pfe) : Prop where
  stamp : p.stamp = r.nextStamp
  value (c : Chan) : (inSet p.lines c.val, p.emitted[c])
    = conditionedValue p.filters[c] s.pfe.inUse.offsets[c] s.pfe.emitted[c] (inSet s.pfe.lines c.val) r.formed newest

theorem takesConditioned_takeConditioned {r : Run} {m : Chan → Monitor} {changed : Lines} (formed : Formed s r newest x.1)
    (is : changed = if r.formed = 0 then 0#32 else s.pfe.lines ^^^ x.1.lines)
    (sample : x.2 = ⟨r.nextStamp, x.1.lines, changed⟩)
    (monitor : ∀ c : Chan, (x.1.monitored x.2)[c]
      = (m c).sample (decide (r.formed = 0)) (max s.pfe.quietTime r.step) r.nextStamp (changed.getLsbD c.val))
    (activity : ∀ c : Chan, x.1.monitors[c].activity = s.pfe.monitors[c].activity)
    (due : x.1.activityDue = s.pfe.activityDue) (dec : w.dec = s.dec) (trg : w.trg = s.trg)
    (cap : w.cap = s.cap) (lock : w.cmd.lockChange = s.cmd.lockChange)
    (error : w.cmd.errorThreshold = s.cmd.errorThreshold)
    (seven : w.cmd.pending.getLsbD 7 = s.cmd.pending.getLsbD 7)
    (eight : w.cmd.pending.getLsbD 8 = s.cmd.pending.getLsbD 8) :
    s.takesConditioned r newest m ((w.setPfe x.1).takeConditioned x.2 r.step) := by
  have pfe := takeConditioned_pfe w x r.step
  have details := takeConditioned_details w x r.step
  have decoded : s.takesDecoded x.2 r.step _ := takesDecoded_takeConditioned (x := x) dec trg cap lock error seven eight
  have state := takeConditioned_eq w x r.step
  have moved := decodedSample_activity w x r.step
  have events := sampleActivity_eq w x
  have value := formed.value
  have trg' := (decodedSample_trg w x r.step).trans trg
  have cap' := (decodedSample_cap w x r.step).trans cap
  unfold State.takesConditioned
  generalize (w.setPfe x.1).takeConditioned x.2 r.step = t at *
  generalize w.decodedSample x r.step = v at *
  generalize x.1.monitored x.2 = after at *
  rw [sample] at decoded state
  have lines : t.pfe.lines = x.1.lines := by rw [pfe]
  have emitted : t.pfe.emitted = x.1.emitted := by rw [pfe]
  have filters : t.pfe.filters = x.1.filters := by rw [pfe]
  have monitors : t.pfe.monitors = after := by rw [pfe]
  rw [lines, emitted, filters, monitors]
  refine ⟨by rw [pfe]; exact formed.stamp, fun c k index => ⟨fun later past => ?_, fun ahead => ?_⟩,
    v, w.sampleActivity x, changed, is, state, trg', cap', decoded, fun c => ⟨monitor c, fun changes => ?_⟩, fun c a => ?_⟩
  · exact Prod.mk.inj ((value c).trans (conditionedValue_repeated later (index ▸ past)))
  · have value := (value c).trans (conditionedValue_new (ahead.imp_right (index ▸ ·)))
    rw [← index] at value
    exact Prod.mk.inj value
  · rw [← activity c] at changes
    have raised := moved c changes
    refine ⟨(details.2 10 (by decide) (by decide)).trans raised.1, ?_⟩
    rw [details.1]
    exact raised.2
  · rw [events, List.mem_append, mem_activityChanges, due, activity c]

end Taken

/-- R5 to R8: the next conditioned sample of the run of `w`, formed and offered, for a state `s` that agrees with `w` but
for the monitors' counters, the filters and the glitch notice. -/
theorem takesConditioned_formNext (m : Chan → Monitor) (run : w.pfe.run = some r')
    (formed : r'.formed = r.formed) (first : r'.firstStamp = r.firstStamp) (step : r'.step = r.step)
    (lines : w.pfe.lines = s.pfe.lines) (emitted : w.pfe.emitted = s.pfe.emitted)
    (offsets : w.pfe.inUse = s.pfe.inUse) (quiet : w.pfe.quietTime = s.pfe.quietTime)
    (due : w.pfe.activityDue = s.pfe.activityDue) (monitors : ∀ c : Chan, w.pfe.monitors[c] = m c)
    (activity : ∀ c, (m c).activity = s.pfe.monitors[c].activity) (dec : w.dec = s.dec) (trg : w.trg = s.trg)
    (cap : w.cap = s.cap) (lock : w.cmd.lockChange = s.cmd.lockChange)
    (error : w.cmd.errorThreshold = s.cmd.errorThreshold)
    (seven : w.cmd.pending.getLsbD 7 = s.cmd.pending.getLsbD 7)
    (eight : w.cmd.pending.getLsbD 8 = s.cmd.pending.getLsbD 8) :
    s.takesConditioned r newest m (w.formNext newest) := by
  have nextStamp : r'.nextStamp = r.nextStamp := by
    unfold Run.nextStamp
    rw [first, formed, step]
  have monitor (c : Chan) := monitored_get (newest := newest) run c
  have value (c : Chan) := formSample_value (r := r') (newest := newest) w.pfe c
  have changed := formSample_changed (r := r') (newest := newest) w.pfe
  have stamp := formSample_stamp (r := r') (newest := newest) w.pfe
  have same := formSample_lines (r := r') (newest := newest) w.pfe
  have rest := formSample_rest (r := r') (newest := newest) w.pfe
  rw [formNext_eq run, step]
  generalize w.pfe.formSample r' newest = x at *
  rw [lines, formed] at changed
  simp only [offsets, emitted, lines, formed] at value
  simp only [formed, quiet, step, nextStamp, monitors] at monitor
  have left : x.1.monitors = w.pfe.monitors ∧ x.1.filters = w.pfe.filters ∧ x.1.activityDue = w.pfe.activityDue
      ∧ x.1.stamp = r'.nextStamp := by
    rw [rest]
    exact ⟨rfl, rfl, rfl, rfl⟩
  obtain ⟨left, filters, waits, at'⟩ := left
  refine takesConditioned_takeConditioned ⟨at'.trans nextStamp, fun c => ?_⟩ changed ?_ monitor (fun c => ?_) (waits.trans due)
    dec trg cap lock error seven eight
  · rw [filters]
    exact value c
  · obtain ⟨p, y⟩ := x
    rw [← nextStamp, ← stamp, ← same]
  · rw [left, monitors c, activity c]

end Sys2Proof.Machine
end

section
/-! PROOFS. The end of a run (R7), a gap (R87) and the beginning of a transition (R22), as `State.endsRun`,
`Context.takesGap` and `State.beginsTransition` say them. -/

namespace Sys2Proof.Machine

variable {s t : State}

/-! ## The steps after the last one of a run (R7) -/

/-- The filters of a state after one step behind the run's last. -/
def State.filtersOn (s : State) : State :=
  { s with pfe := { s.pfe with filters := s.pfe.filters.map GlitchFilter.afterRun } }

/-- One step behind the run's last. -/
def State.flushStep (s : State) (step : Nat) : State :=
  if 24 ≤ step then s.filtersOn.formNext step else s.filtersOn

/-- The states left by the steps behind the run's last, the first of them step `first`. -/
def State.flushed (first : Nat) (s : State) : Nat → State
  | 0 => s
  | j + 1 => (State.flushed first s j).flushStep (first + j)

theorem flushed_succ (first : Nat) (s : State) (n : Nat) :
    State.flushed first s (n + 1) = State.flushed (first + 1) (s.flushStep first) n := by
  induction n with
  | zero => rfl
  | succ n ih =>
    show (State.flushed first s (n + 1)).flushStep (first + (n + 1)) = _
    rw [ih, (by omega : first + (n + 1) = first + 1 + n)]
    rfl

theorem flushSteps_eq (n step : Nat) (s : State) : State.flushSteps n step s = State.flushed step s n := by
  induction n generalizing step s with
  | zero => rfl
  | succ n ih => exact (ih (step + 1) (s.flushStep step)).trans (flushed_succ step s n).symm

theorem filtersOn_get (s : State) (c : Chan) : s.filtersOn.pfe.filters[c] = s.pfe.filters[c].afterRun :=
  map_get _ _ c

theorem flushStep_flushes (s : State) (step : Nat) : s.flushes step (s.flushStep step) := by
  refine ⟨s.filtersOn, rfl, fun c => ?_, fun early => if_neg (by omega), fun r late run => ?_⟩
  · rw [filtersOn_get]
    exact ⟨rfl, rfl, pushHistory_zero _ _, fun k small => pushHistory_succ _ _ small⟩
  · have formed : s.flushStep step = s.filtersOn.formNext step := if_pos late
    have run : s.filtersOn.pfe.run = some r := run
    have pfe := formNext_pfe (newest := step) run
    have frame := State.formNext_frame s.filtersOn step
    rw [formed]
    refine ⟨takesConditioned_formNext _ run rfl rfl rfl rfl rfl rfl rfl rfl (fun _ => rfl) (fun _ => rfl) rfl rfl rfl rfl rfl
      rfl rfl, ?_, frame.1, frame.2.1, frame.2.2.1, frame.2.2.2.2.2.2.2.2.1⟩
    rw [pfe]

/-! ## The end of a run -/

theorem discardOpenRuns_get (p : Pfe) (c : Chan) : p.discardOpenRuns.filters[c] = { p.filters[c] with openRun := none } :=
  map_get _ _ c

theorem endRun_of_none (none_ : s.pfe.run = none) : s.endRun = s := by
  unfold State.endRun
  rw [none_]

theorem endRun_endsRun (s : State) : s.endsRun s.endRun := by
  refine ⟨endRun_of_none, fun r run => ⟨State.flushed r.taken (s.setPfe s.pfe.discardOpenRuns), rfl,
    fun c => discardOpenRuns_get _ c, fun j _ => flushStep_flushes _ _, fun none_ => ?_, fun some_ => ?_⟩⟩
  · unfold State.endRun
    rw [run]
    dsimp only
    rw [if_pos none_]
    rfl
  · unfold State.endRun
    rw [run]
    dsimp only
    rw [if_neg some_, flushSteps_eq]
    rfl

/-! ## A gap -/

theorem gapBegin_get (s : State) (i : CtxId) : s.gapBegin.dec.contexts[i] = s.dec.contexts[i].gapBegin :=
  map_get _ _ i

theorem Context.gapBegin_of_not_running {c : Context} (other : c.state ≠ .running) : c.gapBegin = c := if_neg other

theorem Context.gapBegin_running {c : Context} (running : c.state = .running) :
    c.gapBegin.state = .running ∧ c.gapBegin.afterGap = true := by
  unfold Context.gapBegin
  rw [if_pos running]
  unfold Context.gap
  split <;> exact ⟨running, rfl⟩

/-! ## The beginning of a transition (R22) -/

theorem beginTransition_eq {target : Level} {v : State}
    (ended : ({ s with lvl := { s.lvl with transition := .switching target } } : State).endRun = v) :
    s.beginTransition target = { v with
      dec := if s.pfe.run.isSome then v.gapBegin.dec else v.dec
      cap := { v.cap with port := if s.lvl.level = .standby then .normal else v.cap.port } } := by
  have level : v.lvl.level = s.lvl.level := by
    rw [← ended, (State.endRun_frame _).1]
  dsimp only at ended
  unfold State.beginTransition State.setLvl
  dsimp only
  rw [ended]
  cases s.pfe.run with
  | none =>
    show (if v.lvl.level = .standby then _ else _) = _
    rw [level]
    split <;> rfl
  | some r =>
    show (if v.gapBegin.lvl.level = .standby then _ else _) = _
    rw [(State.gapBegin_frame _).2.1, level]
    split <;> rfl

/-- R22: what a transition to `target` leaves, with `v` left of the run. -/
theorem beginTransition_takes (s : State) (target : Level) : ∃ v : State,
    v = ({ s with lvl := { s.lvl with transition := .switching target } } : State).endRun
    ∧ s.beginTransition target = { v with
        dec := { v.dec with gap := (s.beginTransition target).dec.gap, contexts := (s.beginTransition target).dec.contexts }
        cap := { v.cap with port := if s.lvl.level = .standby then .normal else v.cap.port } }
    ∧ (s.pfe.run = none → (s.beginTransition target).dec = v.dec)
    ∧ (s.pfe.run ≠ none → (s.beginTransition target).dec.gap = true ∧ ∀ i : CtxId,
      (s.beginTransition target).dec.contexts[i] = v.dec.contexts[i].gapBegin) := by
  refine ⟨_, rfl, ?_⟩
  generalize begun : ({ s with lvl := { s.lvl with transition := .switching target } } : State).endRun = v
  rw [beginTransition_eq begun]
  cases run : s.pfe.run with
  | none => exact ⟨rfl, fun _ => rfl, fun some_ => absurd rfl some_⟩
  | some r => exact ⟨rfl, nofun, fun _ => ⟨rfl, gapBegin_get v⟩⟩

theorem beginTransition_begins (s : State) (target : Level) :
    s.beginsTransition target (({ s with lvl := { s.lvl with request := none } } : State).beginTransition target) := by
  obtain ⟨v, rfl, state, quiet, gap⟩ :=
    beginTransition_takes ({ s with lvl := { s.lvl with request := none } } : State) target
  refine ⟨_, endRun_endsRun _, state, quiet, fun run => ⟨(gap run).1, fun i => ⟨fun running => ?_, fun other => ?_⟩⟩⟩
  · rw [(gap run).2 i]
    exact Context.gapBegin_takesGap _ running
  · rw [(gap run).2 i, Context.gapBegin_of_not_running other]

theorem releaseRequest_begins {target : Level} (request : s.lvl.request = some target) :
    s.beginsTransition target s.releaseRequest := by
  unfold State.releaseRequest
  rw [request]
  exact beginTransition_begins s target

theorem endOfCapture_begins {target : Level} (request : s.lvl.request = some target) (steady : ¬ s.switches)
    (done : s.noCapture) : s.beginsTransition target s.endOfCapture := by
  unfold State.endOfCapture
  rw [if_pos]
  · exact releaseRequest_begins request
  · exact ⟨(capturing?_isNone s).mpr done, by simpa using mt (isSwitching_iff s).mp steady⟩

end Sys2Proof.Machine
end

section
/-! PROOFS. SET_LEVEL (O24), and what the end of a run leaves of the contexts' states. -/

namespace Sys2Proof.Machine

variable {s t u : State}

/-! ## The states of the contexts over conditioned samples -/

/-- Every context keeps its state, and one that is not RUNNING (Table 6-3) all of it. -/
def State.keepsStates (s t : State) : Prop := ∀ i : CtxId, t.dec.contexts[i].state = s.dec.contexts[i].state
  ∧ (s.dec.contexts[i].state ≠ .running → t.dec.contexts[i] = s.dec.contexts[i])

theorem State.keepsStates.of_eq (same : t.dec.contexts = s.dec.contexts) : s.keepsStates t := fun i => by
  rw [same]
  exact ⟨rfl, fun _ => rfl⟩

theorem State.keepsStates.trans (h : s.keepsStates t) (g : t.keepsStates u) : s.keepsStates u := fun i =>
  ⟨(g i).1.trans (h i).1, fun other => ((g i).2 (by rw [(h i).1]; exact other)).trans ((h i).2 other)⟩

theorem Emitted.add_state (o : Emitted) (e : Emission) : (o.add e).context.state = o.context.state := by
  cases e with
  | record r =>
    show (Context.count _ _).1.state = _
    cases error : (o.context.mark r).isError with
    | true => rw [Context.count_error _ error]
    | false => rw [Context.count_good _ error]
  | suppressed | lockChange => rfl

theorem foldl_add_state (out : List Emission) (o : Emitted) : (out.foldl Emitted.add o).context.state = o.context.state := by
  induction out generalizing o with
  | nil => rfl
  | cons e out ih => exact (ih (o.add e)).trans (o.add_state e)

theorem Context.engineSample_state (c : Context) (d : Dec) (i : CtxId) (x : Reading) :
    (c.engineSample d i x).1.state = c.state := by
  unfold Context.engineSample
  split <;> rfl

theorem Context.read_state (c : Context) (d : Dec) (i : CtxId) (x : Conditioned) (step : Nat) :
    (c.read d i x step).context.state = c.state := by
  unfold Context.read
  split
  · exact (foldl_add_state _ _).trans (c.engineSample_state d i _)
  · rfl

theorem Context.read_of_not_running {c : Context} (other : c.state ≠ .running) (d : Dec) (i : CtxId) (x : Conditioned)
    (step : Nat) : c.read d i x step = { context := c } := if_neg other

theorem decodeSample_keepsStates (s : State) (x : Conditioned) (step : Nat) : s.keepsStates (s.decodeSample x step) := by
  intro i
  have given : (s.decodeSample x step).dec.contexts[i] = (s.dec.contexts[i].read s.dec i x step).context := by
    rw [decodeSample_eq]
    exact Vector.getElem_ofFn _
  rw [given]
  refine ⟨Context.read_state _ _ _ _ _, fun other => ?_⟩
  rw [Context.read_of_not_running other]

theorem takeConditioned_keepsStates (w : State) (x : Pfe × Conditioned) (step : Nat) :
    w.keepsStates ((w.setPfe x.1).takeConditioned x.2 step) := by
  have monitored : w.keepsStates (w.monitoredSample x) := .of_eq (by rw [monitoredSample_eq])
  have decoded : w.keepsStates (w.decodedSample x step) := monitored.trans (decodeSample_keepsStates _ x.2 step)
  intro i
  rw [takeConditioned_dec]
  exact decoded i

theorem formNext_keepsStates (s : State) (newest : Nat) : s.keepsStates (s.formNext newest) := by
  cases run : s.pfe.run with
  | none =>
    unfold State.formNext
    rw [run]
    exact .of_eq rfl
  | some r =>
    rw [formNext_eq run]
    exact takeConditioned_keepsStates s _ _

theorem flushStep_keepsStates (s : State) (step : Nat) : s.keepsStates (s.flushStep step) := by
  have filtered : s.keepsStates s.filtersOn := .of_eq rfl
  unfold State.flushStep
  split
  · exact filtered.trans (formNext_keepsStates _ _)
  · exact filtered

theorem flushed_keepsStates (s : State) (first n : Nat) : s.keepsStates (State.flushed first s n) := by
  induction n with
  | zero => exact .of_eq rfl
  | succ n ih => exact ih.trans (flushStep_keepsStates _ _)

theorem endRun_keepsStates (s : State) : s.keepsStates s.endRun := by
  obtain run | ⟨r, run⟩ := Option.eq_none_or_eq_some s.pfe.run
  · rw [endRun_of_none run]
    exact .of_eq rfl
  · have discarded : s.keepsStates (s.setPfe s.pfe.discardOpenRuns) := .of_eq rfl
    unfold State.endRun
    rw [run]
    dsimp only
    split
    · exact discarded.trans (.of_eq rfl)
    · rw [flushSteps_eq]
      exact (discarded.trans (flushed_keepsStates _ _ _)).trans (.of_eq rfl)

theorem endRun_run (s : State) : s.endRun.pfe.run = none := by
  unfold State.endRun
  split
  · assumption
  · rfl

/-! ## SET_LEVEL -/

theorem levelOf_of_le {b : Byte} (big : 3 ≤ b.toNat) : levelOf b = none := by
  unfold levelOf
  split
  · omega
  · omega
  · omega
  · rfl

theorem levelOf_level {b : Byte} {l : Level} (named : b.toNat = levelByte l) : levelOf b = some l := by
  unfold levelOf
  rw [named]
  cases l <;> rfl

theorem destination_eq {l : Lvl} {destination : Level}
    (heads : l.transition = .switching destination ∨ (l.transition = .steady ∧ l.level = destination)) :
    l.destination = destination := by
  unfold Lvl.destination
  obtain moving | ⟨steady, rests⟩ := heads
  · rw [moving]
  · rw [steady]
    exact rests

/-- SET_LEVEL is taken at every level (R19). -/
theorem exec_setLevel {b : Byte} {st : Status} (h : s.takesRequests) (gives : bodySetLevel b s = (u, .only st)) :
    exec (.setLevel .enough b) s = .next (u.answered st) := by
  rw [exec_eq_after, after_setLevel, request_enough h true (.inl rfl), gives]
  rfl

theorem bodySetLevel_of_none {b : Byte} (none_ : levelOf b = none) : bodySetLevel b s = (s, .only .badParam) := by
  unfold bodySetLevel
  rw [none_]

section Named

variable {b : Byte} {l : Level} (named : levelOf b = some l)

include named

theorem bodySetLevel_same (same : l = s.lvl.destination) :
    bodySetLevel b s = ({ s with lvl := { s.lvl with request := none } }, .only .ok) := by
  unfold bodySetLevel
  rw [named]
  dsimp only
  rw [if_pos same]
  rfl

theorem bodySetLevel_waits (other : l ≠ s.lvl.destination) (waits : (∃ i, s.captures i) ∨ s.switches) :
    bodySetLevel b s = ({ s with lvl := { s.lvl with request := some l } }, .only .accepted) := by
  unfold bodySetLevel
  rw [named]
  dsimp only
  rw [if_neg other, if_pos (waits.imp (capturing?_isSome s).mpr (isSwitching_iff s).mpr)]
  rfl

theorem bodySetLevel_free (other : l ≠ s.lvl.destination) (free : s.noCapture) (steady : ¬ s.switches) :
    bodySetLevel b s = if s.cal.isActive then (s, .only .busy) else (s.beginTransition l, .only .accepted) := by
  have noWait : ¬ (s.capturing?.isSome = true ∨ s.lvl.isSwitching = true) := fun waits =>
    waits.elim (fun captures => ((capturing?_isSome s).mp captures).elim free) fun h => steady ((isSwitching_iff s).mp h)
  unfold bodySetLevel
  rw [named]
  dsimp only
  rw [if_neg other, if_neg noWait]

end Named

theorem beginTransition_lvl (s : State) (target : Level) :
    (s.beginTransition target).lvl = { s.lvl with transition := .switching target } := by
  obtain ⟨v, rfl, state, -, -⟩ := beginTransition_takes s target
  rw [state, (State.endRun_frame _).1]

theorem beginTransition_run (s : State) (target : Level) : (s.beginTransition target).pfe.run = none := by
  obtain ⟨v, rfl, state, -, -⟩ := beginTransition_takes s target
  rw [state]
  exact endRun_run _

/-- Settles O24: the cases of SET_LEVEL in their order; the last one ends the run and begins the transition. -/
theorem setLevelFollowsItsCases : Obligations.SetLevelFollowsItsCases := by
  intro s b takes
  refine ⟨fun big => exec_setLevel takes (bodySetLevel_of_none (levelOf_of_le big)), fun l destination named heads => ?_⟩
  have named := levelOf_level named
  obtain rfl := destination_eq heads
  refine ⟨fun same => exec_setLevel takes (bodySetLevel_same named same),
    fun other waits => exec_setLevel takes (bodySetLevel_waits named other waits), fun other free steady active => ?_,
    fun other free steady idle => ?_⟩
  · refine exec_setLevel takes ((bodySetLevel_free named other free steady).trans (if_pos ?_))
    exact (isActive_iff s).mpr active
  · have gives := (bodySetLevel_free named other free steady).trans (if_neg (mt (isActive_iff s).mp idle))
    obtain ⟨v, ended, state, quiet, gap⟩ := beginTransition_takes s l
    have frame := State.beginTransition_frame s l
    have lvl := beginTransition_lvl s l
    have run := beginTransition_run s l
    have states := endRun_keepsStates { s with lvl := { s.lvl with transition := .switching l } }
    have ends := endRun_endsRun { s with lvl := { s.lvl with transition := .switching l } }
    have rested := endRun_of_none (s := { s with lvl := { s.lvl with transition := .switching l } })
    rw [← ended] at states ends rested
    refine ⟨_, exec_setLevel takes gives, lvl, rfl, rfl, run, ?_⟩
    clear takes gives ended
    generalize s.beginTransition l = t at *
    obtain ⟨cal, dsp, -, -, -, -, -, dram, -, -, -, -, -, -, -, -, -, -, -, thresholds, full, economy, active, -⟩ := frame
    refine ⟨active, thresholds, full, economy, cal, dsp, dram, fun resting => ?_, fun sampling => ⟨(gap sampling).1, ?_⟩,
      fun none_ => ?_, v, ?_, ?_, fun sampling i => ⟨fun running => ?_, fun other => ?_⟩⟩
    · rw [state]
      exact if_pos resting
    · intro i running
      have running : v.dec.contexts[i].state = .running := (states i).1.trans running
      show t.dec.contexts[i].state = .running ∧ t.dec.contexts[i].afterGap = true
      rw [(gap sampling).2 i]
      exact Context.gapBegin_running running
    · have v' := rested none_
      rw [v'] at state quiet
      have pfe : t.pfe = s.pfe := by rw [state]
      have trg : t.trg = s.trg := by rw [state]
      have cap : t.cap = { s.cap with port := if s.lvl.level = .standby then .normal else s.cap.port } := by rw [state]
      exact ⟨pfe, quiet none_, trg, cap⟩
    · rw [← lvl] at ends
      exact ends
    · exact congrArg (State.answered · .accepted) state
    · rw [show (t.answered .accepted).dec = t.dec from rfl, (gap sampling).2 i]
      exact Context.gapBegin_takesGap _ running
    · rw [show (t.answered .accepted).dec = t.dec from rfl, (gap sampling).2 i, Context.gapBegin_of_not_running other]

end Sys2Proof.Machine
end

section
/-! PROOFS. One raw sample (R2, R3, R13, R14, R20), and what SAMPLE_STEP makes of the state (O21). -/

namespace Sys2Proof.Machine

variable {s t u w : State} {r : Run} {probes : Vector Int 32}

/-! ## The comparators and filters (R1, R3, R7) -/

/-- R1: the line value of a channel. -/
def Pfe.rawLine (p : Pfe) (probes : Vector Int 32) (c : Chan) : Bool := inSet (p.rawLines probes) c.val

theorem rawLine_iff (p : Pfe) (probes : Vector Int 32) (c : Chan) : p.rawLine probes c = true
    ↔ (20000 : Int) * (p.thresholds[podOf c]).toNat < probes[c] := by
  unfold Pfe.rawLine Pfe.rawLines inSet
  rw [setOf_getLsbD, decide_eq_true_iff]

/-- R3: a channel's filter at the sample of raw step `n`, not the first of its run. -/
def Pfe.filtered (p : Pfe) (probes : Vector Int 32) (n : Nat) (c : Chan) : GlitchFilter × Bool :=
  p.filters[c].sample p.inUse.widths[podOf c] n (p.rawLine probes c)

/-- R3: the sample of raw step `n` ends a suppressed pulse of a channel. -/
def Pfe.suppresses (p : Pfe) (probes : Vector Int 32) (n : Nat) (c : Chan) : Bool :=
  n != 0 && (p.filtered probes n c).2

theorem filterStep_fst (p : Pfe) (n : Nat) (raw : Lines) :
    (p.filterStep n raw).1 = { p with filters := (p.filterStep n raw).1.filters } := by
  unfold Pfe.filterStep
  split <;> rfl

theorem filterStep_filters (p : Pfe) (probes : Vector Int 32) (n : Nat) (c : Chan) :
    (p.filterStep n (p.rawLines probes)).1.filters[c]
      = if n = 0 then .begin (p.rawLine probes c) else (p.filtered probes n c).1 := by
  unfold Pfe.filterStep
  split
  · exact Vector.getElem_ofFn _
  · dsimp only
    rw [map_get, mapIds_get]
    rfl

theorem filterStep_suppresses (p : Pfe) (probes : Vector Int 32) (n : Nat) (c : Chan) :
    inSet (p.filterStep n (p.rawLines probes)).2 c.val = p.suppresses probes n c := by
  unfold Pfe.filterStep Pfe.suppresses
  split
  · rename_i first
    rw [first]
    exact BitVec.getLsbD_zero
  · rename_i later
    dsimp only
    rw [inSet_setOf, mapIds_get, bne_iff_ne.mpr later, Bool.true_and]
    rfl

/-! ## The glitch counters (R13, R14) -/

/-- R13, R14: a monitor whose channel suppressed a pulse. -/
def Monitor.counted (m : Monitor) (threshold : Nat) : Monitor :=
  { m with glitches := min (m.glitches + 1) 65535, armed := decide (min (m.glitches + 1) 65535 < threshold) }

/-- R14: the pulse takes an armed counter to its threshold. -/
def Monitor.reaches (m : Monitor) (threshold : Nat) : Bool :=
  m.armed && decide (threshold ≤ min (m.glitches + 1) 65535)

theorem Monitor.bumped_checkGlitch (m : Monitor) (threshold : Nat) :
    { m with glitches := bump 65535 m.glitches }.checkGlitch threshold = (m.counted threshold, m.reaches threshold) :=
  Monitor.checkGlitch_eq _ _

/-- R14: the sample of raw step `n` raises GLITCH_THRESHOLD for a channel. -/
def State.glitchDue (s : State) (suppressed : Lines) (c : Chan) : Bool :=
  inSet suppressed c.val && s.pfe.monitors[c].reaches s.pfe.glitchThreshold

theorem countGlitches_eq (s : State) (suppressed : Lines) : s.countGlitches suppressed = { s with
    pfe := { s.pfe with monitors := (s.countGlitches suppressed).pfe.monitors }
    cmd := { s.cmd with
      pending := raisedBy s.cmd.pending 9 (setOf (s.glitchDue suppressed))
      glitch := s.cmd.glitch ||| setOf (s.glitchDue suppressed) } } := by
  unfold State.countGlitches
  extract_lets out
  have due : (fun c : Chan => out[c].2) = s.glitchDue suppressed := by
    funext c
    dsimp only [out]
    rw [mapIds_get]
    unfold State.glitchDue
    split
    · rename_i here
      rw [here, Monitor.bumped_checkGlitch, Bool.true_and]
    · rename_i here
      rw [Bool.eq_false_iff.mpr here, Bool.false_and]
  rw [due, State.raiseGlitch_eq]
  rfl

theorem countGlitches_monitors (s : State) (suppressed : Lines) (c : Chan) :
    (s.countGlitches suppressed).pfe.monitors[c] = if inSet suppressed c.val then
      s.pfe.monitors[c].counted s.pfe.glitchThreshold else s.pfe.monitors[c] := by
  unfold State.countGlitches
  extract_lets out
  rw [State.raiseGlitch_eq]
  show (out.map (·.1))[c] = _
  rw [map_get]
  dsimp only [out]
  rw [mapIds_get]
  split
  · rw [Monitor.bumped_checkGlitch]
  · rfl

/-! ## The raw sample -/

theorem calSample_eq (s : State) (n : Nat) : s.calSample n = { s with cal := (s.calSample n).cal } := by
  unfold State.calSample
  split <;> rfl

theorem calSample_cal (s : State) (n : Nat) : (s.calSample n).cal
    = if s.cal.isActive then s.cal.countStep.compare s.pfe.filters n else s.cal := by
  unfold State.calSample
  split <;> rfl

/-- R2, R3, R13, R14, R20, R33: what a raw sample makes of a state. -/
structure RawSample (s : State) (r : Run) (probes : Vector Int 32) (w : State) : Prop where
  state : w = { s with pfe := w.pfe, lvl := s.lvl.advance r.step, cal := w.cal, cmd := w.cmd }
  pfe : w.pfe = { s.pfe with
    filters := w.pfe.filters, monitors := w.pfe.monitors, run := some { r with taken := r.taken + 1 } }
  filters (c : Chan) : w.pfe.filters[c] = if r.taken = 0 then .begin (s.pfe.rawLine probes c)
    else (s.pfe.filtered probes r.taken c).1
  monitors (c : Chan) : w.pfe.monitors[c] = if s.pfe.suppresses probes r.taken c then
    s.pfe.monitors[c].counted s.pfe.glitchThreshold else s.pfe.monitors[c]
  cal : w.cal = if s.cal.isActive then s.cal.countStep.compare w.pfe.filters r.taken else s.cal
  cmd : w.cmd = { s.cmd with
    pending := raisedBy s.cmd.pending 9
      (setOf fun c => s.pfe.suppresses probes r.taken c && s.pfe.monitors[c].reaches s.pfe.glitchThreshold)
    glitch := s.cmd.glitch
      ||| setOf fun c => s.pfe.suppresses probes r.taken c && s.pfe.monitors[c].reaches s.pfe.glitchThreshold }

theorem rawSample_spec (s : State) (r : Run) (probes : Vector Int 32) : RawSample s r probes (s.rawSample r probes) := by
  have filters := filterStep_filters s.pfe probes r.taken
  have suppresses := filterStep_suppresses s.pfe probes r.taken
  have fst := filterStep_fst s.pfe r.taken (s.pfe.rawLines probes)
  unfold State.rawSample
  dsimp only
  generalize s.pfe.filterStep r.taken (s.pfe.rawLines probes) = out at *
  obtain ⟨p, suppressed⟩ := out
  dsimp only at *
  generalize before : ((s.setPfe { p with run := some { r with taken := r.taken + 1 } }).setLvl
    ((s.setPfe { p with run := some { r with taken := r.taken + 1 } }).lvl.advance r.step)) = v
  have counted := countGlitches_eq v suppressed
  have monitors := countGlitches_monitors v suppressed
  have due : v.glitchDue suppressed
      = fun c => s.pfe.suppresses probes r.taken c && s.pfe.monitors[c].reaches s.pfe.glitchThreshold := by
    funext c
    unfold State.glitchDue
    rw [suppresses, ← before, fst]
    rfl
  rw [due] at counted
  generalize v.countGlitches suppressed = x at *
  have cal := calSample_eq x r.taken
  have given := calSample_cal x r.taken
  generalize x.calSample r.taken = w at *
  have pfe : w.pfe = x.pfe := by rw [cal]
  have cmd : w.cmd = x.cmd := by rw [cal]
  rw [← before] at counted monitors
  refine ⟨?_, ?_, fun c => ?_, fun c => ?_, ?_, ?_⟩
  · rw [cal, counted]
    rfl
  · rw [pfe, counted, fst]
    rfl
  · rw [pfe, counted]
    exact filters c
  · rw [pfe, monitors, suppresses, fst]
    rfl
  · rw [given, pfe, counted]
    rfl
  · rw [cmd, counted]
    rfl

/-! ## What is due before the sample -/

theorem Cal.isComplete_iff (c : Cal) : c.isComplete = true ↔ c.state = .measuring ∧ ∀ ch : Chan, 17422 < c.compared[ch] := by
  unfold Cal.isComplete
  rw [Bool.and_eq_true, beq_iff_eq, Vector.all_eq_true]
  refine and_congr_right fun _ => ⟨fun all ch => of_decide_eq_true (all ch.val ch.isLt), fun all k below => ?_⟩
  exact decide_eq_true (all ⟨k, below⟩)

theorem completeIfDue_of_open (open_ : s.cal.state = .measuring → ∃ c : Chan, s.cal.compared[c] ≤ 17422) :
    s.completeIfDue = s := by
  refine if_neg fun complete => ?_
  obtain ⟨measuring, all⟩ := (Cal.isComplete_iff _).mp complete
  obtain ⟨c, short⟩ := open_ measuring
  exact absurd (all c) (Nat.not_lt.mpr short)

theorem exhaustIfDue_of_not (not_ : s.lvl.exhausted = false) : s.exhaustIfDue = s :=
  if_neg fun due => by rw [not_] at due; cases due.1

theorem exhaustIfDue_of_none (none_ : s.pfe.run = none) : s.exhaustIfDue = s :=
  if_neg fun due => by rw [none_] at due; cases due.2

/-- A sample of the run, ahead of what it may release (R25). -/
def State.sampled (s : State) (r : Run) (probes : Vector Int 32) : State :=
  if 24 ≤ r.taken then (s.rawSample r probes).formNext r.taken else s.rawSample r probes

theorem exec_sampleStep (run : s.pfe.run = some r) (not_ : s.lvl.exhausted = false)
    (open_ : s.cal.state = .measuring → ∃ c : Chan, s.cal.compared[c] ≤ 17422) :
    exec (.sampleStep probes) s = .next (s.sampled r probes).endOfCapture := by
  rw [exec_eq_after, after_sampleStep, completeIfDue_of_open open_, exhaustIfDue_of_not not_, run]
  rfl

theorem exec_sampleStep_none (none_ : s.pfe.run = none)
    (open_ : s.cal.state = .measuring → ∃ c : Chan, s.cal.compared[c] ≤ 17422) :
    exec (.sampleStep probes) s = .next s := by
  rw [exec_eq_after, after_sampleStep, completeIfDue_of_open open_, exhaustIfDue_of_none none_, none_]

/-! ## The conditioned sample that it completes -/

theorem takeConditioned_glitch (w : State) (x : Pfe × Conditioned) (step : Nat) :
    ((w.setPfe x.1).takeConditioned x.2 step).cmd.glitch = w.cmd.glitch
      ∧ ∀ k, k = 9 → ((w.setPfe x.1).takeConditioned x.2 step).cmd.pending.getLsbD k = w.cmd.pending.getLsbD k := by
  have details := takeConditioned_details w x step
  generalize (w.setPfe x.1).takeConditioned x.2 step = t at *
  obtain ⟨cmd, pending⟩ := details
  unfold State.decodedSample at cmd pending
  rw [decodeSample_eq, monitoredSample_eq] at cmd pending
  refine ⟨by rw [cmd], fun k nine => ?_⟩
  rw [pending k (by omega) (by omega)]
  dsimp only
  rw [raisedBy_other _ _ (by omega), raisedBy_other _ _ (by omega), raisedBy_other _ _ (by omega)]

theorem formNext_glitch (s : State) (newest : Nat) : (s.formNext newest).cmd.glitch = s.cmd.glitch
    ∧ ∀ k, k = 9 → (s.formNext newest).cmd.pending.getLsbD k = s.cmd.pending.getLsbD k := by
  cases run : s.pfe.run with
  | none =>
    unfold State.formNext
    rw [run]
    exact ⟨rfl, fun _ _ => rfl⟩
  | some r =>
    rw [formNext_eq run]
    exact takeConditioned_glitch s _ _

/-- R5 to R8: the conditioned sample that a raw sample completes. -/
theorem RawSample.takesConditioned {m : Chan → Monitor} (raw : RawSample s r probes w) (monitors : ∀ c : Chan, w.pfe.monitors[c] = m c) :
    s.takesConditioned r r.taken m (w.formNext r.taken) := by
  have pfe := raw.pfe
  have cmd := raw.cmd
  have activity (c : Chan) : (m c).activity = s.pfe.monitors[c].activity := by
    rw [← monitors c, raw.monitors]
    split <;> rfl
  have run : w.pfe.run = some { r with taken := r.taken + 1 } := by rw [pfe]
  have state := raw.state
  refine takesConditioned_formNext m run rfl rfl rfl (by rw [pfe]) (by rw [pfe]) ?_ (by rw [pfe]) (by rw [pfe]) monitors
    activity (by rw [state]) (by rw [state]) (by rw [state]) (by rw [cmd]) (by rw [cmd]) ?_ ?_
  · rw [pfe]
    rfl
  · rw [cmd]
    exact raisedBy_other _ _ (by decide)
  · rw [cmd]
    exact raisedBy_other _ _ (by decide)

end Sys2Proof.Machine
end

section
/-! PROOFS. SAMPLE_STEP takes one sample (O21). -/

namespace Sys2Proof.Machine

variable {s t u w : State} {r : Run} {probes : Vector Int 32}

/-! ## What a context gives at a sample (R83) -/

/-- R83: a RUNNING context reads a sample with the engine of its protocol, `d` left of the context and `out` emitted. -/
theorem Context.read_running {c d : Context} {dec : Dec} {id : CtxId} {x : Conditioned} {step : Nat} {out : List Emission}
    (running : c.state = .running)
    (gives : c.engineSample dec id ⟨x.stamp, step, x.lines, x.changed, c.fresh⟩ = (d, out)) :
    c.read dec id x step = d.emit out := by
  unfold Context.read
  rw [if_pos running, gives]

theorem Context.read_idle {c : Context} {dec : Dec} {id : CtxId} {x : Conditioned} {step : Nat}
    (idle : c.state ≠ .running ∨ c.protocol = none) : c.read dec id x step = { context := c } := by
  obtain other | none_ := idle
  · exact Context.read_of_not_running other dec id x step
  · by_cases running : c.state = .running
    · refine Context.read_running running (d := c) (out := []) ?_
      unfold Context.engineSample
      rw [none_]
    · exact Context.read_of_not_running running dec id x step

section Engines

variable {c : Context} {dec : Dec} {id : CtxId} {y : Reading} {out : List Emission}

theorem Context.engineSample_async {e : AsyncEngine} (protocol : c.protocol = some .async)
    (gives : c.asyncEngine.sample c.asyncSettings c.lanes id dec.level y = (e, out)) :
    c.engineSample dec id y = ({ c with asyncEngine := e, fresh := false }, out) := by
  unfold Context.engineSample
  rw [protocol]
  dsimp only
  rw [gives]

theorem Context.engineSample_clocked {e : ClockedEngine} (protocol : c.protocol = some .clocked)
    (gives : c.clockedEngine.sample c.clockedSettings c.lanes id y = (e, out)) :
    c.engineSample dec id y = ({ c with clockedEngine := e, fresh := false }, out) := by
  unfold Context.engineSample
  rw [protocol]
  dsimp only
  rw [gives]

theorem Context.engineSample_flash {e : FlashEngine} (protocol : c.protocol = some .flash)
    (gives : c.flashEngine.sample c.flashSettings c.lanes (match c.flashSettings.set with
      | .a => dec.setA
      | .b => dec.setB) id y = (e, out)) :
    c.engineSample dec id y = ({ c with flashEngine := e, fresh := false }, out) := by
  have named : dec.namedSet c.flashSettings.set = (match c.flashSettings.set with
      | .a => dec.setA
      | .b => dec.setB) := by
    unfold Dec.namedSet
    cases c.flashSettings.set <;> rfl
  unfold Context.engineSample
  rw [protocol]
  dsimp only
  rw [named, gives]

theorem Context.engineSample_twoWire {e : TwoWireEngine} (protocol : c.protocol = some .twoWire)
    (gives : c.twoWireEngine.sample c.twoWireSettings c.lanes id y = (e, out)) :
    c.engineSample dec id y = ({ c with twoWireEngine := e, fresh := false }, out) := by
  unfold Context.engineSample
  rw [protocol]
  dsimp only
  rw [gives]

end Engines

/-! ## The sample -/

theorem endOfCapture_of_waits (waits : s.lvl.request = none ∨ s.switches ∨ ¬ s.noCapture) : s.endOfCapture = s := by
  unfold State.endOfCapture
  split
  · rename_i ended
    obtain request | switches | captures := waits
    · unfold State.releaseRequest
      rw [request]
    · rw [(isSwitching_iff s).mpr switches] at ended
      cases ended.2
    · exact absurd ((capturing?_isNone s).mp ended.1) captures
  · rfl

theorem advance_of_le {l : Lvl} {step : Nat} (fits : l.count + step ≤ 2 ^ 48 - 1) :
    l.advance step = { l with count := l.count + step } := by
  refine if_neg ?_
  show ¬ 2 ^ 48 - 1 < _
  omega

section Sampled

variable (s r probes)

theorem sampled_lvl : (s.sampled r probes).lvl = s.lvl.advance r.step := by
  have raw := (rawSample_spec s r probes).state
  unfold State.sampled
  split
  · rw [(State.formNext_frame _ _).1, raw]
  · rw [raw]

theorem sampled_filters : (s.sampled r probes).pfe.filters = (s.rawSample r probes).pfe.filters := by
  unfold State.sampled
  split
  · simp
  · rfl

theorem sampled_run : (s.sampled r probes).pfe.run
    = some { r with taken := r.taken + 1, formed := if 24 ≤ r.taken then r.formed + 1 else r.formed } := by
  have raw := congrArg Pfe.run (rawSample_spec s r probes).pfe
  unfold State.sampled
  split
  · rw [formNext_pfe raw]
  · exact raw

theorem sampled_glitch : (s.sampled r probes).cmd.glitch = (s.rawSample r probes).cmd.glitch
    ∧ (s.sampled r probes).cmd.pending.getLsbD 9 = (s.rawSample r probes).cmd.pending.getLsbD 9 := by
  unfold State.sampled
  split
  · obtain ⟨glitch, pending⟩ := formNext_glitch (s.rawSample r probes) r.taken
    exact ⟨glitch, pending 9 rfl⟩
  · exact ⟨rfl, rfl⟩

theorem sampleStep_takes (run : s.pfe.run = some r) (not_ : s.lvl.exhausted = false)
    (open_ : s.cal.state = .measuring → ∃ c : Chan, s.cal.compared[c] ≤ 17422) (fits : s.lvl.count + r.step ≤ 2 ^ 48 - 1)
    {raw : Chan → Bool} {ends : Chan → Prop} (isRaw : ∀ c, raw c = s.pfe.rawLine probes c)
    (isEnds : ∀ c, ends c ↔ s.pfe.suppresses probes r.taken c = true) :
    ∃ u t, exec (.sampleStep probes) s = .next t
      ∧ (s.lvl.request = none ∨ s.switches ∨ ¬ u.noCapture → t = u)
      ∧ (∀ target, s.lvl.request = some target → ¬ s.switches → u.noCapture → u.beginsTransition target t)
      ∧ u.lvl = { s.lvl with count := s.lvl.count + r.step }
      ∧ u.pfe.run = some { r with taken := r.taken + 1, formed := if 24 ≤ r.taken then r.formed + 1 else r.formed }
      ∧ (r.taken = 0 → ∀ c : Chan, u.pfe.filters[c].openRun = none ∧ u.pfe.filters[c].accepted = raw c)
      ∧ (r.taken ≠ 0 → ∀ c : Chan, u.pfe.filters[c]
          = (s.pfe.filters[c].sample (s.pfe.inUse.widths[c.val / 8]'(by omega)) r.taken (raw c)).1)
      ∧ (∀ c : Chan, ends c → s.pfe.monitors[c].armed = true →
          s.pfe.glitchThreshold ≤ min (s.pfe.monitors[c].glitches + 1) 65535 →
          u.cmd.pending.getLsbD 9 = true ∧ u.cmd.glitch.getLsbD c.val = true)
      ∧ (r.taken < 24 → u.pfe.lines = s.pfe.lines ∧ u.pfe.stamp = s.pfe.stamp ∧ u.dec = s.dec ∧ u.cap = s.cap
          ∧ u.trg = s.trg
          ∧ ∀ c : Chan, (¬ ends c → u.pfe.monitors[c] = s.pfe.monitors[c])
            ∧ (ends c → u.pfe.monitors[c] = s.pfe.monitors[c].counted s.pfe.glitchThreshold))
      ∧ (24 ≤ r.taken → ∃ m : Chan → Monitor,
        (∀ c : Chan, (ends c → m c = s.pfe.monitors[c].counted s.pfe.glitchThreshold)
          ∧ (¬ ends c → m c = s.pfe.monitors[c]))
        ∧ s.takesConditioned r r.taken m u)
      ∧ t.pfe.thresholds = s.pfe.thresholds ∧ t.pfe.full = s.pfe.full ∧ t.pfe.economy = s.pfe.economy
      ∧ t.pfe.active = s.pfe.active ∧ t.cap.dram = s.cap.dram ∧ t.dec.queue = s.dec.queue ∧ t.dsp = s.dsp
      ∧ t.cal.results = s.cal.results ∧ t.trg.units = s.trg.units ∧ t.trg.branches = s.trg.branches := by
  have raws := rawSample_spec s r probes
  have lvl := (sampled_lvl s r probes).trans (advance_of_le fits)
  have filters := sampled_filters s r probes
  have glitch := sampled_glitch s r probes
  have monitor (c : Chan) : (¬ ends c → (s.rawSample r probes).pfe.monitors[c] = s.pfe.monitors[c])
      ∧ (ends c → (s.rawSample r probes).pfe.monitors[c] = s.pfe.monitors[c].counted s.pfe.glitchThreshold) := by
    rw [raws.monitors, isEnds]
    exact ⟨fun other => if_neg other, fun here => if_pos here⟩
  refine ⟨s.sampled r probes, _, exec_sampleStep run not_ open_, fun waits => ?_, fun target request steady free => ?_, lvl,
    sampled_run s r probes, fun first c => ?_, fun later c => ?_, fun c here armed reached => ?_, fun early => ?_, fun late => ?_, ?_⟩
  · refine endOfCapture_of_waits (waits.imp (fun none_ => ?_) (Or.imp_left fun switches => ?_))
    · rw [lvl]
      exact none_
    · unfold State.switches
      rw [lvl]
      exact switches
  · refine endOfCapture_begins ?_ ?_ free
    · rw [lvl]
      exact request
    · unfold State.switches
      rw [lvl]
      exact steady
  · rw [filters, raws.filters, if_pos first, isRaw]
    exact ⟨rfl, rfl⟩
  · rw [filters, raws.filters, if_neg later, isRaw]
    rfl
  · have due : (s.pfe.suppresses probes r.taken c && s.pfe.monitors[c].reaches s.pfe.glitchThreshold) = true := by
      unfold Monitor.reaches
      rw [(isEnds c).mp here, armed, decide_eq_true reached]
      rfl
    rw [glitch.1, glitch.2, raws.cmd]
    exact ⟨(raisedBy_setOf_iff (by decide) _).mpr (.inr ⟨rfl, c, due⟩), (detail_setOf_iff _ _ c).mpr (.inr due)⟩
  · have state := raws.state
    have pfe := raws.pfe
    rw [show s.sampled r probes = s.rawSample r probes from if_neg (Nat.not_le.mpr early)]
    generalize s.rawSample r probes = w at *
    exact ⟨by rw [pfe], by rw [pfe], by rw [state], by rw [state], by rw [state], monitor⟩
  · rw [show s.sampled r probes = (s.rawSample r probes).formNext r.taken from if_pos late]
    exact ⟨fun c => (s.rawSample r probes).pfe.monitors[c], fun c => (monitor c).symm, raws.takesConditioned fun _ => rfl⟩
  · have results : (s.rawSample r probes).cal.results = s.cal.results := by
      rw [raws.cal]
      unfold Cal.compare Cal.countStep
      split
      · split <;> split <;> rfl
      · rfl
    simp only [State.endOfCapture_frame]
    unfold State.sampled
    split
    · simp [results]
    · simp [results]

end Sampled

/-- Settles O21: a raw sample, the conditioned sample that it completes, and the engine of each protocol at one. -/
theorem sampleStepTakesOneSample : Obligations.SampleStepTakesOneSample := by
  refine ⟨fun s probes r raw ends run not_ open_ fits isRaw isEnds => ?_,
    fun s probes none_ open_ => exec_sampleStep_none none_ open_, fun c d id x step y isReading => ?_, fun c => ?_⟩
  · have isRaw (c : Chan) : raw c = s.pfe.rawLine probes c :=
      Bool.eq_iff_iff.mpr ((isRaw c).trans (rawLine_iff s.pfe probes c).symm)
    refine sampleStep_takes s r probes run not_ open_ fits isRaw fun c => ?_
    rw [isEnds c, isRaw c]
    unfold Pfe.suppresses
    rw [Bool.and_eq_true, bne_iff_ne]
    exact Iff.rfl
  · subst isReading
    refine ⟨Context.read_idle, fun running => ⟨fun e out protocol gives => ?_, fun e out protocol gives => ?_,
      fun e out protocol gives => ?_, fun e out protocol gives => ?_⟩⟩
    · exact Context.read_running running (Context.engineSample_async protocol gives)
    · exact Context.read_running running (Context.engineSample_clocked protocol gives)
    · exact Context.read_running running (Context.engineSample_flash protocol gives)
    · exact Context.read_running running (Context.engineSample_twoWire protocol gives)
  · refine ⟨rfl, fun out e => ?_⟩
    rw [Context.emit_append]
    exact Emitted.add_takes _ e

end Sys2Proof.Machine
end

section
/-! PROOFS. Seals of a segment that no retire waits for (R70, R71), and commands under which no capture begins. -/

namespace Sys2Proof.Machine

variable {s t u : State} {i : SegId}

/-! ## A seal (R54, R70, R71) -/

/-- R54: the encoder is DROPPING. -/
def EncoderState.isDropping : EncoderState → Bool
  | .dropping _ => true
  | .idle | .encoding _ => false

/-- R70, R71: a capturing segment that is sealed. -/
def Segment.sealedBy (g : Segment) (encoder : EncoderState) (reason : SealReason) (drains : Bool) : Segment :=
  { g with
    state := .sealed, sealReason := some reason, drainPending := drains
    dropouts := if encoder.isDropping then bump32 g.dropouts else g.dropouts }

theorem stopEncoder_eq (s : State) (i : SegId) : s.stopEncoder i = { s with
    cap := { s.cap with
      encoder := { s.cap.encoder with state := .idle }
      segments := s.cap.segments.set i { s.cap.segments[i] with
        dropouts := if s.cap.encoder.state.isDropping then bump32 s.cap.segments[i].dropouts
          else s.cap.segments[i].dropouts } } } := by
  unfold State.stopEncoder EncoderState.isDropping
  cases s.cap.encoder.state <;> rfl

theorem set_set_get {α : Type} {n : Nat} (v : Vector α n) (i : Fin n) (a : α) : (v.set i a)[i] = a := by
  rw [Fin.getElem_fin, Vector.getElem_set_self]

theorem sealing_eq (s : State) (i : SegId) (reason : SealReason) : s.sealing i reason = { s with
    trg := s.trg.halt
    cap := { s.cap with
      encoder := { s.cap.encoder with state := .idle }
      segments := s.cap.segments.set i
        (s.cap.segments[i].sealedBy s.cap.encoder.state reason s.cap.segments[i].drainPending) } } := by
  unfold State.sealing
  rw [stopEncoder_eq]
  unfold State.setSegment State.segment
  dsimp only [State.setCap, State.setTrg]
  rw [Vector.set_set, set_set_get]
  rfl

theorem completeSeal_of_live (live : s.cap.segments[i].retirePending = false) : s.completeSeal i = { s with
    cap := { s.cap with segments := s.cap.segments.set i { s.cap.segments[i] with drainPending := false } }
    cmd := { s.cmd with pending := s.cmd.pending ||| BitVec.twoPow 14 0 } } := by
  unfold State.completeSeal
  extract_lets _ t
  rw [if_neg]
  · rfl
  · show ¬ (s.cap.segments.set i { s.cap.segments[i] with drainPending := false })[i].retirePending = true
    rw [set_set_get, live]
    decide

/-- R70, R71: a seal of a segment that no retire waits for. -/
theorem sealSegment_of_live (reason : SealReason) (live : s.cap.segments[i].retirePending = false) :
    s.sealSegment i reason = { s with
      trg := s.trg.halt
      cap := { s.cap with
        encoder := { s.cap.encoder with state := .idle }
        segments := s.cap.segments.set i (s.cap.segments[i].sealedBy s.cap.encoder.state reason
          (decide (s.cap.staged ≠ [] ∨ s.cap.stagedAnnotations ≠ []))) }
      cmd := { s.cmd with pending := if s.cap.staged = [] ∧ s.cap.stagedAnnotations = []
        then s.cmd.pending ||| BitVec.twoPow 14 0 else s.cmd.pending } } := by
  have drains : decide (s.cap.staged ≠ [] ∨ s.cap.stagedAnnotations ≠ [])
      = !decide (s.cap.staged = [] ∧ s.cap.stagedAnnotations = []) := by
    rw [← decide_not, decide_eq_decide, not_and_or]
  rw [sealSegment_eq, sealing_eq, drains]
  split
  · rename_i nothing
    rw [completeSeal_of_live]
    · dsimp only
      rw [Vector.set_set, set_set_get, decide_eq_true nothing]
      rfl
    · dsimp only
      rw [set_set_get]
      exact live
  · rename_i some_
    unfold State.setSegment State.segment
    dsimp only [State.setCap]
    rw [Vector.set_set, set_set_get, decide_eq_false some_]
    rfl

/-! ## No capture begins -/

/-- Every segment that captures after a change captures before it. -/
def State.beginsNone (s t : State) : Prop := ∀ j : SegId, t.captures j → s.captures j

theorem State.SameSegments.beginsNone (h : s.SameSegments t) : s.beginsNone t := fun j => (h.captures_iff j).mp

theorem State.beginsNone.trans (h : s.beginsNone t) (g : t.beginsNone u) : s.beginsNone u := fun j captures =>
  h j (g j captures)

theorem State.beginsNone.noCapture (h : s.beginsNone t) (none_ : s.noCapture) : t.noCapture := fun j captures =>
  none_ j (h j captures)

theorem State.beginsNone.of_eq (same : t.cap.segments = s.cap.segments) : s.beginsNone t :=
  (State.SameSegments.of_eq same).beginsNone

/-- A segment that leaves its state for one in which none captures. -/
theorem State.beginsNone.of_ended (others : ∀ j : SegId, j ≠ i → t.cap.segments[j] = s.cap.segments[j])
    (ended : ¬ t.captures i) : s.beginsNone t := fun j captures => by
  by_cases here : j = i
  · exact absurd (here ▸ captures) ended
  · unfold State.captures at *
    rwa [others j here] at captures

theorem completeSeal_beginsNone (s : State) (i : SegId) : s.beginsNone (s.completeSeal i) := fun j captures => by
  by_cases here : j = i
  · subst here
    obtain same | retiring | vacant := (completeSeal_get s j j).2.2
    · unfold State.captures at *
      rwa [same] at captures
    · exact absurd captures (not_captures_of_state retiring nofun nofun)
    · exact absurd captures (not_captures_of_state vacant nofun nofun)
  · unfold State.captures at *
    rwa [(completeSeal_get s i j).1 here] at captures

theorem sealing_beginsNone (s : State) (i : SegId) (reason : SealReason) : s.beginsNone (s.sealing i reason) :=
  .of_ended (sealing_segment s i reason).2 (not_captures_of_state (sealing_segment s i reason).1 nofun nofun)

theorem sealSegment_beginsNone (s : State) (i : SegId) (reason : SealReason) : s.beginsNone (s.sealSegment i reason) := by
  rw [sealSegment_eq]
  have sealing := sealing_beginsNone s i reason
  split
  · exact sealing.trans (completeSeal_beginsNone _ i)
  · refine sealing.trans fun j captures => ?_
    unfold State.captures at *
    rw [setSegment_get] at captures
    split at captures
    · rename_i here
      rw [here]
      exact captures
    · exact captures

/-- A sealed segment captures no more. -/
theorem sealSegment_ended (s : State) (i : SegId) (reason : SealReason) : ¬ (s.sealSegment i reason).captures i := by
  rw [sealSegment_eq]
  have ended := not_captures_of_state (sealing_segment s i reason).1 nofun nofun
  split
  · exact fun captures => ended (completeSeal_beginsNone _ i i captures)
  · refine not_captures_of_state (k := .sealed) ?_ nofun nofun
    rw [setSegment_get, if_pos rfl]
    exact (sealing_segment s i reason).1

theorem sealIfComplete_beginsNone (s : State) (i : SegId) : s.beginsNone (s.sealIfComplete i) := by
  unfold State.sealIfComplete
  extract_lets g
  split
  · exact sealSegment_beginsNone s i _
  · exact .of_eq rfl

theorem storeEntries_beginsNone (s : State) (i : SegId) (entries : List Entry) :
    s.beginsNone (s.storeEntries i entries).1 := by
  unfold State.storeEntries
  extract_lets g needsPage refusal
  cases refusal with
  | some reason => exact sealSegment_beginsNone s i reason
  | none => exact (placeEntries_spec i entries s).1.beginsNone

theorem encodeSample_beginsNone (s : State) (stamp : Nat) (lines : Lines) : s.beginsNone (s.encodeSample stamp lines) := by
  unfold State.encodeSample
  split
  case h_1 => exact .of_eq rfl
  case h_2 j encoding =>
    extract_lets g state d entries
    split
    · exact .of_eq rfl
    · split
      · exact .of_eq rfl
      · exact (storeEntries_beginsNone s j entries).trans (sealIfComplete_beginsNone _ j)
  case h_3 j dropping =>
    split
    · exact .of_eq rfl
    · extract_lets g d entries
      have stored := storeEntries_beginsNone s j entries
      split
      · rename_i t refused
        rwa [refused] at stored
      · rename_i t kept
        rw [kept] at stored
        extract_lets _ _ v _ x
        have resumed : s.beginsNone v := stored.trans (.of_eq rfl)
        have counted : v.SameSegments x := .setSegment rfl rfl
        exact (resumed.trans counted.beginsNone).trans (sealIfComplete_beginsNone x j)

theorem triggerSample_beginsNone (s : State) (stamp : Nat) (lines changed : Lines) (activity : List (Chan × Activity)) :
    s.beginsNone (s.triggerSample stamp lines changed activity) := .of_eq (by simp)

theorem takeConditioned_beginsNone (w : State) (x : Pfe × Conditioned) (step : Nat) :
    w.beginsNone ((w.setPfe x.1).takeConditioned x.2 step) := by
  have decoded : w.beginsNone (w.decodedSample x step) := .of_eq (by rw [decodedSample_cap])
  rw [takeConditioned_eq]
  exact (decoded.trans (triggerSample_beginsNone _ _ _ _ _)).trans (encodeSample_beginsNone _ _ _)

theorem formNext_beginsNone (s : State) (newest : Nat) : s.beginsNone (s.formNext newest) := by
  cases run : s.pfe.run with
  | none =>
    unfold State.formNext
    rw [run]
    exact .of_eq rfl
  | some r =>
    rw [formNext_eq run]
    exact takeConditioned_beginsNone s _ _

theorem flushed_beginsNone (s : State) (first n : Nat) : s.beginsNone (State.flushed first s n) := by
  induction n with
  | zero => exact .of_eq rfl
  | succ n ih =>
    refine ih.trans ?_
    have filtered : (State.flushed first s n).beginsNone (State.flushed first s n).filtersOn := .of_eq rfl
    show State.beginsNone _ (State.flushStep _ _)
    unfold State.flushStep
    split
    · exact filtered.trans (formNext_beginsNone _ _)
    · exact filtered

theorem endRun_beginsNone (s : State) : s.beginsNone s.endRun := by
  obtain run | ⟨r, run⟩ := Option.eq_none_or_eq_some s.pfe.run
  · rw [endRun_of_none run]
    exact .of_eq rfl
  · have discarded : s.beginsNone (s.setPfe s.pfe.discardOpenRuns) := .of_eq rfl
    unfold State.endRun
    rw [run]
    dsimp only
    split
    · exact discarded.trans (.of_eq rfl)
    · rw [flushSteps_eq]
      exact (discarded.trans (flushed_beginsNone _ _ _)).trans (.of_eq rfl)

theorem beginTransition_beginsNone (s : State) (target : Level) : s.beginsNone (s.beginTransition target) := by
  obtain ⟨v, rfl, state, -, -⟩ := beginTransition_takes s target
  rw [state]
  have same : s.beginsNone { s with lvl := { s.lvl with transition := .switching target } } := .of_eq rfl
  exact (same.trans (endRun_beginsNone _)).trans (.of_eq rfl)

theorem endOfCapture_beginsNone (s : State) : s.beginsNone s.endOfCapture := by
  unfold State.endOfCapture State.releaseRequest
  split
  · split
    · have same : s.beginsNone (s.setLvl { s.lvl with request := none }) := .of_eq rfl
      exact same.trans (beginTransition_beginsNone _ _)
    · exact .of_eq rfl
  · exact .of_eq rfl

end Sys2Proof.Machine
end

section
/-! PROOFS. The exhausted count (O22). -/

namespace Sys2Proof.Machine

variable {s t u v w : State} {r : Run} {probes : Vector Int 32}

/-! ## The end of a capture with no run -/

/-- R22: a transition that begins with no sampling run, out of STANDBY or at the completion of another. -/
theorem beginTransition_of_none (none_ : s.pfe.run = none) (target : Level) : s.beginTransition target = { s with
    lvl := { s.lvl with transition := .switching target }
    cap := { s.cap with port := if s.lvl.level = .standby then .normal else s.cap.port } } := by
  have ended : ({ s with lvl := { s.lvl with transition := .switching target } } : State).endRun
      = { s with lvl := { s.lvl with transition := .switching target } } := endRun_of_none none_
  rw [beginTransition_eq ended, none_]
  rfl

/-- R25: with no sampling run, the end of a capture leaves all but the level block and the memory port. -/
theorem endOfCapture_of_none (none_ : s.pfe.run = none) : s.endOfCapture = { s with
    lvl := s.endOfCapture.lvl, cap := { s.cap with port := s.endOfCapture.cap.port } } := by
  unfold State.endOfCapture State.releaseRequest
  split
  · split
    · rename_i target request
      rw [beginTransition_of_none (s := s.setLvl { s.lvl with request := none }) none_]
      rfl
    · rfl
  · rfl

theorem endOfCapture_lvl {target : Level} (request : s.lvl.request = some target) (steady : ¬ s.switches)
    (free : s.noCapture) :
    s.endOfCapture.lvl = { s.lvl with request := none, transition := .switching target } ∧ s.endOfCapture.pfe.run = none := by
  obtain ⟨v, ends, state, -⟩ := endOfCapture_begins request steady free
  unfold State.endOfCapture State.releaseRequest
  rw [if_pos ⟨(capturing?_isNone s).mpr free, by simpa using mt (isSwitching_iff s).mp steady⟩, request]
  exact ⟨beginTransition_lvl _ _, beginTransition_run _ _⟩

/-! ## The sample that exhausts the count -/

theorem advance_of_lt {l : Lvl} {step : Nat} (past : 2 ^ 48 - 1 < l.count + step) :
    l.advance step = { l with count := 2 ^ 48 - 1, exhausted := true } := if_pos past

theorem exhaustingSample (run : s.pfe.run = some r) (not_ : s.lvl.exhausted = false)
    (open_ : s.cal.state = .measuring → ∃ c : Chan, s.cal.compared[c] ≤ 17422) (past : 2 ^ 48 - 1 < s.lvl.count + r.step) :
    ∃ t, exec (.sampleStep probes) s = .next t
      ∧ (s.lvl.request = none ∨ s.switches ∨ ¬ t.noCapture →
          t.lvl = { s.lvl with count := 2 ^ 48 - 1, exhausted := true })
      ∧ ∀ target, s.lvl.request = some target → ¬ s.switches → t.noCapture → t.pfe.run = none
          ∧ t.lvl = { s.lvl with count := 2 ^ 48 - 1, exhausted := true, request := none, transition := .switching target } := by
  have lvl := (sampled_lvl s r probes).trans (advance_of_lt past)
  have switches : (s.sampled r probes).switches ↔ s.switches := by
    unfold State.switches
    rw [lvl]
  have request : (s.sampled r probes).lvl.request = s.lvl.request := by rw [lvl]
  have none_ := endOfCapture_beginsNone (s.sampled r probes)
  refine ⟨_, exec_sampleStep run not_ open_, fun waits => ?_, fun target some_ steady free => ?_⟩
  · rw [endOfCapture_of_waits (s := s.sampled r probes), lvl]
    rw [request, switches]
    exact waits.imp_right (Or.imp_right (mt none_.noCapture))
  · have free : (s.sampled r probes).noCapture := by
      by_contra captures
      rw [endOfCapture_of_waits (.inr (.inr captures))] at free
      exact captures free
    obtain ⟨lvl', run'⟩ := endOfCapture_lvl (request.trans some_) (mt switches.mp steady) free
    refine ⟨run', lvl'.trans ?_⟩
    rw [lvl]

/-! ## The end of the run -/

theorem discardOpenRuns_twice (p : Pfe) : p.discardOpenRuns.discardOpenRuns = p.discardOpenRuns := by
  unfold Pfe.discardOpenRuns
  dsimp only
  rw [Vector.map_map]
  rfl

/-- The open runs are discarded at the end of a run, whether they are discarded before it or not. -/
theorem endRun_discarded (run : s.pfe.run = some r) : (s.setPfe s.pfe.discardOpenRuns).endRun = s.endRun := by
  unfold State.endRun
  rw [run, show (s.setPfe s.pfe.discardOpenRuns).pfe.run = some r from run]
  dsimp only
  rw [show (s.setPfe s.pfe.discardOpenRuns).pfe = s.pfe.discardOpenRuns from rfl, discardOpenRuns_twice]
  rfl

/-- What CAL holds once it has compared the last filtered values of a run that ends (R39). -/
def Cal.atRunEnd (c : Cal) (p : Pfe) (r : Run) : Cal :=
  if r.taken = 0 then c else c.compare p.discardOpenRuns.filters (r.taken - 1)

theorem atRunEnd_of_not_measuring {c : Cal} (other : c.state ≠ .measuring) (p : Pfe) (r : Run) : c.atRunEnd p r = c := by
  unfold Cal.atRunEnd Cal.compare
  split
  · rfl
  · cases state : c.state with
    | measuring => exact absurd state other
    | idle | settling => rfl

theorem atRunEnd_measuring {c : Cal} (p : Pfe) (r : Run) : c.atRunEnd p r = { c with
    mismatches := (c.atRunEnd p r).mismatches, compared := (c.atRunEnd p r).compared } := by
  unfold Cal.atRunEnd Cal.compare
  split
  · rfl
  · split <;> rfl

theorem compare_compared_le {c : Cal} (filters : Vector GlitchFilter 32) (newest n : Nat) (counted : c.counted ≤ n) (ch : Chan)
    (short : c.compared[ch] ≤ n) : (c.compare filters newest).compared[ch] ≤ n := by
  unfold Cal.compare
  split
  · dsimp only
    rw [mapIds_get]
    unfold Cal.arrivedStep
    omega
  · exact short
  · exact short

theorem atRunEnd_open {c : Cal} (p : Pfe) (r : Run) (counted : c.counted ≤ 17422) {ch : Chan} (short : c.compared[ch] ≤ 17422) :
    (c.atRunEnd p r).compared[ch] ≤ 17422 := by
  unfold Cal.atRunEnd
  split
  · exact short
  · exact compare_compared_le _ _ _ counted ch short

/-- R39: the run end at a calibration that is not complete by then. -/
theorem calRunEnd_endRun (run : s.pfe.run = some r)
    (open_ : s.cal.state = .measuring → s.cal.counted ≤ 17422 ∧ ∃ c : Chan, s.cal.compared[c] ≤ 17422) :
    s.calRunEnd.endRun = (s.setCal (s.cal.atRunEnd s.pfe r)).endRun := by
  have ended : s.calRunEnd = (s.setCal (s.cal.atRunEnd s.pfe r)).setPfe s.pfe.discardOpenRuns := by
    have waits : ((s.cal.atRunEnd s.pfe r).state = .measuring →
        ∃ c : Chan, (s.cal.atRunEnd s.pfe r).compared[c] ≤ 17422) := fun measuring => by
      obtain ⟨counted, ch, short⟩ := open_ ((congrArg Cal.state (atRunEnd_measuring s.pfe r)).symm.trans measuring)
      exact ⟨ch, atRunEnd_open s.pfe r counted short⟩
    unfold State.calRunEnd
    rw [run]
    unfold Cal.atRunEnd at *
    dsimp only
    split
    · rfl
    · rename_i some_
      rw [if_neg some_] at waits
      rw [completeIfDue_of_open]
      · rfl
      · exact waits
  rw [ended]
  exact endRun_discarded (s := s.setCal (s.cal.atRunEnd s.pfe r)) run

/-! ## The seal at the limit (R73) -/

theorem sealAtLimit_of_none (free : s.noCapture) : s.sealAtLimit = s := by
  unfold State.sealAtLimit
  rw [(capturing?_eq_none s).mpr free]

theorem sealAtLimit_of_some {id : SegId} (here : s.capturing? = some id) :
    s.sealAtLimit = s.sealSegment id .limitReached := by
  unfold State.sealAtLimit
  rw [here]

theorem sealAtLimit_noCapture (unique : ∀ i j, s.captures i → s.captures j → i = j) : s.sealAtLimit.noCapture := by
  cases here : s.capturing? with
  | none =>
    have free := (capturing?_eq_none s).mp here
    rw [sealAtLimit_of_none free]
    exact free
  | some id =>
    rw [sealAtLimit_of_some here]
    intro j captures
    obtain rfl := unique j id (sealSegment_beginsNone s id _ j captures) (captures_of_capturing? here)
    exact sealSegment_ended s j _ captures

/-! ## COUNT_EXHAUSTED with no calibration run -/

theorem exec_countExhausted (run : s.pfe.run = some r) (exhausted : s.lvl.exhausted = true) :
    exec .countExhausted s = .next s.exhaust := by
  rw [exec_eq_after, after_countExhausted]
  unfold State.exhaustIfDue
  rw [if_pos ⟨exhausted, by rw [run]; rfl⟩]

/-- The state of an exhausted run with its segment sealed, ahead of what the end of the capture may release. -/
def State.sealedAtEnd (s : State) : State := s.endRun.gapBegin.sealAtLimit

theorem exhaust_idle (run : s.pfe.run = some r) (idle : s.cal.state = .idle) : s.exhaust = s.sealedAtEnd.endOfCapture := by
  have ended : s.calRunEnd.endRun = s.endRun := by
    rw [calRunEnd_endRun run (fun measuring => absurd (idle.symm.trans measuring) nofun),
      atRunEnd_of_not_measuring (by rw [idle]; nofun)]
    rfl
  have inactive : s.endRun.gapBegin.sealAtLimit.cal.isActive = false := by
    unfold Cal.isActive
    simp [idle]
  unfold State.exhaust
  rw [ended]
  dsimp only
  rw [inactive]
  rfl

theorem sealedAtEnd_run (s : State) : s.sealedAtEnd.pfe.run = none := by
  unfold State.sealedAtEnd
  rw [(State.sealAtLimit_frame _).1, (State.gapBegin_frame _).1]
  exact endRun_run s

theorem sealedAtEnd_lvl (s : State) : s.sealedAtEnd.lvl = s.lvl := by
  unfold State.sealedAtEnd
  rw [(State.sealAtLimit_frame _).2.1, (State.gapBegin_frame _).2.1, (State.endRun_frame _).1]

theorem sealedAtEnd_noCapture (unique : ∀ i j, s.captures i → s.captures j → i = j) : s.sealedAtEnd.noCapture :=
  sealAtLimit_noCapture fun i j first second => unique i j (endRun_beginsNone s i first) (endRun_beginsNone s j second)

theorem sealedAtEnd_dec (s : State) : s.sealedAtEnd.dec = s.endRun.gapBegin.dec := (State.sealAtLimit_frame _).2.2.2.1

/-- R87: a RUNNING context takes the gap and the others stay. -/
theorem gapBegin_takes (v : State) (i : CtxId) :
    (v.dec.contexts[i].state = .running → v.dec.contexts[i].takesGap v.gapBegin.dec.contexts[i])
      ∧ (v.dec.contexts[i].state ≠ .running → v.gapBegin.dec.contexts[i] = v.dec.contexts[i]) := by
  rw [gapBegin_get]
  exact ⟨Context.gapBegin_takesGap _, Context.gapBegin_of_not_running⟩

/-- R87: a RUNNING context at the end of a run and the gap behind it. -/
theorem gapBegin_endRun_running {i : CtxId} (running : s.dec.contexts[i].state = .running) :
    s.endRun.gapBegin.dec.contexts[i].state = .running ∧ s.endRun.gapBegin.dec.contexts[i].afterGap = true := by
  rw [gapBegin_get]
  exact Context.gapBegin_running ((endRun_keepsStates s i).1.trans running)

/-- R70, R73: the capturing segment sealed LIMIT_REACHED. -/
theorem sealedAtEnd_of_captures {id : SegId} (only : s.endRun.capturesOnly id)
    (live : s.endRun.cap.segments[id].retirePending = false) :
    s.sealedAtEnd = s.endRun.gapBegin.sealSegment id .limitReached ∧ s.sealedAtEnd = { s.endRun.gapBegin with
      trg := s.endRun.trg.halt
      cap := { s.endRun.cap with
        encoder := { s.endRun.cap.encoder with state := .idle }
        segments := s.endRun.cap.segments.set id (s.endRun.cap.segments[id].sealedBy s.endRun.cap.encoder.state .limitReached
          (decide (s.endRun.cap.staged ≠ [] ∨ s.endRun.cap.stagedAnnotations ≠ []))) }
      cmd := { s.endRun.cmd with pending := if s.endRun.cap.staged = [] ∧ s.endRun.cap.stagedAnnotations = []
        then s.endRun.cmd.pending ||| BitVec.twoPow 14 0 else s.endRun.cmd.pending } } := by
  unfold State.sealedAtEnd
  have only : s.endRun.gapBegin.capturesOnly id := only
  rw [sealAtLimit_of_some (capturing?_of_only only)]
  exact ⟨rfl, sealSegment_of_live (s := s.endRun.gapBegin) .limitReached live⟩

/-- The run ends exhausted with no calibration run in progress. -/
theorem exhaust_takes (run : s.pfe.run = some r) (idle : s.cal.state = .idle)
    (unique : ∀ i j, s.captures i → s.captures j → i = j) :
    s.exhaust.pfe.run = none ∧ s.exhaust.noCapture ∧ s.exhaust.dec.gap = true
      ∧ (s.lvl.request = none ∨ s.switches → s.exhaust.lvl = s.lvl)
      ∧ (∀ target, s.lvl.request = some target → ¬ s.switches →
          s.exhaust.lvl = { s.lvl with request := none, transition := .switching target })
      ∧ s.exhaust = { s.sealedAtEnd with
          lvl := s.exhaust.lvl, cap := { s.sealedAtEnd.cap with port := s.exhaust.cap.port } } := by
  rw [exhaust_idle run idle]
  have noRun := sealedAtEnd_run s
  have lvl := sealedAtEnd_lvl s
  have free := sealedAtEnd_noCapture unique
  have gap : s.sealedAtEnd.dec.gap = true := by
    rw [sealedAtEnd_dec]
    rfl
  have switches : s.sealedAtEnd.switches ↔ s.switches := by
    unfold State.switches
    rw [lvl]
  have state := endOfCapture_of_none noRun
  refine ⟨?_, (endOfCapture_beginsNone _).noCapture free, ?_, fun waits => ?_, fun target request steady => ?_, state⟩
  · rw [state]
    exact noRun
  · rw [state]
    exact gap
  · rw [endOfCapture_of_waits, lvl]
    rw [lvl, switches]
    exact waits.imp_right .inl
  · rw [(endOfCapture_lvl (by rw [lvl]; exact request) (mt switches.mp steady) free).1, lvl]

theorem exhaust_sealed (run : s.pfe.run = some r) (idle : s.cal.state = .idle)
    (unique : ∀ i j, s.captures i → s.captures j → i = j) {t v : State} (exhausted : s.exhaust = t) (ended : s.endRun = v) :
    t.pfe = v.pfe
      ∧ t.dec = { v.dec with gap := true, contexts := t.dec.contexts }
      ∧ (∀ i : CtxId, (v.dec.contexts[i].state = .running → v.dec.contexts[i].takesGap t.dec.contexts[i])
        ∧ (v.dec.contexts[i].state ≠ .running → t.dec.contexts[i] = v.dec.contexts[i]))
      ∧ t.cap.staged = v.cap.staged ∧ t.cap.stagedAnnotations = v.cap.stagedAnnotations ∧ t.cap.fires = v.cap.fires
      ∧ (v.noCapture → t.cap = { v.cap with port := t.cap.port } ∧ t.trg = v.trg ∧ t.cmd = v.cmd)
      ∧ ∀ id : SegId, v.captures id → v.cap.segments[id].retirePending = false →
        t.cap = { v.cap with encoder := { v.cap.encoder with state := .idle }, segments := t.cap.segments,
                             port := t.cap.port }
        ∧ (∀ j : SegId, j ≠ id → t.cap.segments[j] = v.cap.segments[j])
        ∧ t.cap.segments[id] = { v.cap.segments[id] with
            state := .sealed, sealReason := some .limitReached
            dropouts := t.cap.segments[id].dropouts
            drainPending := decide (v.cap.staged ≠ [] ∨ v.cap.stagedAnnotations ≠ []) }
        ∧ (v.cap.encoder.state = .encoding id → t.cap.segments[id].dropouts = v.cap.segments[id].dropouts)
        ∧ (v.cap.encoder.state = .dropping id →
            t.cap.segments[id].dropouts = min (v.cap.segments[id].dropouts + 1) (2 ^ 32 - 1))
        ∧ t.trg = { v.trg with state := .idle, outstanding := false, raiseDue := [] }
        ∧ t.cmd = { v.cmd with pending := if v.cap.staged = [] ∧ v.cap.stagedAnnotations = []
            then v.cmd.pending ||| BitVec.twoPow 14 0 else v.cmd.pending } := by
  obtain ⟨-, -, -, -, -, state⟩ := exhaust_takes run idle unique
  have only (i j : SegId) (first : v.captures i) (second : v.captures j) : i = j :=
    unique i j (endRun_beginsNone s i (ended ▸ first)) (endRun_beginsNone s j (ended ▸ second))
  have sealed (id : SegId) (captures : v.captures id) (live : v.cap.segments[id].retirePending = false) :=
    (sealedAtEnd_of_captures (s := s) (id := id) (by rw [ended]; exact ⟨captures, fun j other => only j id other captures⟩)
      (by rw [ended]; exact live)).2
  have free (none_ : v.noCapture) : s.sealedAtEnd = v.gapBegin := by
    unfold State.sealedAtEnd
    rw [ended]
    exact sealAtLimit_of_none none_
  have frame := State.sealAtLimit_frame s.endRun.gapBegin
  have before := State.gapBegin_frame s.endRun
  have gap := gapBegin_takes v
  rw [exhausted] at state
  have is : v.gapBegin.sealAtLimit = s.sealedAtEnd := by
    unfold State.sealedAtEnd
    rw [ended]
  rw [ended] at frame before sealed
  rw [is] at frame
  generalize s.sealedAtEnd = x at *
  obtain ⟨pfe, -, -, dec, -, -, -, -, -, -, -, staged, annotations, -, fires, -⟩ := frame
  have sameDec : t.dec = v.gapBegin.dec := by
    rw [state]
    exact dec
  refine ⟨?_, ?_, fun i => ?_, ?_, ?_, ?_, fun none_ => ?_, fun id captures live => ?_⟩
  · rw [state]
    exact pfe
  · rw [sameDec]
    rfl
  · rw [sameDec]
    exact gap i
  · rw [state]
    exact staged
  · rw [state]
    exact annotations
  · rw [state]
    exact fires
  · rw [state, free none_]
    exact ⟨rfl, rfl, rfl⟩
  · have sealed := sealed id captures live
    have segments (j : SegId) : t.cap.segments[j] = if j = id then v.cap.segments[id].sealedBy v.cap.encoder.state .limitReached
        (decide (v.cap.staged ≠ [] ∨ v.cap.stagedAnnotations ≠ [])) else v.cap.segments[j] := by
      rw [state, sealed]
      exact set_get _ _ _ _
    refine ⟨?_, fun j other => ?_, ?_, fun encoding => ?_, fun dropping => ?_, ?_, ?_⟩
    · rw [state, sealed]
    · rw [segments, if_neg other]
    · rw [segments, if_pos rfl]
      rfl
    · rw [segments, if_pos rfl]
      unfold Segment.sealedBy
      rw [encoding]
      rfl
    · rw [segments, if_pos rfl]
      unfold Segment.sealedBy
      rw [dropping]
      rfl
    · rw [state, sealed]
      rfl
    · rw [state, sealed]

/-! ## COUNT_EXHAUSTED with a calibration run -/

/-- With the encoder IDLE and the sequencer not RUNNING a conditioned sample leaves capture memory, and raises no
POOL_LOW. -/
def State.quietCapture (s t : State) : Prop :=
  t.cap = s.cap ∧ t.trg = s.trg ∧ t.cmd.pending.getLsbD 4 = s.cmd.pending.getLsbD 4

theorem decodedSample_poolLow (w : State) (x : Pfe × Conditioned) (step : Nat) :
    (w.decodedSample x step).cmd.pending.getLsbD 4 = w.cmd.pending.getLsbD 4 := by
  unfold State.decodedSample
  rw [decodeSample_eq, monitoredSample_eq]
  dsimp only
  rw [raisedBy_other _ _ (by decide), raisedBy_other _ _ (by decide), raisedBy_other _ _ (by decide)]

theorem encodeSample_idle (idle : s.cap.encoder.state = .idle) (stamp : Nat) (lines : Lines) :
    s.encodeSample stamp lines = s := by
  unfold State.encodeSample
  rw [idle]

theorem triggerSample_idle (other : s.trg.state ≠ .running) (stamp : Nat) (lines changed : Lines)
    (activity : List (Chan × Activity)) : s.triggerSample stamp lines changed activity = s := if_neg other

theorem takeConditioned_quiet (idle : w.cap.encoder.state = .idle) (other : w.trg.state ≠ .running) (x : Pfe × Conditioned)
    (step : Nat) : w.quietCapture ((w.setPfe x.1).takeConditioned x.2 step) := by
  have cap := decodedSample_cap w x step
  have trg := decodedSample_trg w x step
  have poolLow := decodedSample_poolLow w x step
  rw [takeConditioned_eq]
  generalize w.decodedSample x step = v at *
  rw [triggerSample_idle (by rw [trg]; exact other), encodeSample_idle (by rw [cap]; exact idle)]
  exact ⟨cap, trg, poolLow⟩

theorem formNext_quiet (idle : s.cap.encoder.state = .idle) (other : s.trg.state ≠ .running) (newest : Nat) :
    s.quietCapture (s.formNext newest) := by
  cases run : s.pfe.run with
  | none =>
    unfold State.formNext
    rw [run]
    exact ⟨rfl, rfl, rfl⟩
  | some r =>
    rw [formNext_eq run]
    exact takeConditioned_quiet idle other _ _

theorem flushed_quiet (idle : s.cap.encoder.state = .idle) (other : s.trg.state ≠ .running) (first n : Nat) :
    s.quietCapture (State.flushed first s n) := by
  induction n with
  | zero => exact ⟨rfl, rfl, rfl⟩
  | succ n ih =>
    obtain ⟨cap, trg, poolLow⟩ := ih
    show s.quietCapture (State.flushStep _ _)
    generalize State.flushed first s n = v at *
    have idle : v.filtersOn.cap.encoder.state = .idle := (congrArg (·.encoder.state) cap).trans idle
    have other : v.filtersOn.trg.state ≠ .running := by
      rw [show v.filtersOn.trg = s.trg from trg]
      exact other
    unfold State.flushStep
    split
    · obtain ⟨cap', trg', poolLow'⟩ := formNext_quiet idle other (first + n)
      exact ⟨cap'.trans cap, trg'.trans trg, poolLow'.trans poolLow⟩
    · exact ⟨cap, trg, poolLow⟩

theorem endRun_quiet (idle : s.cap.encoder.state = .idle) (other : s.trg.state ≠ .running) : s.quietCapture s.endRun := by
  obtain run | ⟨r, run⟩ := Option.eq_none_or_eq_some s.pfe.run
  · rw [endRun_of_none run]
    exact ⟨rfl, rfl, rfl⟩
  · unfold State.endRun
    rw [run]
    dsimp only
    split
    · exact ⟨rfl, rfl, rfl⟩
    · rw [flushSteps_eq]
      exact flushed_quiet (s := s.setPfe s.pfe.discardOpenRuns) idle other _ _

/-- A capture alone sets the sequencer RUNNING and the encoder on (R54, R152). -/
theorem State.captureSound.idle (h : s.captureSound) (free : s.noCapture) :
    s.cap.encoder.state = .idle ∧ s.trg.state ≠ .running :=
  ⟨h.encoderIdle.mpr free, fun running => by
    obtain ⟨i, pre⟩ := h.running.mp running
    exact free i (.inl pre)⟩

/-- The exhausted run of a calibration with no capture: what the end of the run leaves, CAL's run ended. -/
def State.calibrationEnded (s : State) (r : Run) : State :=
  ((s.setCal (s.cal.atRunEnd s.pfe r)).endRun.gapBegin).endCalibration .samplingEnded

theorem exhaust_calibrating (run : s.pfe.run = some r) (calibrates : s.calibrates) (free : s.noCapture)
    (open_ : s.cal.state = .measuring → s.cal.counted ≤ 17422 ∧ ∃ c : Chan, s.cal.compared[c] ≤ 17422) :
    s.exhaust = (s.calibrationEnded r).endOfCapture := by
  have none_ : (s.setCal (s.cal.atRunEnd s.pfe r)).endRun.gapBegin.noCapture :=
    (endRun_beginsNone (s.setCal (s.cal.atRunEnd s.pfe r))).noCapture free
  have active : (s.setCal (s.cal.atRunEnd s.pfe r)).endRun.gapBegin.cal.isActive = true := by
    rw [(State.gapBegin_frame _).2.2.1, (State.endRun_frame _).2.1]
    refine (isActive_iff (s.setCal (s.cal.atRunEnd s.pfe r))).mpr ?_
    show (s.cal.atRunEnd s.pfe r).state = _ ∨ (s.cal.atRunEnd s.pfe r).state = _
    rw [atRunEnd_measuring]
    exact calibrates
  unfold State.exhaust
  rw [calRunEnd_endRun run open_]
  dsimp only
  rw [sealAtLimit_of_none none_, active]
  rfl

theorem endCalibration_eq (s : State) (outcome : CalOutcome) : s.endCalibration outcome = { s with
    cal := { s.cal with state := .idle, driven := false, outcome }
    dec := { s.dec with contexts := s.dec.contexts.map Context.resumeFromCal }
    cmd := { s.cmd with pending := s.cmd.pending ||| BitVec.twoPow 14 11 } } := rfl

/-- R25: with no run, the end of a capture begins the transition that a request waits for. -/
theorem endOfCapture_begun {target : Level} (none_ : s.pfe.run = none) (request : s.lvl.request = some target)
    (steady : ¬ s.switches) (free : s.noCapture) : s.endOfCapture = { s with
      lvl := { s.lvl with request := none, transition := .switching target }
      cap := { s.cap with port := if s.lvl.level = .standby then .normal else s.cap.port } } := by
  unfold State.endOfCapture State.releaseRequest
  rw [if_pos ⟨(capturing?_isNone s).mpr free, by simpa using mt (isSwitching_iff s).mp steady⟩, request]
  exact beginTransition_of_none (s := s.setLvl { s.lvl with request := none }) none_ target

/-- What a calibration run that ends with the run leaves, ahead of a request it may release. -/
theorem calibrationEnded_spec (sound : s.captureSound) (free : s.noCapture) {y : State} (is : s.calibrationEnded r = y) :
    y.pfe.run = none ∧ y.dec.gap = true ∧ y.lvl = s.lvl ∧ y.cap = s.cap
      ∧ y.cal.state = .idle ∧ y.cal.outcome = .samplingEnded ∧ y.cal.output = false ∧ y.cal.results = s.cal.results
      ∧ y.pfe.full = s.pfe.full ∧ y.pfe.economy = s.pfe.economy ∧ y.cmd.pending.getLsbD 11 = true
      ∧ (∀ i : CtxId, s.dec.contexts[i].state = .suspended .calibration →
          y.dec.contexts[i] = { s.dec.contexts[i] with state := .running, afterGap := true, fresh := true })
      ∧ y.dsp = s.dsp := by
  obtain ⟨idle, other⟩ := sound.idle free
  have states := endRun_keepsStates (s.setCal (s.cal.atRunEnd s.pfe r))
  have quiet := endRun_quiet (s := s.setCal (s.cal.atRunEnd s.pfe r)) idle other
  have noRun := endRun_run (s.setCal (s.cal.atRunEnd s.pfe r))
  have frame := State.endRun_frame (s.setCal (s.cal.atRunEnd s.pfe r))
  have gap := gapBegin_get (s.setCal (s.cal.atRunEnd s.pfe r)).endRun
  unfold State.calibrationEnded at is
  rw [endCalibration_eq] at is
  generalize (s.setCal (s.cal.atRunEnd s.pfe r)).endRun = v at *
  obtain ⟨lvl, cal, dsp, -, -, -, -, -, -, -, -, -, -, -, -, -, -, -, -, -, -, -, -, full, economy, -⟩ := frame
  subst is
  refine ⟨noRun, rfl, lvl, quiet.1, rfl, rfl, rfl, ?_, full, economy, ?_, fun i suspended => ?_, dsp⟩
  · show v.cal.results = s.cal.results
    rw [cal]
    show (s.cal.atRunEnd s.pfe r).results = s.cal.results
    rw [atRunEnd_measuring]
  · show (_ ||| _ : BitVec 14).getLsbD 11 = true
    rw [BitVec.getLsbD_or, BitVec.getLsbD_twoPow]
    exact Bool.or_true _
  · have notRunning : s.dec.contexts[i].state ≠ .running := by
      rw [suspended]
      nofun
    have kept : v.gapBegin.dec.contexts[i] = s.dec.contexts[i] := by
      rw [gap i, (states i).2 notRunning]
      exact Context.gapBegin_of_not_running notRunning
    show (v.gapBegin.dec.contexts.map Context.resumeFromCal)[i] = _
    rw [map_get, kept]
    exact if_pos suspended

/-- Settles O22: the exhausting sample, and the end of the run with a capture or with a calibration run. -/
theorem exhaustedCountEndsTheRun : Obligations.ExhaustedCountEndsTheRun := by
  refine ⟨fun s probes r run not_ open_ past => exhaustingSample run not_ open_ past,
    fun s r run exhausted idle unique => ?_, fun s r run exhausted calibrates sound free open_ => ?_⟩
  · obtain ⟨noRun, free, gap, lvl, released, state⟩ := exhaust_takes run idle unique
    have running (i : CtxId) (here : s.dec.contexts[i].state = .running) := gapBegin_endRun_running here
    have dec := (congrArg State.dec state).trans (sealedAtEnd_dec s)
    refine ⟨s.exhaust, exec_countExhausted run exhausted, noRun, free, gap, lvl, released,
      ⟨s.endRun, endRun_endsRun s, exhaust_sealed run idle unique rfl rfl⟩, fun i here => ?_, ?_⟩
    · rw [dec]
      exact running i here
    · rw [state]
      unfold State.sealedAtEnd
      simp
  · have ended := calibrationEnded_spec (r := r) sound free rfl
    have exhausts := exhaust_calibrating run calibrates free open_
    refine ⟨s.exhaust, exec_countExhausted run exhausted, ?_⟩
    rw [exhausts]
    generalize s.calibrationEnded r = y at *
    obtain ⟨noRun, gap, lvl, cap, cal⟩ := ended
    have switches : y.switches ↔ s.switches := by
      unfold State.switches
      rw [lvl]
    have yFree : y.noCapture := (State.beginsNone.of_eq (s := s) (t := y) (by rw [cap])).noCapture free
    have state := endOfCapture_of_none noRun
    refine ⟨by rw [state]; exact noRun, by rw [state]; exact gap, fun waits => ?_, fun target request steady => ?_,
      by rw [state]; exact cal⟩
    · rw [endOfCapture_of_waits]
      · exact ⟨lvl, cap⟩
      · rw [lvl, switches]
        exact waits.imp_right .inl
    · rw [endOfCapture_begun noRun (by rw [lvl]; exact request) (mt switches.mp steady) yFree, lvl, cap]
      exact ⟨rfl, rfl⟩

end Sys2Proof.Machine
end

section
/-! PROOFS. The completion of a level transition (O25). -/

namespace Sys2Proof.Machine

variable {s t : State}

/-! ## The gap end at a context (R88, R103) -/

section GapEnd

variable {c : Context} {l : Level}

theorem Context.gapEnd_other (other : c.state = .free ∨ c.state = .idle ∨ c.state = .suspended .calibration) :
    c.gapEnd l = c := by
  refine if_neg ?_
  obtain e | e | e := other <;> rw [e] <;> nofun

theorem followsGapEnd_of (h : c.state = .running ∨ c.state = .suspended .standby ∨ c.state = .suspended .rateUnsupported) :
    c.state.followsGapEnd = true := by
  obtain e | e | e := h <;> rw [e] <;> rfl

theorem Context.gapEnd_standby (h : c.state.followsGapEnd = true) :
    c.gapEnd .standby = { c with state := .suspended .standby, afterGap := true } := by
  unfold Context.gapEnd
  rw [if_pos h, if_pos rfl]

theorem Context.decodesAt_economy : c.decodesAt .economy = false ↔ c.protocol = some .async ∧ c.asyncSettings.upper < 4096 := by
  unfold Context.decodesAt AsyncSettings.decodesAt
  split
  · rename_i async
    rw [async, decide_eq_false_iff_not, Nat.not_le]
    exact (and_iff_right rfl).symm
  · rename_i other
    exact iff_of_false nofun fun h => by rw [other] at h; cases h.1
  · rename_i other
    exact iff_of_false nofun fun h => by rw [other] at h; cases h.1
  · rename_i other
    exact iff_of_false nofun fun h => by rw [other] at h; cases h.1
  · rename_i other
    exact iff_of_false nofun fun h => by rw [other] at h; cases h.1

theorem Context.gapEnd_unsupported (h : c.state.followsGapEnd = true) (async : c.protocol = some .async)
    (fast : c.asyncSettings.upper < 4096) :
    c.gapEnd .economy = { c with state := .suspended .rateUnsupported, afterGap := true } := by
  unfold Context.gapEnd
  rw [if_pos h, if_neg nofun, Context.decodesAt_economy.mpr ⟨async, fast⟩]
  rfl

/-- R88, R103: the engine of a context that a gap end leaves RUNNING. -/
def Context.reclamped (c : Context) (l : Level) : AsyncEngine :=
  if c.protocol = some .async then c.asyncEngine.reclamp c.asyncSettings l else c.asyncEngine

theorem Context.reclamp_eq (c : Context) (l : Level) : c.reclamp l = { c with asyncEngine := c.reclamped l } := by
  unfold Context.reclamp Context.reclamped
  split
  · rename_i async
    rw [if_pos async]
  · rename_i other
    rw [if_neg (by rw [other]; nofun)]
  · rename_i other
    rw [if_neg (by rw [other]; nofun)]
  · rename_i other
    rw [if_neg (by rw [other]; nofun)]
  · rename_i other
    rw [if_neg (by rw [other]; nofun)]

theorem Context.gapEnd_running (h : c.state.followsGapEnd = true)
    (decodes : l = .full ∨ (l = .economy ∧ ¬ (c.protocol = some .async ∧ c.asyncSettings.upper < 4096))) :
    c.gapEnd l = { c with
      state := .running, fresh := true, asyncEngine := c.reclamped l
      afterGap := if c.state = .running then c.afterGap else true } := by
  have awake : l ≠ .standby := by
    obtain rfl | ⟨rfl, -⟩ := decodes <;> nofun
  have decodes : c.decodesAt l = true := by
    obtain rfl | ⟨rfl, slow⟩ := decodes
    · unfold Context.decodesAt
      split <;> rfl
    · exact Bool.not_eq_false _ ▸ mt Context.decodesAt_economy.mp slow
  unfold Context.gapEnd
  rw [if_pos h, if_neg awake, decodes]
  exact Context.reclamp_eq _ l

theorem AsyncEngine.reclamp_period (e : AsyncEngine) (a : AsyncSettings) {low : Nat} (awake : l ≠ .standby)
    (is : low = if l = .economy then max a.lower 4096 else a.lower) :
    e.reclamp a l = { e with period := min (max e.period low) a.upper } := by
  unfold AsyncEngine.reclamp AsyncSettings.clampPeriod AsyncSettings.windowLow
  cases l with
  | standby => exact absurd rfl awake
  | full | economy =>
    rw [is]
    rfl

end GapEnd

/-! ## The level entered -/

theorem entered_get (s : State) (l : Level) (i : CtxId) :
    (s.entered l).dec.contexts[i] = s.dec.contexts[i].gapEnd l := map_get _ _ i

theorem completeTransition_pending {l target : Level} (none_ : s.pfe.run = none) (request : s.lvl.request = some target) :
    s.completeTransition l = { s.entered l with
      lvl := { s.lvl with level := l, transition := .switching target, request := none }
      cap := { s.cap with port := if l = .standby then .normal else s.cap.port } } := by
  rw [completeTransition_eq, request]
  exact beginTransition_of_none
    (s := (s.entered l).setLvl { s.lvl with level := l, transition := .steady, request := none }) none_ target

/-- R23: the state that settles at the level entered. -/
def State.atLevel (s : State) (l : Level) : State := (s.entered l).setLvl { s.lvl with level := l, transition := .steady }

theorem completeTransition_steady {l : Level} (request : s.lvl.request = none) :
    s.completeTransition l = (s.atLevel l).settleLevel l := by
  rw [completeTransition_eq, request]
  rfl

theorem settleLevel_awake {l : Level} (awake : l ≠ .standby) : s.settleLevel l = s.startRun l := by
  unfold State.settleLevel
  cases l with
  | standby => exact absurd rfl awake
  | full | economy => rfl

theorem settleLevel_settled (quiet : s.nothingStaged ∧ s.cap.read = none ∧ s.dsp.state ≠ .reading) :
    s.settleLevel .standby = s.setCap { s.cap with port := .selfRefresh } := by
  obtain ⟨⟨staged, annotations⟩, read, drawn⟩ := quiet
  unfold State.settleLevel State.settlePort
  exact if_pos ⟨rfl, staged, annotations, read, drawn⟩

theorem settleLevel_waits (busy : ¬ (s.nothingStaged ∧ s.cap.read = none ∧ s.dsp.state ≠ .reading)) :
    s.settleLevel .standby = s.setCap { s.cap with port := .entering } := by
  unfold State.settleLevel State.settlePort
  exact if_neg fun ⟨_, staged, annotations, read, drawn⟩ => busy ⟨⟨staged, annotations⟩, read, drawn⟩

theorem settleLevel_standby (s : State) :
    s.settleLevel .standby = s.setCap { s.cap with port := (s.settleLevel .standby).cap.port } := by
  by_cases quiet : s.nothingStaged ∧ s.cap.read = none ∧ s.dsp.state ≠ .reading
  · rw [settleLevel_settled quiet]
    rfl
  · rw [settleLevel_waits quiet]
    rfl

theorem startRun_port (s : State) (l : Level) : (s.startRun l).cap.port = s.cap.port
    ∧ (s.startRun l).lvl.transition = s.lvl.transition := by
  unfold State.startRun
  split
  · exact ⟨rfl, rfl⟩
  · split <;> exact ⟨rfl, rfl⟩

theorem settleLevel_transition (s : State) (l : Level) : (s.settleLevel l).lvl.transition = s.lvl.transition := by
  by_cases rests : l = .standby
  · rw [rests, settleLevel_standby]
    rfl
  · rw [settleLevel_awake rests]
    exact (startRun_port s l).2

theorem raisedCount_eq {l : Level} {count n : Nat}
    (raised : (l = .full ∧ n = count) ∨ (l = .economy ∧ n % 4 = 0 ∧ count ≤ n ∧ n < count + 4)) : raisedCount l count = n := by
  obtain ⟨rfl, rfl⟩ | ⟨rfl, multiple, low, high⟩ := raised
  · rfl
  · show (count + 4 - 1) / 4 * 4 = n
    omega

theorem startRun_exhausted {l : Level} (exhausted : s.lvl.exhausted = true) : s.startRun l = s := if_pos exhausted

theorem startRun_past {l : Level} (not_ : s.lvl.exhausted = false) (past : 2 ^ 48 - 1 < raisedCount l s.lvl.count) :
    s.startRun l = s.setLvl { s.lvl with count := 2 ^ 48 - 1, exhausted := true } := by
  unfold State.startRun
  rw [if_neg (by rw [not_]; decide)]
  exact if_pos past

theorem startRun_fits {l : Level} (not_ : s.lvl.exhausted = false) (fits : raisedCount l s.lvl.count ≤ 2 ^ 48 - 1) :
    s.startRun l = (s.setLvl { s.lvl with count := raisedCount l s.lvl.count }).setPfe
      (s.pfe.beginRun (raisedCount l s.lvl.count) (stepOf l)) := by
  unfold State.startRun
  rw [if_neg (by rw [not_]; decide)]
  exact if_neg (Nat.not_lt.mpr fits)

/-! ## The completion -/

/-- R23: the completion leaves everything but the level block, the front end's run and the memory port as the entry does. -/
structure Completes (s : State) (l : Level) (t : State) : Prop where
  level : t.lvl.level = l
  request : t.lvl.request = none
  active : t.pfe.active = contextOf l
  state : t = { s.entered l with lvl := t.lvl, pfe := t.pfe, cap := { s.cap with port := t.cap.port } }

theorem settleLevel_completes (request : s.lvl.request = none) (l : Level) : Completes s l ((s.atLevel l).settleLevel l) := by
  by_cases rests : l = .standby
  · subst rests
    by_cases quiet : (s.atLevel .standby).nothingStaged ∧ (s.atLevel .standby).cap.read = none
        ∧ (s.atLevel .standby).dsp.state ≠ .reading
    · rw [settleLevel_settled quiet]
      exact ⟨rfl, request, rfl, rfl⟩
    · rw [settleLevel_waits quiet]
      exact ⟨rfl, request, rfl, rfl⟩
  · rw [settleLevel_awake rests]
    unfold State.startRun
    split
    · exact ⟨rfl, request, rfl, rfl⟩
    · split
      · exact ⟨rfl, request, rfl, rfl⟩
      · exact ⟨rfl, request, rfl, rfl⟩

theorem completeTransition_completes (none_ : s.pfe.run = none) (l : Level) : Completes s l (s.completeTransition l) := by
  cases request : s.lvl.request with
  | none =>
    rw [completeTransition_steady request]
    exact settleLevel_completes request l
  | some target =>
    rw [completeTransition_pending none_ request]
    exact ⟨rfl, rfl, rfl, rfl⟩

/-- R20, R21: what a completion without a pending request begins above STANDBY. -/
theorem startRun_begins {l : Level} (awake : l ≠ .standby) (none_ : s.pfe.run = none) (request : s.lvl.request = none)
    (not_ : s.lvl.exhausted = false) {n : Nat}
    (raised : (l = .full ∧ n = s.lvl.count) ∨ (l = .economy ∧ n % 4 = 0 ∧ s.lvl.count ≤ n ∧ n < s.lvl.count + 4)) :
    (n ≤ 2 ^ 48 - 1 → (s.completeTransition l).lvl.count = n ∧ (s.completeTransition l).lvl.exhausted = false
      ∧ (s.completeTransition l).pfe.run = some ⟨n, if l = .full then 1 else 4, 0, 0⟩)
    ∧ (2 ^ 48 - 1 < n → (s.completeTransition l).lvl.count = 2 ^ 48 - 1 ∧ (s.completeTransition l).lvl.exhausted = true
      ∧ (s.completeTransition l).pfe.run = none) := by
  have count : raisedCount l (s.atLevel l).lvl.count = n := raisedCount_eq raised
  have not_ : (s.atLevel l).lvl.exhausted = false := not_
  rw [completeTransition_steady request, settleLevel_awake awake]
  refine ⟨fun fits => ?_, fun past => ?_⟩
  · rw [startRun_fits not_ (by rw [count]; exact fits), count]
    refine ⟨rfl, not_, ?_⟩
    cases l with
    | standby => exact absurd rfl awake
    | full | economy => rfl
  · rw [startRun_past not_ (by rw [count]; exact past)]
    exact ⟨rfl, rfl, none_⟩

theorem exec_levelTransitionComplete {l : Level} (switching : s.lvl.transition = .switching l) :
    exec .levelTransitionComplete s = .next (s.completeTransition l) := by
  rw [exec_eq_after, after_levelTransitionComplete, switching]

/-- Settles O25. -/
theorem transitionCompletionEntersTheLevel : Obligations.TransitionCompletionEntersTheLevel := by
  intro s l switching none_
  have completes := completeTransition_completes none_ l
  refine ⟨s.completeTransition l, exec_levelTransitionComplete switching, completes.level, completes.request, ?_, ?_, ?_⟩
  · rw [completes.active]
    cases l <;> rfl
  · rw [completes.state]
    rfl
  have contexts (i : CtxId) : (s.completeTransition l).dec.contexts[i] = s.dec.contexts[i].gapEnd l := by
    rw [completes.state]
    exact entered_get s l i
  refine ⟨fun i => ⟨fun follows => ⟨fun rests => ?_, fun slow async fast => ?_, fun decodes => ?_⟩, fun other => ?_⟩, ?_, ?_, ?_, ?_,
    ?_, fun target request => ?_, fun request => ?_⟩
  · rw [contexts, rests, Context.gapEnd_standby (followsGapEnd_of follows)]
  · rw [contexts, slow, Context.gapEnd_unsupported (followsGapEnd_of follows) async fast]
  · have awake : l ≠ .standby := by
      obtain rfl | ⟨rfl, -⟩ := decodes <;> nofun
    refine ⟨s.dec.contexts[i].reclamped l, _, rfl, ?_, fun other => if_neg other, fun async => ?_⟩
    · rw [contexts, Context.gapEnd_running (followsGapEnd_of follows) decodes]
    · exact (if_pos async).trans (AsyncEngine.reclamp_period _ _ awake rfl)
  · rw [contexts, Context.gapEnd_other other]
  · rw [completes.state]
    rfl
  · rw [completes.state]
  · rw [completes.state]
    rfl
  · rw [completes.state]
    rfl
  · rw [completes.state]
    rfl
  · rw [completeTransition_pending none_ request]
    exact ⟨rfl, none_, rfl⟩
  · have steady := completeTransition_steady (l := l) request
    refine ⟨?_, fun awake => ?_, fun rests staged read drawn => ?_, fun rests busy => ?_, fun ended => ?_,
      fun awake not_ n raised => startRun_begins awake none_ request not_ raised⟩
    · rw [steady]
      exact settleLevel_transition _ _
    · rw [steady, settleLevel_awake awake]
      exact (startRun_port _ _).1
    · subst rests
      rw [steady, settleLevel_settled (s := s.atLevel .standby) ⟨staged, read, drawn⟩]
      rfl
    · subst rests
      rw [steady, settleLevel_waits (s := s.atLevel .standby) busy]
      rfl
    · by_cases rests : l = .standby
      · subst rests
        have kept := settleLevel_standby (s.atLevel .standby)
        rw [steady, kept]
        exact ⟨none_, rfl, rfl⟩
      · have exhausted : (s.atLevel l).lvl.exhausted = true := ended.resolve_left rests
        rw [steady, settleLevel_awake rests, startRun_exhausted exhausted]
        exact ⟨none_, rfl, rfl⟩

end Sys2Proof.Machine
end

section
/-! PROOFS. CALIBRATE and CALIBRATION_ABORT (O26). -/

namespace Sys2Proof.Machine

variable {s : State} {channels : Lines} {seed tolerance : Nat}

/-! ## CALIBRATE (R30, R31, R90) -/

theorem calibrateRefusal_level (exhausted : s.lvl.exhausted = true) : s.calibrateRefusal = some .level := if_pos exhausted

theorem calibrateRefusal_busy (not_ : s.lvl.exhausted = false)
    (busy : (∃ i, s.captures i) ∨ s.switches ∨ s.calibrates) : s.calibrateRefusal = some .busy := by
  unfold State.calibrateRefusal
  rw [if_neg (by rw [not_]; decide)]
  exact if_pos (busy.imp (capturing?_isSome s).mpr (Or.imp (isSwitching_iff s).mpr (isActive_iff s).mpr))

theorem calibrateRefusal_none (not_ : s.lvl.exhausted = false) (free : s.noCapture) (steady : ¬ s.switches)
    (idle : ¬ s.calibrates) : s.calibrateRefusal = none := by
  unfold State.calibrateRefusal
  rw [if_neg (by rw [not_]; decide)]
  refine if_neg ?_
  rintro (captures | switches | active)
  · obtain ⟨i, captures⟩ := (capturing?_isSome s).mp captures
    exact free i captures
  · exact steady ((isSwitching_iff s).mp switches)
  · exact idle ((isActive_iff s).mp active)

theorem exec_calibrate_refused {st : Status} (h : s.admits) (refused : s.calibrateRefusal = some st) :
    exec (.calibrate .enough channels seed tolerance) s = .next (s.answered st) := by
  refine exec_of_body h (after_calibrate s .enough channels seed tolerance) ?_
  unfold bodyCalibrate
  rw [refused]
  rfl

theorem exec_calibrate_accepted (h : s.admits) (free : s.calibrateRefusal = none) :
    exec (.calibrate .enough channels seed tolerance) s
      = .next ((s.acceptCalibrate channels seed tolerance).answered .accepted) := by
  refine exec_of_body h (after_calibrate s .enough channels seed tolerance) ?_
  unfold bodyCalibrate
  rw [free]
  rfl

theorem Context.suspendForCal_of_not_running {c : Context} (other : c.state ≠ .running) : c.suspendForCal = c := if_neg other

/-! ## CALIBRATION_ABORT (R38) -/

theorem exec_calibrationAbort_idle (h : s.admits) (idle : s.cal.state = .idle) :
    exec .calibrationAbort s = .next (s.answered .ok) := by
  refine exec_of_body h (after_calibrationAbort s) (if_neg ?_)
  unfold Cal.isActive
  rw [idle]
  nofun

theorem exec_calibrationAbort (h : s.admits) (active : s.calibrates) :
    exec .calibrationAbort s = .next ((s.endCalibration .aborted).answered .ok) :=
  exec_of_body h (after_calibrationAbort s) (if_pos ((isActive_iff s).mpr active))

/-- Settles O26. -/
theorem calibrateBeginsAndAbortEndsTheRun : Obligations.CalibrateBeginsAndAbortEndsTheRun := by
  refine ⟨fun s channels seed tolerance h => ⟨fun exhausted => ?_, fun not_ busy => ?_, fun not_ free steady idle => ?_⟩,
    fun s h => ⟨exec_calibrationAbort_idle h, fun active => ?_⟩⟩
  · exact exec_calibrate_refused h (calibrateRefusal_level exhausted)
  · exact exec_calibrate_refused h (calibrateRefusal_busy not_ busy)
  · refine ⟨_, exec_calibrate_accepted h (calibrateRefusal_none not_ free steady idle), rfl, rfl, rfl, ?_, rfl, rfl, rfl, rfl, rfl,
      fun c => replicate_get _ c, fun c i => replicate_get_get _ c i, fun i => ⟨fun running => ?_, fun other => ?_⟩⟩
    · rfl
    · obtain ⟨c, gap, suspended⟩ := Context.suspendForCal_takesGap _ running
      exact ⟨c, gap, (map_get s.dec.contexts _ i).trans suspended⟩
    · exact (map_get s.dec.contexts _ i).trans (Context.suspendForCal_of_not_running other)
  · exact ⟨_, exec_calibrationAbort h active, fun i => map_get _ _ i⟩

end Sys2Proof.Machine
end

section
/-! PROOFS. The steps of a calibration run and its completion (O27). -/

namespace Sys2Proof.Machine

variable {s : State} {r : Run} {probes : Vector Int 32}

/-! ## One pattern step (R32, R33) -/

section Steps

variable {c : Cal}

theorem countStep_past (past : 17422 < c.counted) : c.countStep = c := if_pos past

theorem countStep_counts (within : c.counted ≤ 17422) : c.countStep = { c with
    counted := c.counted + 1, driven := true
    pattern := if c.counted % 4 = 0 ∧ c.counted ≠ 0 then advancePattern c.pattern else c.pattern
    state := if 1024 ≤ c.counted then .measuring else c.state } := if_neg (Nat.not_lt.mpr within)

theorem countStep_rest (c : Cal) : c.countStep = { c with
    counted := c.countStep.counted, driven := c.countStep.driven, pattern := c.countStep.pattern
    state := c.countStep.state } := by
  by_cases past : 17422 < c.counted
  · rw [countStep_past past]
  · rw [countStep_counts (Nat.not_lt.mp past)]

/-- R32: the register of the chip that a pattern step drives. -/
theorem stepPattern_eq {reg : Nat → BitVec 15} {seed n : Nat} (h : patternOf seed reg) {p : BitVec 15} (is : p = reg ((n - 1) / 4)) :
    (if n % 4 = 0 ∧ n ≠ 0 then advancePattern p else p) = reg (n / 4) := by
  split
  · rename_i advances
    have next : n / 4 = (n - 1) / 4 + 1 := by omega
    rw [next, is]
    exact (advances_unique (h.2 _)).symm
  · rename_i stays
    have same : (n - 1) / 4 = n / 4 := by omega
    rw [is, same]

/-! ## The comparisons of a sample (R33, R34) -/

theorem compare_rest (c : Cal) (filters : Vector GlitchFilter 32) (newest : Nat) : c.compare filters newest = { c with
    mismatches := (c.compare filters newest).mismatches, compared := (c.compare filters newest).compared } := by
  unfold Cal.compare
  split <;> rfl

theorem compare_not_measuring (other : c.state ≠ .measuring) (filters : Vector GlitchFilter 32) (newest : Nat) :
    c.compare filters newest = c := by
  unfold Cal.compare
  cases state : c.state with
  | measuring => exact absurd state other
  | idle | settling => rfl

theorem compare_compared (measuring : c.state = .measuring) (filters : Vector GlitchFilter 32) (newest : Nat) (ch : Chan) :
    (c.compare filters newest).compared[ch] = max c.compared[ch] (c.arrivedStep filters[ch] newest) := by
  unfold Cal.compare
  rw [measuring]
  dsimp only
  rw [mapIds_get]

theorem ofFn_get {α : Type} {n : Nat} (f : Fin n → α) (i : Fin n) : (Vector.ofFn f)[i] = f i := by
  rw [Fin.getElem_fin, Vector.getElem_ofFn]

theorem compare_mismatches (measuring : c.state = .measuring) (filters : Vector GlitchFilter 32) (newest : Nat) (ch : Chan) :
    (c.compare filters newest).mismatches[ch] = c.compareChannel ch filters[ch] newest := by
  unfold Cal.compare
  rw [measuring]
  dsimp only
  rw [ofFn_get]

theorem compareChannel_of_not {ch : Chan} (other : c.channels.getLsbD ch.val = false) (f : GlitchFilter) (newest : Nat) :
    c.compareChannel ch f newest = c.mismatches[ch] := if_neg (by unfold inSet; rw [other]; decide)

theorem compareChannel_get {reg : Nat → BitVec 15} (h : patternOf c.seed reg) {ch : Chan}
    (selected : c.channels.getLsbD ch.val = true) {f : GlitchFilter} {newest : Nat} {i : Fin 16} {differs : Nat → Bool}
    (isDiffers : ∀ p, differs p = true ↔ differsAt reg p (f.history.getLsbD (newest - (p + c.base))) ((i.val : Int) - 8)) :
    (c.compareChannel ch f newest)[i] = c.mismatches[ch][i]
      + (List.range' (max c.compared[ch] 1024) (c.arrivedStep f newest - max c.compared[ch] 1024)).countP differs := by
  have counts (q : Nat) : mismatchAt c.seed q (f.history.getLsbD (newest - (q + c.base))) i = differs q :=
    Bool.eq_iff_iff.mpr ((mismatchAt_iff h _ _ _).trans (isDiffers q).symm)
  have selected : inSet c.channels ch.val = true := selected
  unfold Cal.compareChannel
  dsimp only
  rw [if_pos selected, compareValues_count]
  simp only [counts]
  rfl

end Steps

/-! ## The sample of a run -/

theorem sampled_cal (run : s.pfe.run = some r) (not_ : s.lvl.exhausted = false) (request : s.lvl.request = none)
    (open_ : s.cal.state = .measuring → ∃ c : Chan, s.cal.compared[c] ≤ 17422) :
    exec (.sampleStep probes) s = .next (s.sampled r probes)
      ∧ (s.sampled r probes).cal
        = if s.cal.isActive then s.cal.countStep.compare (s.sampled r probes).pfe.filters r.taken else s.cal := by
  have lvl := sampled_lvl s r probes
  refine ⟨?_, ?_⟩
  · rw [exec_sampleStep run not_ open_, endOfCapture_of_waits]
    rw [lvl]
    unfold Lvl.advance
    split <;> exact .inl request
  · rw [sampled_filters, ← (rawSample_spec s r probes).cal]
    unfold State.sampled
    split
    · simp
    · rfl

theorem calibrationSample {c t : Cal} {filters : Vector GlitchFilter 32} {taken n : Nat}
    (is : t = c.countStep.compare filters taken) (counted : n = c.counted) :
    t = { c with counted := t.counted, driven := t.driven, pattern := t.pattern, state := t.state,
                 mismatches := t.mismatches, compared := t.compared }
      ∧ (17422 < n → t.counted = n ∧ t.driven = c.driven ∧ t.pattern = c.pattern ∧ t.state = c.state)
      ∧ (n ≤ 17422 → t.counted = n + 1 ∧ t.driven = true
          ∧ (n = 0 ∨ n % 4 ≠ 0 → t.pattern = c.pattern)
          ∧ (n ≠ 0 → n % 4 = 0 → advances c.pattern t.pattern)
          ∧ t.state = if 1024 ≤ n then .measuring else c.state)
      ∧ ∀ reg : Nat → BitVec 15, patternOf c.seed reg →
        (n ≤ 17422 → c.pattern = reg ((n - 1) / 4) → t.output = (reg (n / 4)).getLsbD 14)
        ∧ (t.state = .settling → t.mismatches = c.mismatches ∧ t.compared = c.compared)
        ∧ (t.state = .measuring → ∀ (ch : Chan) (from_ arrived : Nat), from_ = max c.compared[ch] 1024 →
            arrived = min ((match filters[ch].openRun with
              | some run => run.start
              | none => taken + 1) - c.base) (min t.counted 17423) →
          t.compared[ch] = max c.compared[ch] arrived
          ∧ (c.channels.getLsbD ch.val = false → t.mismatches[ch] = c.mismatches[ch])
          ∧ (c.channels.getLsbD ch.val = true → ∀ (i : Fin 16) (differs : Nat → Bool),
            (∀ p, differs p = true ↔ differsAt reg p
              (filters[ch].history.getLsbD (taken - (p + c.base))) ((i.val : Int) - 8)) →
            t.mismatches[ch][i] = c.mismatches[ch][i] + (List.range' from_ (arrived - from_)).countP differs)) := by
  subst counted
  have compared := compare_rest c.countStep filters taken
  have stepped := countStep_rest c
  rw [← is] at compared
  have kept : t.counted = c.countStep.counted ∧ t.driven = c.countStep.driven ∧ t.pattern = c.countStep.pattern
      ∧ t.state = c.countStep.state := by
    rw [compared]
    exact ⟨rfl, rfl, rfl, rfl⟩
  obtain ⟨sameCounted, sameDriven, samePattern, sameState⟩ := kept
  have base : c.countStep.base = c.base ∧ c.countStep.channels = c.channels ∧ c.countStep.seed = c.seed
      ∧ c.countStep.compared = c.compared ∧ c.countStep.mismatches = c.mismatches := by
    rw [stepped]
    exact ⟨rfl, rfl, rfl, rfl, rfl⟩
  obtain ⟨sameBase, sameChannels, sameSeed, sameCompared, sameMismatches⟩ := base
  refine ⟨?_, fun past => ?_, fun within => ?_, fun reg pattern => ⟨fun within at' => ?_, fun settling => ?_,
    fun measuring ch from_ arrived isFrom isArrived => ⟨?_, fun other => ?_, fun selected i differs isDiffers => ?_⟩⟩⟩
  · rw [sameCounted, sameDriven, samePattern, sameState, compared]
    exact congrArg (fun x : Cal => { x with mismatches := t.mismatches, compared := t.compared }) stepped
  · rw [sameCounted, sameDriven, samePattern, sameState, countStep_past past]
    exact ⟨rfl, rfl, rfl, rfl⟩
  · rw [sameCounted, sameDriven, samePattern, sameState, countStep_counts within]
    refine ⟨rfl, rfl, fun stays => if_neg fun moves => ?_, fun some_ multiple => ?_, rfl⟩
    · omega
    · dsimp only
      rw [if_pos ⟨multiple, some_⟩]
      exact advancePattern_advances _
  · unfold Cal.output
    rw [sameDriven, samePattern, countStep_counts within]
    dsimp only
    rw [stepPattern_eq pattern at', Bool.true_and]
  · rw [is, compare_not_measuring (by rw [← sameState, settling]; nofun)]
    exact ⟨sameMismatches, sameCompared⟩
  · have arrives : c.countStep.arrivedStep filters[ch] taken = arrived := by
      unfold Cal.arrivedStep GlitchFilter.arrivedEnd
      rw [sameBase, ← sameCounted, isArrived]
      rfl
    rw [is, compare_compared (sameState.symm.trans measuring), arrives, sameCompared]
  · rw [is, compare_mismatches (sameState.symm.trans measuring), compareChannel_of_not (by rw [sameChannels]; exact other),
      sameMismatches]
  · have arrives : c.countStep.arrivedStep filters[ch] taken = arrived := by
      unfold Cal.arrivedStep GlitchFilter.arrivedEnd
      rw [sameBase, ← sameCounted, isArrived]
      rfl
    rw [is, compare_mismatches (sameState.symm.trans measuring),
      compareChannel_get (reg := reg) (by rw [sameSeed]; exact pattern) (by rw [sameChannels]; exact selected)
        (by rw [sameBase]; exact isDiffers),
      arrives, sameCompared, sameMismatches, isFrom]

/-! ## The best lag (R35) -/

/-- R35: the place of a candidate in the order of preference. -/
def lagRank (i : Fin 16) : Nat := 2 * ((i.val : Int) - 8).natAbs + if i.val < 8 then 0 else 1

theorem lagOrder_sorted : lagOrder.Pairwise fun i j => lagRank i ≤ lagRank j := by decide

theorem mem_lagOrder (i : Fin 16) : i ∈ lagOrder := by
  revert i
  decide

theorem eight_first (i : Fin 16) : lagRank 8 ≤ lagRank i := by
  revert i
  decide

/-- R35: candidate `j` is no worse than candidate `i`. -/
def prefers (counters : Vector Nat 16) (j i : Fin 16) : Prop :=
  counters[j] < counters[i] ∨ (counters[j] = counters[i] ∧ lagRank j ≤ lagRank i)

theorem prefers_trans {counters : Vector Nat 16} {i j k : Fin 16} (h : prefers counters i j) (g : prefers counters j k) :
    prefers counters i k := by
  unfold prefers at *
  omega

theorem fold_prefers (counters : Vector Nat 16) (l : List (Fin 16)) : ∀ best : Fin 16, l.Pairwise (fun i j => lagRank i ≤ lagRank j) →
    (∀ i ∈ l, lagRank best ≤ lagRank i) →
    prefers counters (l.foldl (fun best i => if counters[i] < counters[best] then i else best) best) best
      ∧ ∀ i ∈ l, prefers counters (l.foldl (fun best i => if counters[i] < counters[best] then i else best) best) i := by
  induction l with
  | nil => exact fun best _ _ => ⟨.inr ⟨rfl, le_rfl⟩, nofun⟩
  | cons x l ih =>
    intro best sorted first
    obtain ⟨head, sorted⟩ := List.pairwise_cons.mp sorted
    rw [List.foldl_cons]
    by_cases better : counters[x] < counters[best]
    · rw [if_pos better]
      obtain ⟨self, rest⟩ := ih x sorted head
      refine ⟨prefers_trans self (.inl better), fun i mem => ?_⟩
      obtain rfl | mem := List.mem_cons.mp mem
      · exact self
      · exact rest i mem
    · rw [if_neg better]
      obtain ⟨self, rest⟩ := ih best sorted fun i mem => first i (List.mem_cons_of_mem x mem)
      have before : prefers counters best x := by
        have low := first x List.mem_cons_self
        unfold prefers
        omega
      refine ⟨self, fun i mem => ?_⟩
      obtain rfl | mem := List.mem_cons.mp mem
      · exact prefers_trans self before
      · exact rest i mem

theorem bestLag_prefers (counters : Vector Nat 16) (i : Fin 16) : prefers counters (bestLag counters) i :=
  (fold_prefers counters lagOrder 8 lagOrder_sorted fun i _ => eight_first i).2 i (mem_lagOrder i)

theorem rank_order (i j : Fin 16) (other : i ≠ j) (before : lagRank j ≤ lagRank i) :
    ((j.val : Int) - 8).natAbs < ((i.val : Int) - 8).natAbs
      ∨ (((j.val : Int) - 8).natAbs = ((i.val : Int) - 8).natAbs ∧ j.val < 8) := by
  unfold lagRank at before
  have differ : i.val ≠ j.val := fun same => other (Fin.ext same)
  split at before <;> split at before <;> omega

theorem bestLag_spec (counters : Vector Nat 16) :
    (∀ i : Fin 16, counters[bestLag counters] ≤ counters[i])
      ∧ ∀ i : Fin 16, i ≠ bestLag counters → counters[i] = counters[bestLag counters] →
        (((bestLag counters).val : Int) - 8).natAbs < ((i.val : Int) - 8).natAbs
          ∨ ((((bestLag counters).val : Int) - 8).natAbs = ((i.val : Int) - 8).natAbs ∧ (bestLag counters).val < 8) := by
  refine ⟨fun i => ?_, fun i other same => rank_order i _ other ?_⟩
  · have best := bestLag_prefers counters i
    unfold prefers at best
    omega
  · have best := bestLag_prefers counters i
    unfold prefers at best
    omega

/-! ## The completion (R35 to R37) -/

theorem resultOf_not {c : Cal} {ch : Chan} (other : c.channels.getLsbD ch.val = false) : c.resultOf ch = .notSelected := by
  have other : inSet c.channels ch.val = false := other
  exact if_neg (by rw [other]; decide)

theorem resultOf_selected {c : Cal} {ch : Chan} (selected : c.channels.getLsbD ch.val = true) : c.resultOf ch
    = if c.mismatches[ch][bestLag c.mismatches[ch]] ≤ c.tolerance
      then .pass (((bestLag c.mismatches[ch]).val : Int) - 8) c.mismatches[ch][bestLag c.mismatches[ch]]
      else .fail c.mismatches[ch][bestLag c.mismatches[ch]] := by
  have selected : inSet c.channels ch.val = true := selected
  unfold Cal.resultOf
  rw [if_pos selected]
  rfl

theorem writeResults_none {p : Pfe} (none_ : p.active = none) (results : Vector CalResult 32) : p.writeResults results = p := by
  unfold Pfe.writeResults
  rw [none_]

theorem writeResults_some {p : Pfe} {id : FrontEndId} (some_ : p.active = some id) (results : Vector CalResult 32) :
    p.writeResults results = p.setFrontEnd id { p.frontEnd id with
      offsets := mapIds (p.frontEnd id).offsets fun ch o => results[ch].offset o } := by
  unfold Pfe.writeResults
  rw [some_]

theorem completeCalibration_eq {results : Vector CalResult 32}
    (is : (Vector.ofFn fun ch : Chan => s.cal.resultOf ch) = results) : s.completeCalibration = { s with
      pfe := s.pfe.writeResults results
      cal := { s.cal with state := .idle, driven := false, outcome := .complete, results := results }
      dec := { s.dec with contexts := s.dec.contexts.map Context.resumeFromCal }
      cmd := { s.cmd with pending := s.cmd.pending ||| BitVec.twoPow 14 11 } } := by
  unfold State.completeCalibration
  rw [is]
  rfl

/-- Settles O27. -/
theorem calibrationEntersMeasuringAndCompletes : Obligations.CalibrationEntersMeasuringAndCompletes := by
  refine ⟨fun s settling due => ?_, fun s probes r n run not_ request open_ counted => ?_, fun s measuring all => ?_⟩
  · rw [exec_eq_after, after_calMeasuringEntry, if_pos ⟨settling, due⟩]
    rfl
  · obtain ⟨taken, cal⟩ := sampled_cal (probes := probes) run not_ request open_
    refine ⟨_, taken, fun idle => ?_, fun active => ?_⟩
    · rw [cal, if_neg (mt (isActive_iff s).mp fun active => ?_)]
      unfold State.calibrates at active
      rw [idle] at active
      exact active.elim nofun nofun
    · rw [if_pos ((isActive_iff s).mpr active)] at cal
      exact calibrationSample cal counted
  · have resumed (i : CtxId) : (s.dec.contexts.map Context.resumeFromCal)[i]
        = if s.dec.contexts[i].state = .suspended .calibration
          then { s.dec.contexts[i] with state := .running, afterGap := true, fresh := true } else s.dec.contexts[i] :=
      map_get _ _ i
    have completes : exec .calibrationComplete s = .next s.completeCalibration := by
      rw [exec_eq_after, after_calibrationComplete]
      exact congrArg _ (if_pos ((Cal.isComplete_iff _).mpr ⟨measuring, all⟩))
    obtain ⟨results, is⟩ : ∃ v, (Vector.ofFn fun ch : Chan => s.cal.resultOf ch) = v := ⟨_, rfl⟩
    have result (c : Chan) : results[c] = s.cal.resultOf c := by
      rw [← is, ofFn_get]
    refine ⟨results, s.dec.contexts.map Context.resumeFromCal, s.pfe.writeResults results, ?_, fun c other => ?_,
      fun c selected => ?_, fun none_ => writeResults_none none_ _,
      fun id some_ => ⟨_, writeResults_some some_ _, rfl, fun c => ?_⟩, resumed⟩
    · rw [completes, completeCalibration_eq is]
    · rw [result, resultOf_not other]
    · obtain ⟨least, first⟩ := bestLag_spec s.cal.mismatches[c]
      refine ⟨bestLag s.cal.mismatches[c], least, first, ?_⟩
      rw [result, resultOf_selected selected]
    · refine (mapIds_get (s.pfe.frontEnd id).offsets _ c).trans ?_
      generalize results[c] = result
      cases result <;> rfl

end Sys2Proof.Machine
end

section
/-! PROOFS. Requests of the pool and the segments that take one step (O28, O29, O32, O35). -/

namespace Sys2Proof.Machine

variable {s t u : State}

/-! ## POOL_THRESHOLD_SET (R46) -/

/-- Settles O28. -/
theorem poolThresholdSetComparesAtOnce : Obligations.PoolThresholdSetComparesAtOnce := by
  intro s threshold h
  have gives : bodyPoolThresholdSet threshold s = ({ s with
      cap := { s.cap with
        poolThreshold := min threshold 32768, poolArmed := decide (min threshold 32768 ≤ s.cap.pool.count) }
      cmd := { s.cmd with pending := if s.cap.poolArmed ∧ s.cap.pool.count < min threshold 32768
        then s.cmd.pending ||| BitVec.twoPow 14 4 else s.cmd.pending } }, .only .ok) := by
    unfold bodyPoolThresholdSet
    rw [State.checkPool_eq]
    rfl
  refine ⟨_, _, exec_of_body h (after_poolThresholdSet s .enough threshold) gives, fun low => ⟨?_, ?_⟩, fun high => ⟨?_, ?_⟩⟩
  · exact decide_eq_false (Nat.not_le.mpr low)
  · simp only [low, and_true]
  · exact decide_eq_true high
  · exact if_neg fun crossing => absurd crossing.2 (Nat.not_lt.mpr high)

/-! ## SEGMENT_PREPARE (R58) -/

theorem onSegment_of_le {b : Byte} {body : SegId → State → State × Response} (high : 8 ≤ b.toNat) :
    onSegment b body s = (s, .only .badParam) := by
  unfold onSegment
  rw [idOf_of_le b high]

theorem onSegment_eq {b : Byte} {body : SegId → State → State × Response} {id : SegId} (named : b.toNat = id.val) :
    onSegment b body s = body id s := by
  unfold onSegment
  rw [idOf_eq b id named]

/-- Settles O29. -/
theorem segmentPrepareClampsAndPrimes : Obligations.SegmentPrepareClampsAndPrimes := by
  intro s b mask budget target limit annotationBudget h
  have entry := after_segmentPrepare s .enough b mask budget target limit annotationBudget
  refine ⟨fun high => exec_of_body h entry (onSegment_of_le high), fun id named => ⟨fun used other => ?_, fun unused => ?_⟩⟩
  · exact exec_of_body h entry ((onSegment_eq named).trans (if_neg (not_or.mpr ⟨used, other⟩)))
  · refine ⟨_, exec_of_body h entry ((onSegment_eq named).trans (if_pos unused)), fun j other => ?_, ?_⟩
    · exact (set_get _ _ _ _).trans (if_neg other)
    · exact (set_get _ _ _ _).trans (if_pos rfl)

/-! ## SEGMENT_STOP (R72) -/

theorem bodySegmentStop_none (free : s.noCapture) : bodySegmentStop s = (s, .only .wrongState) := by
  unfold bodySegmentStop
  rw [(capturing?_eq_none s).mpr free]

theorem bodySegmentStop_some {id : SegId} (only : s.capturesOnly id) :
    bodySegmentStop s = ((s.sealSegment id .stopped).endOfCapture, .only .accepted) := by
  unfold bodySegmentStop
  rw [capturing?_of_only only]

/-- A seal of the one capturing segment leaves none. -/
theorem sealSegment_noCapture {id : SegId} (only : s.capturesOnly id) (reason : SealReason) :
    (s.sealSegment id reason).noCapture := fun j captures => by
  obtain rfl := only.2 j (sealSegment_beginsNone s id reason j captures)
  exact sealSegment_ended s j reason captures

/-- R25: with the encoder IDLE and the sequencer not RUNNING the end of a capture leaves capture memory but for its port,
and raises no POOL_LOW. -/
theorem endOfCapture_quiet (idle : s.cap.encoder.state = .idle) (other : s.trg.state ≠ .running) :
    s.endOfCapture.cap = { s.cap with port := s.endOfCapture.cap.port } ∧ s.endOfCapture.trg = s.trg
      ∧ s.endOfCapture.cmd.pending.getLsbD 4 = s.cmd.pending.getLsbD 4 := by
  unfold State.endOfCapture State.releaseRequest
  split
  · split
    · rename_i target _
      obtain ⟨v, ended, state, -, -⟩ := beginTransition_takes (s.setLvl { s.lvl with request := none }) target
      have quiet := endRun_quiet (s := { s with lvl := { s.lvl with request := none, transition := .switching target } })
        idle other
      have ended : v = ({ s with lvl := { s.lvl with request := none, transition := .switching target } } : State).endRun :=
        ended
      rw [← ended] at quiet
      rw [state]
      refine ⟨?_, quiet.2⟩
      dsimp only
      rw [quiet.1]
    · exact ⟨rfl, rfl, rfl⟩
  · exact ⟨rfl, rfl, rfl⟩

/-- Settles O32. -/
theorem segmentStopSealsTheCapture : Obligations.SegmentStopSealsTheCapture := by
  intro s h
  refine ⟨fun free => exec_of_body h (after_segmentStop s) (bodySegmentStop_none free), fun id only live => ?_⟩
  have sealed := sealSegment_of_live .stopped live
  have free := sealSegment_noCapture only .stopped
  refine ⟨_, exec_of_body h (after_segmentStop s) (bodySegmentStop_some only), fun request => ?_, fun target request steady => ?_⟩
  · have waits : (s.sealSegment id .stopped).lvl.request = none := by
      rw [sealed]
      exact request
    have segments (j : SegId) : (s.sealSegment id .stopped).cap.segments[j]
        = if j = id then s.cap.segments[id].sealedBy s.cap.encoder.state .stopped
            (decide (s.cap.staged ≠ [] ∨ s.cap.stagedAnnotations ≠ [])) else s.cap.segments[j] := by
      rw [sealed]
      exact set_get _ _ _ _
    rw [endOfCapture_of_waits (.inl waits)]
    generalize s.sealSegment id .stopped = x at *
    have here := segments id
    rw [if_pos rfl] at here
    refine ⟨?_, ?_, ?_, ?_, ?_, ?_, fun j other => (segments j).trans (if_neg other), ?_, fun encoding => ?_,
      fun dropping => ?_, ?_, ?_⟩
    · rw [sealed]
      rfl
    · rw [sealed]
      rfl
    · rw [sealed]
      rfl
    · rw [sealed]
      rfl
    · rw [sealed]
      rfl
    · rw [sealed]
      rfl
    · show x.cap.segments[id] = { s.cap.segments[id] with
        state := .sealed, sealReason := some .stopped, dropouts := x.cap.segments[id].dropouts
        drainPending := decide (s.cap.staged ≠ [] ∨ s.cap.stagedAnnotations ≠ []) }
      rw [here]
      rfl
    · show x.cap.segments[id].dropouts = s.cap.segments[id].dropouts
      rw [here]
      unfold Segment.sealedBy
      rw [encoding]
      rfl
    · show x.cap.segments[id].dropouts = min (s.cap.segments[id].dropouts + 1) (2 ^ 32 - 1)
      rw [here]
      unfold Segment.sealedBy
      rw [dropping]
      rfl
    · rw [sealed]
      rfl
    · rw [sealed]
      rfl
  · have state : (s.sealSegment id .stopped).cap.segments[id].state = .sealed
        ∧ (s.sealSegment id .stopped).cap.segments[id].sealReason = some .stopped := by
      rw [sealed]
      dsimp only
      rw [set_set_get]
      exact ⟨rfl, rfl⟩
    have kept : (s.sealSegment id .stopped).cap.dram = s.cap.dram ∧ (s.sealSegment id .stopped).lvl = s.lvl
        ∧ (s.sealSegment id .stopped).cap.encoder.state = .idle ∧ (s.sealSegment id .stopped).trg.state = .idle := by
      rw [sealed]
      exact ⟨rfl, rfl, rfl, rfl⟩
    generalize s.sealSegment id .stopped = x at *
    obtain ⟨dram, lvl, idle, halted⟩ := kept
    have noSwitch : ¬ x.switches := by
      rintro ⟨target, switching⟩
      rw [lvl, steady] at switching
      cases switching
    obtain ⟨begun, run⟩ := endOfCapture_lvl (s := x) (by rw [lvl]; exact request) noSwitch free
    obtain ⟨cap, trg, -⟩ := endOfCapture_quiet (s := x) idle (by rw [halted]; nofun)
    refine ⟨begun.trans (by rw [lvl]), run, ?_, ?_, ?_, ?_⟩
    · show x.endOfCapture.cap.segments[id].state = .sealed
      rw [cap]
      exact state.1
    · show x.endOfCapture.cap.segments[id].sealReason = some .stopped
      rw [cap]
      exact state.2
    · exact (congrArg Trg.state trg).trans halted
    · exact (congrArg Cap.dram cap).trans dram

/-! ## SEGMENT_READ and ANNOTATION_READ (R75, R78 to R80) -/

theorem pinnable_iff (id : SegId) : (s.segment id).pinnable = true
    ↔ (s.captures id ∨ s.cap.segments[id].state = .sealed) ∧ s.cap.segments[id].retirePending = false := by
  unfold Segment.pinnable State.captures
  rw [Bool.and_eq_true, Bool.or_eq_true, isCapturing_iff, beq_iff_eq, Bool.not_eq_true']
  exact Iff.rfl

theorem requestRead_held (h : s.takesRequests) (busy : s.cap.read ≠ none) (kind : ReadKind) (fit : Fit) (segment : Byte)
    (start count : Nat) : s.requestRead kind fit segment start count
      = { s with cmd := { s.cmd with held := some ⟨kind, fit, segment, start, count⟩ } } := by
  unfold State.requestRead
  rw [if_pos ((portOpen_iff s).mpr h), if_pos (Option.isSome_iff_ne_none.mpr busy)]
  rfl

theorem requestRead_taken (h : s.admits) (free : s.cap.read = none) (kind : ReadKind) (segment : Byte)
    (start count : Nat) : s.requestRead kind .enough segment start count = s.beginTaken kind segment start count := by
  have none_ : s.setCmd { s.cmd with held := none } = s := by
    rw [← h.1.2]
    rfl
  unfold State.requestRead State.takeRead
  rw [if_pos ((portOpen_iff s).mpr h.1), free, none_]
  dsimp only
  rw [not_resting h.2]
  rfl

theorem beginTaken_of_le {b : Byte} (high : 8 ≤ b.toNat) (kind : ReadKind) (start count : Nat) :
    s.beginTaken kind b start count = s.answered .badParam := by
  unfold State.beginTaken
  rw [idOf_of_le b high]
  rfl

theorem beginTaken_refused {b : Byte} {id : SegId} (named : b.toNat = id.val) (refused : (s.segment id).pinnable = false)
    (kind : ReadKind) (start count : Nat) : s.beginTaken kind b start count = s.answered .notFound := by
  unfold State.beginTaken
  rw [idOf_eq b id named]
  dsimp only
  rw [refused]
  rfl

theorem beginTaken_granted {b : Byte} {id : SegId} (named : b.toNat = id.val) (granted : (s.segment id).pinnable = true)
    (kind : ReadKind) (start count : Nat) : s.beginTaken kind b start count = { s with
      cap := { s.cap with
        segments := s.cap.segments.set id { s.cap.segments[id] with pins := s.cap.segments[id].pins + 1 }
        read := some (s.cap.segments[id].beginRead kind id start count) }
      cmd := { s.cmd with frame := .response, response := none, held := none } } := by
  unfold State.beginTaken
  rw [idOf_eq b id named]
  dsimp only
  rw [if_pos granted]
  rfl

theorem exec_segmentRead (s : State) (fit : Fit) (b : Byte) (start : BitVec 48) (count : Nat) :
    exec (.segmentRead fit b start count) s = .next (s.requestRead .entries fit b start.toNat count) := by
  rw [exec_eq_after, after_segmentRead]

theorem exec_annotationRead (s : State) (fit : Fit) (b : Byte) (offset : BitVec 32) (count : Nat) :
    exec (.annotationRead fit b offset count) s = .next (s.requestRead .annotations fit b offset.toNat count) := by
  rw [exec_eq_after, after_annotationRead]

/-- Settles O35. -/
theorem readsTakeAPinAndFixTheirRange : Obligations.ReadsTakeAPinAndFixTheirRange := by
  intro s b start offset count
  refine ⟨fun h free => ⟨fun high => ?_, fun id named => ⟨fun refused => ?_, fun shown live => ?_⟩⟩, fun fit h busy => ?_⟩
  · rw [exec_segmentRead, exec_annotationRead, requestRead_taken h free, requestRead_taken h free, beginTaken_of_le high,
      beginTaken_of_le high]
    exact ⟨rfl, rfl⟩
  · have refused : (s.segment id).pinnable = false := Bool.eq_false_iff.mpr (mt (pinnable_iff id).mp refused)
    rw [exec_segmentRead, exec_annotationRead, requestRead_taken h free, requestRead_taken h free,
      beginTaken_refused named refused, beginTaken_refused named refused]
    exact ⟨rfl, rfl⟩
  · have granted : (s.segment id).pinnable = true := (pinnable_iff id).mpr ⟨shown, live⟩
    rw [exec_segmentRead, exec_annotationRead, requestRead_taken h free, requestRead_taken h free,
      beginTaken_granted named granted, beginTaken_granted named granted]
    refine ⟨_, fun j other => ?_, ?_, rfl, rfl⟩
    · exact (set_get _ _ _ _).trans (if_neg other)
    · exact (set_get _ _ _ _).trans (if_pos rfl)
  · rw [exec_segmentRead, exec_annotationRead, requestRead_held h busy, requestRead_held h busy]
    exact ⟨rfl, rfl⟩

end Sys2Proof.Machine
end

section
/-! PROOFS. The release of a segment (R45, R57): both chains behind the pool's tail, and the retire's table (O34). -/

namespace Sys2Proof.Machine

variable {s t u w : State} {id : SegId}

/-! ## A chain returned to the pool -/

theorem chainPages_congr {m m' : PageMap} : ∀ {n : Nat} {head : Option Nat},
    (∀ p ∈ chainPages m n head, PageMap.get m' p = PageMap.get m p) → chainPages m' n head = chainPages m n head
  | 0, _, _ => by unfold chainPages; rfl
  | _ + 1, none, _ => rfl
  | n + 1, some p, same => by
    simp only [chainPages, List.mem_cons, forall_eq_or_imp] at same ⊢
    rw [same.1, chainPages_congr same.2]

theorem State.release_none {c : Chain} (empty : c.head = none) : s.release c = s := by
  simp [State.release, empty]

/-- Nothing but the segments, the page map, the pool and the pending notices changes. -/
def State.movesPages (s t : State) : Prop := t = { s with
    cap := { s.cap with segments := t.cap.segments, pages := t.cap.pages, pool := t.cap.pool
                        poolArmed := t.cap.poolArmed }
    cmd := { s.cmd with pending := t.cmd.pending } }

theorem State.movesPages.trans (h : s.movesPages t) (g : t.movesPages u) : s.movesPages u := by
  unfold State.movesPages at h g ⊢
  rw [h] at g
  exact g

theorem State.release_movesPages (s : State) (c : Chain) : s.movesPages (s.release c) := by
  unfold State.movesPages
  unfold State.release
  split
  · simp only [State.checkPool_eq, State.setCap]
  · rfl

/-- R45: the pool after a release. -/
theorem State.release_pool {c : Chain} {h tl : Nat} (head : c.head = some h) (tail : c.tail = some tl) :
    (s.release c).cap.pool
      = ⟨if s.cap.pool.tail = none then some h else s.cap.pool.head, some tl, s.cap.pool.count + c.count⟩
    ∧ ((s.release c).cap.poolArmed = true ↔ s.cap.poolThreshold ≤ s.cap.pool.count + c.count) := by
  simp only [State.release, head, tail, State.checkPool_eq, State.setCap, decide_eq_true_eq, and_true]
  cases s.cap.pool.tail <;> rfl

/-- R46: a release never brings the count below the threshold. -/
theorem State.release_sound (sound : s.poolSound) (c : Chain) :
    (s.release c).poolSound ∧ (s.release c).cmd.pending = s.cmd.pending := by
  unfold State.release
  split
  · obtain ⟨most, armed⟩ := sound
    simp only [State.checkPool_eq, State.setCap, State.poolSound, decide_eq_true_eq, most, true_and]
    refine if_neg ?_
    rintro ⟨isArmed, low⟩
    have := armed.mp isArmed
    omega
  · exact ⟨sound, rfl⟩

/-- R45: the page map after a release: the pages of the chain FREE, its tail the end, and the pool's tail linked to its
head. -/
theorem State.release_page {c : Chain} {h tl : Nat} {pages : List Nat} (wf : PageMap.wf s.cap.pages)
    (head : c.head = some h) (tail : c.tail = some tl) (order : pages = chainPages s.cap.pages c.count (some h))
    (last : tl ∈ pages) (apart : ∀ p, s.cap.pool.tail = some p → p ∉ pages) (q : Nat) :
    PageMap.get (s.release c).cap.pages q
      = if s.cap.pool.tail = some q then ⟨(PageMap.get s.cap.pages q).owner, some h⟩
        else if q = tl then ⟨.free, none⟩
        else if q ∈ pages then ⟨.free, (PageMap.get s.cap.pages q).next⟩ else PageMap.get s.cap.pages q := by
  have owned := ownPages_get wf .free pages
  have ended (x : Nat) : PageMap.get (PageMap.setNext (ownPages s.cap.pages .free pages) tl none) x
      = if x = tl then ⟨.free, none⟩ else PageMap.get (ownPages s.cap.pages .free pages) x := by
    rw [PageMap.setNext, PageMap.get_set (ownPages_wf wf _ _), owned tl, if_pos last]
  simp only [State.release, head, tail, State.checkPool_eq, State.setCap, ← order]
  generalize s.cap.pool.tail = poolTail at apart
  cases poolTail with
  | none =>
    rw [if_neg nofun]
    exact (ended q).trans (by rw [owned])
  | some p =>
    have out := apart p rfl
    have other : p ≠ tl := fun e => out (e ▸ last)
    show PageMap.get (PageMap.setNext (PageMap.setNext (ownPages s.cap.pages .free pages) tl none) p (some h)) q = _
    rw [PageMap.setNext, PageMap.get_set (PageMap.setNext_wf (ownPages_wf wf _ _) _ _), ended, ended, if_neg other,
      owned, if_neg out, owned]
    simp only [Option.some.injEq]
    by_cases here : q = p
    · subst here
      simp
    · rw [if_neg here, if_neg (Ne.symm here)]

/-! ## A segment vacated -/

/-- The pool, the page map, the pool-low flag and POOL_LOW as they were. -/
def State.keepsPool (s t : State) : Prop :=
  t.cap.pool = s.cap.pool ∧ t.cap.pages = s.cap.pages ∧ t.cap.poolArmed = s.cap.poolArmed
    ∧ t.cap.poolThreshold = s.cap.poolThreshold
    ∧ t.cmd.pending.getLsbD 4 = s.cmd.pending.getLsbD 4

theorem State.keepsPool.trans (h : s.keepsPool t) (g : t.keepsPool u) : s.keepsPool u := by
  obtain ⟨pool, pages, armed, threshold, pending⟩ := h
  obtain ⟨pool', pages', armed', threshold', pending'⟩ := g
  exact ⟨pool'.trans pool, pages'.trans pages, armed'.trans armed, threshold'.trans threshold, pending'.trans pending⟩

theorem State.keepsPool.setSegment (s : State) (i : SegId) (g : Segment) : s.keepsPool (s.setSegment i g) :=
  ⟨rfl, rfl, rfl, rfl, rfl⟩

theorem State.keepsPool.raise (s : State) {n : Notice} (other : n.index ≠ 4) : s.keepsPool (s.raise n) := by
  exact ⟨rfl, rfl, rfl, rfl, pending_or_other _ other⟩

theorem State.vacate_movesPages (s : State) (i : SegId) : s.movesPages (s.vacate i) :=
  ((s.release_movesPages _).trans (State.release_movesPages _ _)).trans rfl

theorem vacate_of_empty (noRecords : s.cap.segments[id].records = {})
    (noAnnotations : s.cap.segments[id].annotations = {}) : s.vacate id = s.setSegment id {} := by
  unfold State.vacate
  extract_lets g
  rw [State.release_none (c := g.records) (congrArg Chain.head noRecords),
    State.release_none (c := g.annotations) (congrArg Chain.head noAnnotations)]

/-- R45: the pages of both chains behind the pool's tail. -/
theorem vacate_appended (s : State) (id : SegId) {h tl h' tl' : Nat} {r a : List Nat}
    (head : s.cap.segments[id].records.head = some h) (tail : s.cap.segments[id].records.tail = some tl)
    (head' : s.cap.segments[id].annotations.head = some h') (tail' : s.cap.segments[id].annotations.tail = some tl')
    (order : r = chainPages s.cap.pages s.cap.segments[id].records.count (some h)) (last : r.getLast? = some tl)
    (order' : a = chainPages s.cap.pages s.cap.segments[id].annotations.count (some h')) (last' : a.getLast? = some tl')
    (nodup : (r ++ a ++ s.cap.pool.tail.toList).Nodup) (wf : PageMap.wf s.cap.pages) :
    PageMap.appended s.cap.pages (s.vacate id).cap.pages s.cap.pool.tail r a tl tl' := by
  obtain ⟨distinct, -, outside⟩ := List.nodup_append'.mp nodup
  obtain ⟨-, -, disjoint⟩ := List.nodup_append'.mp distinct
  have heads : ∀ {pages : List Nat} {count x y : Nat}, pages = chainPages s.cap.pages count (some x) →
      pages.getLast? = some y → pages.head? = some x := by
    intro pages count x y order last
    subst order
    cases count with
    | zero => simp [chainPages] at last
    | succ n => rfl
  have notTail (p : Nat) (tail : s.cap.pool.tail = some p) : p ∉ r ∧ p ∉ a := by
    have mem : p ∈ s.cap.pool.tail.toList := by simp [tail]
    exact ⟨fun inR => outside (List.mem_append_left _ inR) mem, fun inA => outside (List.mem_append_right _ inA) mem⟩
  have lastMem := List.mem_of_getLast? last
  have lastMem' := List.mem_of_getLast? last'
  let mid := s.release s.cap.segments[id].records
  have midGet := State.release_page (s := s) wf head tail order lastMem fun p tail => (notTail p tail).1
  have kept (p : Nat) (mem : p ∈ a) : PageMap.get mid.cap.pages p = PageMap.get s.cap.pages p := by
    have out : p ∉ r := fun inR => disjoint inR mem
    rw [midGet, if_neg fun tail => (notTail p tail).2 mem, if_neg fun e => out (Eq.subst e.symm lastMem), if_neg out]
  have midOrder : a = chainPages mid.cap.pages s.cap.segments[id].annotations.count (some h') := by
    rw [chainPages_congr (m := s.cap.pages), ← order']
    rw [← order']
    exact kept
  have midTail : mid.cap.pool.tail = some tl := by rw [(State.release_pool head tail).1]
  have finalGet := State.release_page (s := mid) (release_wf wf _) head' tail' midOrder lastMem' fun p tail inA => by
    rw [midTail, Option.some.injEq] at tail
    exact disjoint (tail ▸ lastMem) inA
  have get (q : Nat) : PageMap.get (s.vacate id).cap.pages q
      = if tl = q then ⟨(PageMap.get mid.cap.pages q).owner, some h'⟩ else if q = tl' then ⟨.free, none⟩
        else if q ∈ a then ⟨.free, (PageMap.get mid.cap.pages q).next⟩ else PageMap.get mid.cap.pages q := by
    refine (finalGet q).trans ?_
    simp only [midTail, Option.some.injEq]
  refine ⟨fun p mem => ?_, fun p tail => ?_, fun p out notPool => ?_⟩
  · rw [get]
    rcases List.mem_append.mp mem with inR | inA
    · have notPool : s.cap.pool.tail ≠ some p := fun tail => (notTail p tail).1 inR
      have outA : p ∉ a := fun inA => disjoint inR inA
      have notLast : p ≠ tl' := fun e => outA (e ▸ lastMem')
      rw [midGet, if_neg notPool]
      by_cases here : p = tl
      · subst here
        simp [heads order' last']
      · simp [here, Ne.symm here, notLast, outA, inR]
    · have other : p ≠ tl := fun e => disjoint lastMem (e ▸ inA)
      rw [if_neg (Ne.symm other), if_neg other, kept p inA, if_pos inA]
      exact (apply_ite (PageEntry.mk .free) _ _ _).symm
  · obtain ⟨outR, outA⟩ := notTail p tail
    rw [get, if_neg fun e : tl = p => outR (e ▸ lastMem), if_neg fun e : p = tl' => outA (e ▸ lastMem'), if_neg outA, midGet, if_pos tail,
      heads order last]
  · simp only [List.mem_append, not_or] at out
    rw [get, if_neg fun e : tl = p => out.1 (e ▸ lastMem), if_neg fun e : p = tl' => out.2 (e ▸ lastMem'), if_neg out.2,
      midGet, if_neg notPool, if_neg fun e : p = tl => out.1 (e ▸ lastMem), if_neg out.1]

/-- R45, R57. -/
theorem vacate_vacated (s : State) (id : SegId) : s.vacated id (s.vacate id) := by
  refine ⟨(vacate_get s id id).trans (if_pos rfl), fun j other => (vacate_get s id j).trans (if_neg other), by simp,
    fun sound => ?_, fun noRecords noAnnotations => ?_, fun h tl h' tl' head tail head' tail' => ?_⟩
  · obtain ⟨sound, first⟩ := State.release_sound sound s.cap.segments[id].records
    obtain ⟨-, second⟩ := State.release_sound sound s.cap.segments[id].annotations
    rw [show (s.vacate id).cmd.pending = s.cmd.pending from second.trans first]
  · rw [vacate_of_empty noRecords noAnnotations]
    exact ⟨rfl, rfl, rfl⟩
  · obtain ⟨first, -⟩ := State.release_pool (s := s) head tail
    obtain ⟨second, armed⟩ := State.release_pool (s := s.release s.cap.segments[id].records) head' tail'
    have pool : (s.vacate id).cap.pool = _ := second
    have armed' : (s.vacate id).cap.poolArmed = true ↔ _ := armed
    rw [pool, first]
    refine ⟨rfl, rfl, by simp, ?_, fun r a order last order' last' nodup wf =>
      vacate_appended s id head tail head' tail' order last order' last' nodup wf⟩
    rw [armed', first]
    simp

theorem State.vacated.of_before (h : w.vacated id t) (others : ∀ j, j ≠ id → w.cap.segments[j] = s.cap.segments[j])
    (records : w.cap.segments[id].records = s.cap.segments[id].records)
    (annotations : w.cap.segments[id].annotations = s.cap.segments[id].annotations) (same : s.keepsPool w) :
    s.vacated id t := by
  obtain ⟨vacant, rest, threshold, quiet, none, some_⟩ := h
  obtain ⟨pool, pages, armed, threshold', pending⟩ := same
  rw [records, annotations, pool, pages, armed] at none
  rw [records, annotations, pool, pages] at some_
  refine ⟨vacant, fun j other => (rest j other).trans (others j other), threshold.trans threshold',
    fun sound => (quiet ?_).trans (by rw [pending]), none, some_⟩
  unfold State.poolSound
  rw [pool, armed, threshold']
  exact sound

theorem State.vacated.of_after (h : s.vacated id t) (same : u.cap.segments = t.cap.segments) (kept : t.keepsPool u) :
    s.vacated id u := by
  obtain ⟨pool, pages, armed, threshold, pending⟩ := kept
  unfold State.vacated at h ⊢
  rw [same, pool, pages, armed, threshold, pending]
  exact h

/-- R77. -/
theorem retireNow_vacated (s : State) (id : SegId) : s.vacated id (s.retireNow id)
    ∧ (s.retireNow id).cmd.pending.getLsbD 3 = true := by
  refine ⟨(vacate_vacated s id).of_after rfl (.raise _ (by decide)), ?_⟩
  show ((s.vacate id).cmd.pending ||| BitVec.twoPow 14 3).getLsbD 3 = true
  simp

theorem State.retireNow_movesPages (s : State) (i : SegId) : s.movesPages (s.retireNow i) :=
  (s.vacate_movesPages i).trans rfl

end Sys2Proof.Machine
end

section
/-! PROOFS. SEGMENT_RETIRE (O34) and SEGMENT_ABORT (O33). -/

namespace Sys2Proof.Machine

variable {s t : State} {id : SegId}

/-! ## SEGMENT_RETIRE (R76) -/

/-- The answer of SEGMENT_RETIRE that vacates the segment. -/
theorem bodySegmentRetire_now (free : s.cap.segments[id].state = .primed
    ∨ (s.cap.segments[id].state = .sealed ∧ s.cap.segments[id].retirePending = false
      ∧ s.cap.segments[id].drainPending = false ∧ s.cap.segments[id].pins = 0)) :
    bodySegmentRetire id s = (s.retireNow id, .only .ok) := by
  simp only [bodySegmentRetire, State.segment]
  rcases free with primed | ⟨isSealed, live, drained, unread⟩
  · rw [primed]
  · rw [isSealed]
    simp only [live, drained, unread, ne_eq, not_true_eq_false, Bool.false_eq_true, if_false]

/-- Settles O34. -/
theorem segmentRetireFollowsItsTable : Obligations.SegmentRetireFollowsItsTable := by
  intro s b h
  have entry := after_segmentRetire s .enough b
  refine ⟨fun high => exec_of_body h entry (onSegment_of_le high), fun id named => ?_⟩
  have given {u : State} {st : Status} (gives : bodySegmentRetire id s = (u, .only st)) :=
    exec_of_body h entry ((onSegment_eq named).trans gives)
  intro g
  refine ⟨fun vacant => given ?_, fun wrong => given ?_, fun isSealed live drains => ?_,
    fun isSealed live drained read => ?_, fun free => ?_⟩
  · have state : (s.segment id).state = .vacant := vacant
    simp only [bodySegmentRetire, state]
  · unfold bodySegmentRetire
    rcases wrong with state | state | state | ⟨state, pending⟩
    · have state : (s.segment id).state = .preTrigger := state
      simp only [state]
    · have state : (s.segment id).state = .postTrigger := state
      simp only [state]
    · have state : (s.segment id).state = .retiring := state
      simp only [state]
    · have state : (s.segment id).state = .sealed := state
      have pending : (s.segment id).retirePending = true := pending
      simp only [state, pending]
      rfl
  · have body : bodySegmentRetire id s = (s.setSegment id { s.segment id with retirePending := true }, .only .accepted) := by
      have state : (s.segment id).state = .sealed := isSealed
      have live : (s.segment id).retirePending = false := live
      have drains : (s.segment id).drainPending = true := drains
      simp only [bodySegmentRetire, state, live, drains, Bool.false_eq_true, if_false, if_true]
    exact ⟨_, given body, (set_get _ _ _ _).trans (if_pos rfl), fun j other => (set_get _ _ _ _).trans (if_neg other)⟩
  · have body : bodySegmentRetire id s
        = (s.setSegment id { s.segment id with retirePending := true, state := .retiring }, .only .accepted) := by
      have state : (s.segment id).state = .sealed := isSealed
      have live : (s.segment id).retirePending = false := live
      have drained : (s.segment id).drainPending = false := drained
      have read : (s.segment id).pins ≠ 0 := read
      simp only [bodySegmentRetire, state, live, drained, read, Bool.false_eq_true, if_false, ne_eq, not_false_eq_true,
        if_true]
    exact ⟨_, given body, (set_get _ _ _ _).trans (if_pos rfl), fun j other => (set_get _ _ _ _).trans (if_neg other)⟩
  · obtain ⟨vacated, pending⟩ := retireNow_vacated s id
    have moved := s.retireNow_movesPages id
    have quiet (records : g.records = {}) (annotations : g.annotations = {}) :
        (s.retireNow id).cmd.pending = s.cmd.pending ||| BitVec.twoPow 14 3 := by
      unfold State.retireNow
      rw [vacate_of_empty records annotations]
      rfl
    have body := given (bodySegmentRetire_now free)
    generalize s.retireNow id = u at *
    refine ⟨_, body, ?_, vacated.of_after rfl ⟨rfl, rfl, rfl, rfl, rfl⟩, pending, quiet⟩
    exact (congrArg (State.answered · .ok) moved).trans rfl

/-! ## SEGMENT_ABORT (R74) -/

/-- What SEGMENT_ABORT leaves before the segment is vacated or made RETIRING. -/
def State.aborted (s : State) (id : SegId) : State := (s.discardStaged id).setTrg s.trg.halt

/-- R54, R74: the segment whose staged entries are discarded. -/
def State.discardedOf (s : State) (id : SegId) : Segment := { s.cap.segments[id] with
  dropouts := if s.cap.encoder.state.isDropping then bump32 s.cap.segments[id].dropouts else s.cap.segments[id].dropouts
  discarded := some (s.cap.segments[id].written - s.cap.staged.length,
    s.cap.segments[id].annotationsStored - s.cap.stagedAnnotations.length) }

theorem aborted_eq (s : State) (id : SegId) : s.aborted id = { s with
    trg := s.trg.halt
    cap := { s.cap with
      encoder := { s.cap.encoder with state := .idle }, staged := [], stagedAnnotations := []
      segments := s.cap.segments.set id (s.discardedOf id) } } := by
  unfold State.aborted State.discardStaged State.discardedOf
  rw [stopEncoder_eq]
  unfold State.setSegment State.segment
  dsimp only [State.setCap, State.setTrg]
  rw [Vector.set_set, set_set_get]

theorem bodySegmentAbort_none (free : s.noCapture) : bodySegmentAbort s = (s, .only .wrongState) := by
  unfold bodySegmentAbort
  rw [(capturing?_eq_none s).mpr free]

/-- The segment of an aborted capture, with or without a pin. -/
theorem bodySegmentAbort_some (only : s.capturesOnly id) :
    bodySegmentAbort s = if s.cap.segments[id].pins = 0 then (((s.aborted id).vacate id).endOfCapture, .only .ok)
      else (((s.aborted id).setSegment id { s.discardedOf id with state := .retiring, retirePending := true }).endOfCapture,
        .only .accepted) := by
  have segment : (s.aborted id).segment id = s.discardedOf id := by
    rw [aborted_eq]
    exact set_set_get _ _ _
  unfold bodySegmentAbort
  rw [capturing?_of_only only]
  show (if ((s.aborted id).segment id).pins = 0 then _ else _) = _
  rw [segment]
  show (if s.cap.segments[id].pins = 0 then _ else (((s.aborted id).setSegment id
    { (s.aborted id).segment id with state := .retiring, retirePending := true }).endOfCapture, _)) = _
  rw [segment]
  rfl

/-- R25, R74: an aborted capture, its segment seen to, at the end of the capture. -/
theorem endOfCapture_aborted {x : State} (same : x = { s with
      trg := s.trg.halt
      cap := { s.cap with
        encoder := { s.cap.encoder with state := .idle }, staged := [], stagedAnnotations := []
        segments := x.cap.segments, pages := x.cap.pages, pool := x.cap.pool, poolArmed := x.cap.poolArmed }
      cmd := { s.cmd with pending := x.cmd.pending } }) (free : x.noCapture) :
    x.endOfCapture.cap.encoder = { s.cap.encoder with state := .idle } ∧ x.endOfCapture.cap.staged = []
      ∧ x.endOfCapture.cap.stagedAnnotations = [] ∧ x.endOfCapture.cap.dram = s.cap.dram
      ∧ x.endOfCapture.cap.segments = x.cap.segments ∧ x.keepsPool x.endOfCapture
      ∧ x.endOfCapture.cal = s.cal ∧ x.endOfCapture.dsp = s.dsp ∧ x.endOfCapture.cap.read = s.cap.read
      ∧ (s.lvl.request = none → x.endOfCapture.pfe = s.pfe ∧ x.endOfCapture.lvl = s.lvl ∧ x.endOfCapture.dec = s.dec
        ∧ x.endOfCapture.cap.port = s.cap.port ∧ x.endOfCapture.cmd.pending = x.cmd.pending
        ∧ x.endOfCapture.trg = { s.trg with state := .idle, outstanding := false, raiseDue := [] })
      ∧ ∀ target, s.lvl.request = some target → s.lvl.transition = .steady →
        x.endOfCapture.lvl = { s.lvl with request := none, transition := .switching target }
          ∧ x.endOfCapture.pfe.run = none ∧ x.endOfCapture.trg.state = .idle := by
  have idle : x.cap.encoder.state = .idle := by rw [same]
  have halted : x.trg.state = .idle := by
    rw [same]
    rfl
  have lvl : x.lvl = s.lvl := by rw [same]
  obtain ⟨cap, trg, poolLow⟩ := endOfCapture_quiet idle (by rw [halted]; nofun)
  obtain ⟨cal, dsp, -⟩ := State.endOfCapture_frame x
  have begun (target : Level) (request : s.lvl.request = some target) (steady : s.lvl.transition = .steady) :=
    endOfCapture_lvl (s := x) (target := target) (by rw [lvl, request]) (by rintro ⟨l, h⟩; rw [lvl, steady] at h; cases h) free
  have waits (none_ : s.lvl.request = none) : x.endOfCapture = x := endOfCapture_of_waits (.inl (by rw [lvl, none_]))
  rw [lvl] at begun
  generalize x.endOfCapture = t at *
  refine ⟨?_, ?_, ?_, ?_, ?_, ⟨?_, ?_, ?_, ?_, poolLow⟩, ?_, ?_, ?_, fun none_ => ?_, fun target request steady => ?_⟩
  · rw [cap, same]
  · rw [cap, same]
  · rw [cap, same]
  · rw [cap, same]
  · rw [cap]
  · rw [cap]
  · rw [cap]
  · rw [cap]
  · rw [cap]
  · rw [cal, same]
  · rw [dsp, same]
  · rw [cap, same]
  · rw [waits none_, same]
    exact ⟨rfl, rfl, rfl, rfl, rfl, rfl⟩
  · obtain ⟨begun, run⟩ := begun target request steady
    exact ⟨begun, run, trg ▸ halted⟩

/-- Settles O33. -/
theorem segmentAbortEndsTheCapture : Obligations.SegmentAbortEndsTheCapture := by
  intro s h
  refine ⟨fun free => exec_of_body h (after_segmentAbort s) (bodySegmentAbort_none free), fun id only => ?_⟩
  have body := bodySegmentAbort_some only
  have discarded := aborted_eq s id
  have segments (j : SegId) : (s.aborted id).cap.segments[j] = if j = id then s.discardedOf id else s.cap.segments[j] := by
    rw [discarded]
    exact set_get _ _ _ _
  by_cases read : s.cap.segments[id].pins = 0
  · rw [if_pos read] at body
    have vacated := (vacate_vacated (s.aborted id) id).of_before (s := s)
      (fun j other => (segments j).trans (if_neg other)) (by rw [segments, if_pos rfl]; rfl)
      (by rw [segments, if_pos rfl]; rfl) (by rw [discarded]; exact ⟨rfl, rfl, rfl, rfl, rfl⟩)
    have moved : ({ s with
        trg := s.trg.halt
        cap := { s.cap with
          encoder := { s.cap.encoder with state := .idle }, staged := [], stagedAnnotations := []
          segments := s.cap.segments.set id (s.discardedOf id) } } : State).movesPages ((s.aborted id).vacate id) :=
      discarded ▸ (s.aborted id).vacate_movesPages id
    generalize (s.aborted id).vacate id = x at *
    have free : x.noCapture := fun j captures => by
      by_cases here : j = id
      · subst here
        unfold State.captures at captures
        rw [vacated.1] at captures
        rcases captures with e | e <;> cases e
      · refine here (only.2 j ?_)
        unfold State.captures at captures ⊢
        rwa [vacated.2.1 j here] at captures
    obtain ⟨encoder, staged, annotations, dram, same, pool, cal, dsp, inFlight, quiet, begins⟩ :=
      endOfCapture_aborted (s := s) (x := x) moved free
    refine ⟨_, exec_of_body h (after_segmentAbort s) body, encoder, staged, annotations, dram, fun j other => ?_, cal, dsp,
      inFlight, fun none_ => ?_, begins, fun _ => ⟨(vacated.of_after same pool).of_after rfl ⟨rfl, rfl, rfl, rfl, rfl⟩, rfl⟩,
      fun pinned => absurd read pinned⟩
    · show x.endOfCapture.cap.segments[j] = _
      rw [same]
      exact vacated.2.1 j other
    · obtain ⟨pfe, lvl, dec, port, -, trg⟩ := quiet none_
      exact ⟨pfe, lvl, dec, port, trg⟩
  · rw [if_neg read] at body
    have moved : (s.aborted id).setSegment id { s.discardedOf id with state := .retiring, retirePending := true } = { s with
        trg := s.trg.halt
        cap := { s.cap with
          encoder := { s.cap.encoder with state := .idle }, staged := [], stagedAnnotations := []
          segments := s.cap.segments.set id { s.discardedOf id with state := .retiring, retirePending := true } } } := by
      rw [discarded]
      unfold State.setSegment
      dsimp only [State.setCap]
      rw [Vector.set_set]
    have segments (j : SegId) : ((s.aborted id).setSegment id
        { s.discardedOf id with state := .retiring, retirePending := true }).cap.segments[j]
          = if j = id then { s.discardedOf id with state := .retiring, retirePending := true } else s.cap.segments[j] := by
      rw [moved]
      exact set_get _ _ _ _
    generalize (s.aborted id).setSegment id { s.discardedOf id with state := .retiring, retirePending := true } = x at *
    have free : x.noCapture := fun j captures => by
      unfold State.captures at captures
      rw [segments] at captures
      split at captures
      · rcases captures with e | e <;> cases e
      · rename_i other
        exact other (only.2 j captures)
    have kept : x.cmd = s.cmd ∧ x.cap.pool = s.cap.pool ∧ x.cap.pages = s.cap.pages := by
      rw [moved]
      exact ⟨rfl, rfl, rfl⟩
    have given : x = { s with
        trg := s.trg.halt
        cap := { s.cap with
          encoder := { s.cap.encoder with state := .idle }, staged := [], stagedAnnotations := []
          segments := x.cap.segments, pages := x.cap.pages, pool := x.cap.pool, poolArmed := x.cap.poolArmed }
        cmd := { s.cmd with pending := x.cmd.pending } } := by rw [moved]
    obtain ⟨encoder, staged, annotations, dram, same, ⟨pool, pages, -⟩, cal, dsp, inFlight, quiet, begins⟩ :=
      endOfCapture_aborted (s := s) (x := x) given free
    have segment : x.endOfCapture.cap.segments[id] = { s.discardedOf id with state := .retiring, retirePending := true } := by
      rw [same, segments, if_pos rfl]
    refine ⟨_, exec_of_body h (after_segmentAbort s) body, encoder, staged, annotations, dram, fun j other => ?_, cal, dsp,
      inFlight, fun none_ => ?_, begins, fun pins => absurd pins read, fun _ => ⟨rfl, rfl, fun none_ => ?_, ?_, fun encoding => ?_,
        pool.trans kept.2.1, pages.trans kept.2.2⟩⟩
    · show x.endOfCapture.cap.segments[j] = _
      rw [same, segments, if_neg other]
    · obtain ⟨pfe, lvl, dec, port, -, trg⟩ := quiet none_
      exact ⟨pfe, lvl, dec, port, trg⟩
    · obtain ⟨-, -, -, -, pending, -⟩ := quiet none_
      exact pending.trans (congrArg Cmd.pending kept.1)
    · show x.endOfCapture.cap.segments[id] = { s.cap.segments[id] with
        state := .retiring, retirePending := true
        dropouts := if s.cap.encoder.state = .dropping id
          then min (s.cap.segments[id].dropouts + 1) (2 ^ 32 - 1) else x.endOfCapture.cap.segments[id].dropouts
        discarded := some (s.cap.segments[id].written - s.cap.staged.length,
          s.cap.segments[id].annotationsStored - s.cap.stagedAnnotations.length) }
      rw [segment]
      unfold State.discardedOf EncoderState.isDropping
      by_cases dropping : s.cap.encoder.state = .dropping id
      · rw [if_pos dropping, dropping]
        rfl
      · rw [if_neg dropping]
    · show x.endOfCapture.cap.segments[id].dropouts = _
      rw [segment]
      unfold State.discardedOf EncoderState.isDropping
      rw [encoding]
      rfl

end Sys2Proof.Machine
end

section
/-! PROOFS. Drain completions (O39) and deferred retires (O37). -/

namespace Sys2Proof.Machine

variable {s t u : State} {id : SegId}

/-! ## The DRAM's condition -/

theorem settlePort_eq (s : State) : s.settlePort = { s with cap := { s.cap with
    port := if s.cap.port = .entering ∧ s.cap.staged = [] ∧ s.cap.stagedAnnotations = [] ∧ s.cap.read = none
      ∧ s.dsp.state ≠ .reading then .selfRefresh else s.cap.port } } := by
  unfold State.settlePort
  split <;> rfl

/-! ## Seal completions (R71, R77) -/

/-- R71: the segment drained and SEGMENT_SEALED raised. -/
def State.sealNoted (s : State) (i : SegId) : State :=
  (s.setSegment i { s.segment i with drainPending := false }).raise .segmentSealed

theorem sealNoted_get (s : State) (i : SegId) :
    (s.sealNoted i).cap.segments[i] = { s.cap.segments[i] with drainPending := false } := set_set_get _ _ _

/-- R77: a seal completion with retire-pending set. -/
theorem completeSeal_of_pending (pending : s.cap.segments[id].retirePending = true) :
    s.completeSeal id = if s.cap.segments[id].pins = 0 then (s.sealNoted id).retireNow id
      else (s.sealNoted id).setSegment id { s.cap.segments[id] with drainPending := false, state := .retiring } := by
  have segment : (s.sealNoted id).segment id = { s.cap.segments[id] with drainPending := false } := sealNoted_get s id
  show (if ((s.sealNoted id).segment id).retirePending then if ((s.sealNoted id).segment id).pins = 0
      then (s.sealNoted id).retireNow id
      else (s.sealNoted id).setSegment id { (s.sealNoted id).segment id with state := .retiring } else s.sealNoted id) = _
  rw [segment]
  exact if_pos pending

theorem sealNoted_movesPages (s : State) (i : SegId) : s.movesPages (s.sealNoted i) := rfl

theorem completeSeal_movesPages (s : State) (i : SegId) : s.movesPages (s.completeSeal i) := by
  cases live : s.cap.segments[i].retirePending with
  | false =>
    rw [completeSeal_of_live live]
    rfl
  | true =>
    rw [completeSeal_of_pending live]
    split
    · exact (sealNoted_movesPages s i).trans (State.retireNow_movesPages _ i)
    · exact (sealNoted_movesPages s i).trans rfl

/-! ## A drain completion -/

/-- R71: what the seal completion of a drain leaves. -/
def State.drained (s : State) : State :=
  if s.cap.staged = [] ∧ s.cap.stagedAnnotations = [] then
    match s.draining? with
    | some i => s.completeSeal i
    | none => s
  else s

theorem drain_eq (s : State) : s.drain = (s.setCap s.cap.drainOne).drained.settlePort := rfl

theorem drained_movesPages (s : State) : s.movesPages s.drained := by
  unfold State.drained
  split
  · split
    · exact completeSeal_movesPages s _
    · rfl
  · rfl

theorem drained_of_left (left : ¬ s.nothingStaged) : s.drained = s := if_neg left

theorem draining?_of_only (drains : s.cap.segments[id].drainPending = true)
    (only : ∀ j : SegId, s.cap.segments[j].drainPending = true → j = id) : s.draining? = some id := by
  obtain ⟨j, found⟩ := Option.isSome_iff_exists.mp ((draining?_isSome s).mpr ⟨id, drains⟩)
  rw [found, only j (draining?_of_some found)]

theorem drained_last (nothing : s.nothingStaged) (drains : s.cap.segments[id].drainPending = true)
    (only : ∀ j : SegId, s.cap.segments[j].drainPending = true → j = id) : s.drained = s.completeSeal id := by
  unfold State.drained
  exact (if_pos nothing).trans (by rw [draining?_of_only drains only])

theorem exec_drainCompletion (some_ : ¬ s.nothingStaged) : exec .drainCompletion s = .next s.drain := by
  rw [exec_eq_after, after_drainCompletion]
  exact congrArg _ (if_neg some_)

/-- What a drain completion leaves beside the entry it writes. -/
theorem drain_leaves (s : State) {c : Cap} (left : s.cap.drainOne = c) :
    s.drain.cap.staged = c.staged ∧ s.drain.cap.stagedAnnotations = c.stagedAnnotations ∧ s.drain.cap.turn = c.turn
      ∧ s.drain.cap.dram = c.dram
      ∧ (¬ (c.staged = [] ∧ c.stagedAnnotations = []) → s.drain.cap.segments = c.segments ∧ s.drain.cmd = s.cmd)
      ∧ s.drain.cap.port = (if c.port = .entering ∧ c.staged = [] ∧ c.stagedAnnotations = [] ∧ c.read = none
        ∧ s.dsp.state ≠ .reading then .selfRefresh else c.port)
      ∧ s.drain.pfe = s.pfe ∧ s.drain.lvl = s.lvl ∧ s.drain.cal = s.cal ∧ s.drain.dec = s.dec ∧ s.drain.trg = s.trg
      ∧ s.drain.dsp = s.dsp := by
  have moved := drained_movesPages (s.setCap s.cap.drainOne)
  have more (some_ : ¬ (s.setCap s.cap.drainOne).nothingStaged) := drained_of_left some_
  rw [drain_eq, settlePort_eq]
  generalize (s.setCap s.cap.drainOne).drained = t at *
  rw [left] at moved more
  rw [moved]
  refine ⟨rfl, rfl, rfl, rfl, fun some_ => ?_, rfl, rfl, rfl, rfl, rfl, rfl, rfl⟩
  rw [more some_]
  exact ⟨rfl, rfl⟩

/-- R71: the drain completion that empties both FIFOs completes the seal. -/
theorem drain_seals {c : Cap} (left : s.cap.drainOne = c) (segments : c.segments = s.cap.segments)
    (nothing : c.staged = [] ∧ c.stagedAnnotations = []) (drains : s.cap.segments[id].drainPending = true)
    (only : ∀ j : SegId, s.cap.segments[j].drainPending = true → j = id)
    (live : s.cap.segments[id].retirePending = false) :
    s.drain.cap.segments[id] = { s.cap.segments[id] with drainPending := false }
      ∧ s.drain.cmd = { s.cmd with pending := s.cmd.pending ||| BitVec.twoPow 14 0 } := by
  have sealed := drained_last (s := s.setCap c) (id := id) nothing (by rw [← drains, ← segments]; rfl)
    fun j drains => only j (by rw [← drains, ← segments]; rfl)
  rw [drain_eq, settlePort_eq, left, sealed, completeSeal_of_live (by rw [← live, ← segments]; rfl), ← segments]
  exact ⟨set_set_get _ _ _, rfl⟩

/-! ## The bytes of a drain -/

theorem drainOne_transition {c : Cap} {e : StagedEntry} {rest : List StagedEntry} (staged : c.staged = e :: rest)
    (turn : c.stagedAnnotations = [] ∨ c.turn = .transition) :
    c.drainOne = { c with dram := e.writeTo c.dram, staged := rest, turn := .annotation } := by
  have next : c.nextDrain = .transition := by
    unfold Cap.nextDrain
    rw [staged]
    rcases turn with none | turn
    · rw [none]
    · cases c.stagedAnnotations with
      | nil => rfl
      | cons _ _ => exact turn
  unfold Cap.drainOne
  rw [next, staged]

theorem drainOne_annotation {c : Cap} {a : StagedAnnotation} {rest : List StagedAnnotation}
    (staged : c.stagedAnnotations = a :: rest) (turn : c.staged = [] ∨ c.turn = .annotation) :
    c.drainOne = { c with dram := a.writeTo c.dram, stagedAnnotations := rest, turn := .transition } := by
  have next : c.nextDrain = .annotation := by
    unfold Cap.nextDrain
    rw [staged]
    rcases turn with none | turn
    · rw [none]
    · cases c.staged with
      | nil => rfl
      | cons _ _ => exact turn
  unfold Cap.drainOne
  rw [next, staged]

/-- Consecutive bytes of a write read back. -/
theorem read_written {m : Memory} (wf : Memory.wf m) (a : Nat) (bytes : List Byte) {k : Nat} (below : k < bytes.length) :
    some (Memory.read (Memory.writeBytes m a bytes) (a + k)) = bytes[k]? := by
  rw [Memory.read_writeBytes wf, if_pos ⟨Nat.le_add_right _ _, Nat.add_lt_add_left below a⟩, Nat.add_sub_cancel_left,
    List.getD_eq_getElem _ _ below, List.getElem?_eq_getElem below]

/-- R52: the bytes that a staged entry writes. -/
theorem StagedEntry.written (e : StagedEntry) {m : Memory} (wf : Memory.wf m) :
    (∀ k, k < 8 → some (Memory.read (e.writeTo m) (entryAddress e.page e.slot + k)) = e.entry.encode[k]?)
      ∧ (∀ h k, e.header = some h → k < 16 →
        some (Memory.read (e.writeTo m) (headerAddress e.page + k)) = h.encode[k]?)
      ∧ ∀ a, ¬ (entryAddress e.page e.slot ≤ a ∧ a < entryAddress e.page e.slot + 8) →
        e.header = none ∨ ¬ (headerAddress e.page ≤ a ∧ a < headerAddress e.page + 16) →
        Memory.read (e.writeTo m) a = Memory.read m a := by
  have size : e.entry.encode.length = 8 := rfl
  unfold StagedEntry.writeTo
  cases he : e.header with
  | none =>
    refine ⟨fun k below => read_written wf _ _ (below.trans_eq size.symm), nofun, fun a out _ => ?_⟩
    rw [Memory.read_writeBytes wf, if_neg (by rw [size]; exact out)]
  | some h =>
    have long : h.encode.length = 16 := rfl
    have wf' := Memory.writeBytes_wf wf (headerAddress e.page) h.encode
    refine ⟨fun k below => read_written wf' _ _ (below.trans_eq size.symm), fun _ k is below => ?_, fun a out outside => ?_⟩
    · cases is
      have apart : ¬ (entryAddress e.page e.slot ≤ headerAddress e.page + k
          ∧ headerAddress e.page + k < entryAddress e.page e.slot + e.entry.encode.length) := by
        unfold entryAddress headerAddress
        omega
      dsimp only
      rw [Memory.read_writeBytes wf', if_neg apart]
      exact read_written wf _ _ (below.trans_eq long.symm)
    · have outside : ¬ (headerAddress e.page ≤ a ∧ a < headerAddress e.page + 16) := outside.resolve_left nofun
      dsimp only
      rw [Memory.read_writeBytes wf', if_neg (by rw [size]; exact out), Memory.read_writeBytes wf,
        if_neg (by rw [long]; exact outside)]

/-- R55: the bytes that a staged annotation writes. -/
theorem StagedAnnotation.written (a : StagedAnnotation) {m : Memory} (wf : Memory.wf m) :
    (∀ k, k < 16 → some (Memory.read (a.writeTo m) (annotationAddress a.page a.slot + k)) = a.annotation.encode[k]?)
      ∧ ∀ x, ¬ (annotationAddress a.page a.slot ≤ x ∧ x < annotationAddress a.page a.slot + 16) →
        Memory.read (a.writeTo m) x = Memory.read m x := by
  have size : a.annotation.encode.length = 16 := by
    simp only [Annotation.encode, List.length_append, leBytes, List.length_cons, List.length_nil]
  unfold StagedAnnotation.writeTo
  refine ⟨fun k below => read_written wf _ _ (below.trans_eq size.symm), fun x out => ?_⟩
  rw [Memory.read_writeBytes wf, if_neg (by rw [size]; exact out)]

/-- Settles O39. -/
theorem drainCompletionWritesOneEntry : Obligations.DrainCompletionWritesOneEntry := by
  refine ⟨fun s e rest canonical staged turn => ?_, fun s x rest canonical staged turn => ?_, fun s nothing => ?_⟩
  · have left := drainOne_transition staged turn
    obtain ⟨entry, header, others⟩ := e.written canonical.1
    obtain ⟨staged', annotations, turn', dram, more, port, blocks⟩ := drain_leaves s left
    refine ⟨s.drain, exec_drainCompletion fun nothing => ?_, staged', annotations, turn', ?_, ?_, ?_, fun some_ => more ?_,
      fun none none' id drains only live => drain_seals left rfl ⟨none, none'⟩ drains only live, port, blocks⟩
    · cases staged.symm.trans nothing.1
    · rw [dram]
      exact entry
    · rw [dram]
      exact header
    · rw [dram]
      exact others
    · rintro ⟨none, none'⟩
      exact some_.elim (· none) (· none')
  · have left := drainOne_annotation staged turn
    obtain ⟨bytes, others⟩ := x.written canonical.1
    obtain ⟨staged', annotations, turn', dram, more, port, blocks⟩ := drain_leaves s left
    refine ⟨s.drain, exec_drainCompletion fun nothing => ?_, staged', annotations, turn', ?_, ?_, fun some_ => more ?_,
      fun none none' id drains only live => drain_seals left rfl ⟨none', none⟩ drains only live, ?_, blocks⟩
    · cases staged.symm.trans nothing.2
    · rw [dram]
      exact bytes
    · rw [dram]
      exact others
    · rintro ⟨none, none'⟩
      exact some_.elim (· none') (· none)
    · rw [port]
      simp only [and_left_comm]
  · rw [exec_eq_after, after_drainCompletion]
    exact congrArg _ (if_pos nothing)

end Sys2Proof.Machine
end

section
/-! PROOFS. Deferred retires (O37): the pin releases and the seal completions that end a RETIRING segment. -/

namespace Sys2Proof.Machine

variable {s t u : State} {id : SegId}

/-! ## Pins released (R75, R77) -/

/-- R75: a segment with one pin less. -/
def State.unpinned (s : State) (i : SegId) : State :=
  s.setSegment i { s.cap.segments[i] with pins := s.cap.segments[i].pins - 1 }

theorem unpinned_get (s : State) (i j : SegId) : (s.unpinned i).cap.segments[j]
    = if j = i then { s.cap.segments[i] with pins := s.cap.segments[i].pins - 1 } else s.cap.segments[j] :=
  set_get _ _ _ _

theorem unpin_eq (s : State) (i : SegId) : s.unpin i =
    if s.cap.segments[i].state = .retiring ∧ s.cap.segments[i].pins ≤ 1 then (s.unpinned i).retireNow i
    else s.unpinned i := by
  have segment : (s.unpinned i).segment i = { s.cap.segments[i] with pins := s.cap.segments[i].pins - 1 } :=
    set_set_get _ _ _
  show (if ((s.unpinned i).segment i).state = .retiring ∧ ((s.unpinned i).segment i).pins = 0
    then (s.unpinned i).retireNow i else s.unpinned i) = _
  rw [segment]
  simp only [Nat.sub_eq_zero_iff_le]

/-- R77: the last pin of a RETIRING segment released. -/
theorem unpin_retires (retiring : s.cap.segments[id].state = .retiring) (last : s.cap.segments[id].pins ≤ 1) :
    s.unpin id = (s.unpinned id).retireNow id := by
  rw [unpin_eq, if_pos ⟨retiring, last⟩]

theorem unpin_keeps (other : ¬ (s.cap.segments[id].state = .retiring ∧ s.cap.segments[id].pins ≤ 1)) :
    s.unpin id = s.unpinned id := by
  rw [unpin_eq, if_neg other]

/-- A retire of a segment whose pin count or drain flag alone has changed, with other notices alone raised. -/
theorem retireNow_vacated_of {w : State} (others : ∀ j, j ≠ id → w.cap.segments[j] = s.cap.segments[j])
    (records : w.cap.segments[id].records = s.cap.segments[id].records)
    (annotations : w.cap.segments[id].annotations = s.cap.segments[id].annotations) (same : s.keepsPool w) :
    s.vacated id (w.retireNow id) ∧ (w.retireNow id).cmd.pending.getLsbD 3 = true :=
  ⟨(retireNow_vacated w id).1.of_before others records annotations same, (retireNow_vacated w id).2⟩

theorem unpinned_vacated (s : State) (id : SegId) : s.vacated id ((s.unpinned id).retireNow id)
    ∧ ((s.unpinned id).retireNow id).cmd.pending.getLsbD 3 = true :=
  retireNow_vacated_of (fun j other => (unpinned_get s id j).trans (if_neg other))
    (by rw [unpinned_get, if_pos rfl]) (by rw [unpinned_get, if_pos rfl]) (.setSegment s id _)

/-- A pin release moves pages and counts alone. -/
theorem unpin_movesPages (s : State) (i : SegId) : s.movesPages (s.unpin i) := by
  rw [unpin_eq]
  split
  · exact State.movesPages.trans (t := s.unpinned i) rfl (State.retireNow_movesPages _ i)
  · rfl

theorem checkPool_pending (s : State) {k : Nat} (other : 4 ≠ k) :
    s.checkPool.cmd.pending.getLsbD k = s.cmd.pending.getLsbD k := by
  rw [State.checkPool_eq]
  dsimp only
  split
  · exact pending_or_other _ other
  · rfl

theorem release_pending (s : State) (c : Chain) {k : Nat} (other : 4 ≠ k) :
    (s.release c).cmd.pending.getLsbD k = s.cmd.pending.getLsbD k := by
  unfold State.release
  split
  · exact checkPool_pending _ other
  · rfl

/-- A retire raises SEGMENT_RETIRED, and POOL_LOW at most. -/
theorem retireNow_pending (s : State) (i : SegId) {k : Nat} (other : 4 ≠ k) (other' : 3 ≠ k) :
    (s.retireNow i).cmd.pending.getLsbD k = s.cmd.pending.getLsbD k := by
  have vacate : (s.vacate i).cmd.pending.getLsbD k = s.cmd.pending.getLsbD k :=
    (release_pending _ _ other).trans (release_pending s s.cap.segments[i].records other)
  exact (pending_or_other _ other').trans vacate

/-! ## The response of a read (R78, R79) -/

theorem takeHeld_none (none_ : s.cmd.held = none) : s.takeHeld = s := by
  unfold State.takeHeld
  rw [none_]

/-- R178: the command port after a response is presented in the frame that asked. -/
def ReadInFlight.presentedIn (r : ReadInFlight) (c : Cmd) (status : Status) (data : ResponseData) : Cmd :=
  if r.frameOpen then { c with frame := .response, response := some ⟨status, data⟩ } else c

theorem present_eq (s : State) (r : ReadInFlight) : s.present r = { s with
    cmd := r.presentedIn s.cmd (r.response s.cap.segments[r.segment]).status
      (r.response s.cap.segments[r.segment]).data } := by
  unfold State.present ReadInFlight.presentedIn
  split <;> rfl

/-- R78, R79: a read with nothing more to take forms its response. -/
theorem formRead_eq {r : ReadInFlight} {kind : ReadKind} (read : s.cap.read = some r) (isKind : r.kind = kind)
    (none_ : r.hasMore s.cap.segments[r.segment] = false) : s.formRead kind
      = (({ s with cap := { s.cap with read := none },
                   cmd := r.presentedIn s.cmd (r.response s.cap.segments[r.segment]).status
                     (r.response s.cap.segments[r.segment]).data } : State).unpin r.segment).settlePort.takeHeld := by
  unfold State.formRead
  rw [read]
  dsimp only
  rw [if_pos ⟨isKind, none_⟩, present_eq]
  rfl

/-- R78, R79: the requests of a read with nothing more to take, and what it answers. -/
theorem formRead_of {r : ReadInFlight} {c : Instr} {last : Nat} {data : ResponseData} (read : s.cap.read = some r)
    (is : (r.kind = .entries ∧ c = .segmentReadResponseFormed ∧ last = s.cap.segments[r.segment].entryEnd
        ∧ data = .entries s.cap.segments[r.segment].state s.cap.segments[r.segment].written
          s.cap.segments[r.segment].firstRetained r.rotatedAway r.entries)
      ∨ (r.kind = .annotations ∧ c = .annotationReadResponseFormed ∧ last = s.cap.segments[r.segment].annotationEnd
        ∧ data = .annotations s.cap.segments[r.segment].firstAnnotation s.cap.segments[r.segment].annotationsStored
          s.cap.segments[r.segment].annotationsDropped r.rotatedAway r.annotations))
    (ends : r.remaining = 0 ∨ last ≤ r.next) : exec c s
      = .next (({ s with cap := { s.cap with read := none }, cmd := r.presentedIn s.cmd .ok data } : State).unpin
        r.segment).settlePort.takeHeld := by
  rcases is with ⟨kind, rfl, rfl, rfl⟩ | ⟨kind, rfl, rfl, rfl⟩
  · have none_ : r.hasMore s.cap.segments[r.segment] = false := by
      unfold ReadInFlight.hasMore
      rw [kind]
      exact decide_eq_false (by omega)
    rw [exec_eq_after, after_segmentReadResponseFormed, formRead_eq read kind none_]
    unfold ReadInFlight.response
    rw [kind]
  · have none_ : r.hasMore s.cap.segments[r.segment] = false := by
      unfold ReadInFlight.hasMore
      rw [kind]
      exact decide_eq_false (by omega)
    rw [exec_eq_after, after_annotationReadResponseFormed, formRead_eq read kind none_]
    unfold ReadInFlight.response
    rw [kind]

/-! ## A refresh sent (R175) -/

/-- R175: the pending refresh is not drawn, or it starts on a segment whose pin is granted. -/
theorem startPendingRefresh_cases (s : State) : s.startPendingRefresh = s.notDrawn
    ∨ ∃ i, (s.segment i).pinnable = true ∧ s.startPendingRefresh = s.startRefresh i := by
  unfold State.startPendingRefresh
  split
  · exact .inl rfl
  · split
    · exact .inl rfl
    · split
      · exact .inr ⟨_, ‹_›, rfl⟩
      · exact .inl rfl

/-- R175: a refresh ends DRAWN. -/
def State.drawn (s : State) : State :=
  (s.setDsp { s.dsp with outcome := .drawn, state := .idle, pending := false }).raise .refreshDone

theorem completeRefresh_eq (active : s.dsp.active.segment = some id) : s.completeRefresh
    = if s.dsp.pending then (s.unpin id).drawn.startPendingRefresh else (s.unpin id).drawn := by
  unfold State.completeRefresh
  rw [active]
  dsimp only
  rw [show (s.unpin id).dsp.pending = s.dsp.pending by rw [unpin_movesPages s id]]
  rfl

theorem exec_refreshSendComplete (sending : s.dsp.state = .sending) :
    exec .refreshSendComplete s = .next s.completeRefresh := by
  rw [exec_eq_after, after_refreshSendComplete, if_pos sending]

/-- A pending refresh that starts or is not drawn leaves a VACANT segment, raises notices and clears none. -/
theorem startPendingRefresh_keeps (vacant : s.cap.segments[id] = {}) :
    s.startPendingRefresh.cap.segments[id] = {} ∧ s.startPendingRefresh.dsp.pending = s.dsp.pending
      ∧ ∀ k, s.cmd.pending.getLsbD k = true → s.startPendingRefresh.cmd.pending.getLsbD k = true := by
  rcases startPendingRefresh_cases s with same | ⟨i, granted, same⟩
  · rw [same]
    refine ⟨vacant, rfl, fun k set => ?_⟩
    show (s.cmd.pending ||| BitVec.twoPow 14 13).getLsbD k = true
    rw [BitVec.getLsbD_or, set, Bool.true_or]
  · rw [same]
    have other : id ≠ i := by
      rintro rfl
      rw [show s.segment id = {} from vacant] at granted
      cases granted
    exact ⟨(setSegment_get s i _ id).trans ((if_neg other).trans vacant), rfl, fun _ set => set⟩

/-- Settles O37. -/
theorem deferredRetireCompletes : Obligations.DeferredRetireCompletes := by
  refine ⟨fun s r g c last data read is retiring pins held kinds ends => ?_, fun s id sending active retiring pins => ?_,
    fun s id one drains only pending => ?_⟩
  · subst is
    let w : State := { s with cap := { s.cap with read := none }, cmd := r.presentedIn s.cmd .ok data }
    have formed : exec c s = .next (w.unpin r.segment).settlePort.takeHeld := by
      refine formRead_of read (last := last) ?_ ends
      rw [← retiring] at kinds
      exact kinds
    rw [unpin_retires (s := w) (id := r.segment) retiring pins] at formed
    have keptPending : w.cmd.pending = s.cmd.pending := by
      show (r.presentedIn s.cmd .ok data).pending = _
      unfold ReadInFlight.presentedIn
      split <;> rfl
    obtain ⟨vacated, noticed⟩ := unpinned_vacated w r.segment
    have moved : w.movesPages ((w.unpinned r.segment).retireNow r.segment) :=
      State.movesPages.trans (t := w.unpinned r.segment) rfl (State.retireNow_movesPages _ _)
    generalize (w.unpinned r.segment).retireNow r.segment = x at *
    have vacated : s.vacated r.segment x := vacated.of_before (fun _ _ => rfl) rfl rfl
      ⟨rfl, rfl, rfl, rfl, by rw [keptPending]⟩
    have waiting : x.settlePort.cmd.held = none := by
      rw [settlePort_eq, moved]
      show (r.presentedIn s.cmd .ok data).held = none
      unfold ReadInFlight.presentedIn
      split <;> exact held
    rw [takeHeld_none waiting] at formed
    refine ⟨_, formed, ?_⟩
    rw [settlePort_eq]
    refine ⟨vacated.of_after rfl ⟨rfl, rfl, rfl, rfl, rfl⟩, ?_, ?_, noticed, ?_, ?_, ?_, ?_, ?_, ?_, ?_, ?_⟩
    · exact congrArg (·.cap.read) moved
    · rw [moved]
      simp only [w, true_and]
    · have cmd : x.cmd = { w.cmd with pending := x.cmd.pending } := congrArg State.cmd moved
      show x.cmd = { s.cmd with
        pending := x.cmd.pending
        frame := if r.frameOpen then .response else s.cmd.frame
        response := if r.frameOpen then some ⟨.ok, data⟩ else s.cmd.response }
      refine cmd.trans ?_
      show ({ r.presentedIn s.cmd .ok data with pending := x.cmd.pending } : Cmd) = _
      unfold ReadInFlight.presentedIn
      cases r.frameOpen <;> rfl
    · exact congrArg (·.cap.dram) moved
    · exact (congrArg State.pfe moved).trans rfl
    · exact (congrArg State.lvl moved).trans rfl
    · exact (congrArg State.cal moved).trans rfl
    · exact (congrArg State.dec moved).trans rfl
    · exact (congrArg State.trg moved).trans rfl
    · exact (congrArg State.dsp moved).trans rfl
  · have done_ := (exec_refreshSendComplete sending).trans (congrArg _ (completeRefresh_eq active))
    have dram : s.completeRefresh.cap.dram = s.cap.dram := by simp
    rw [completeRefresh_eq active] at dram
    rw [unpin_retires retiring pins] at done_ dram
    obtain ⟨vacated, noticed⟩ := unpinned_vacated s id
    have moved : s.movesPages ((s.unpinned id).retireNow id) :=
      State.movesPages.trans (t := s.unpinned id) rfl (State.retireNow_movesPages _ _)
    generalize (s.unpinned id).retireNow id = x at *
    have bits : x.drawn.cmd.pending.getLsbD 3 = true ∧ x.drawn.cmd.pending.getLsbD 13 = true := by
      show (x.cmd.pending ||| BitVec.twoPow 14 13).getLsbD 3 = true
        ∧ (x.cmd.pending ||| BitVec.twoPow 14 13).getLsbD 13 = true
      rw [BitVec.getLsbD_or, noticed, BitVec.getLsbD_or]
      simp
    refine ⟨_, done_, ?_⟩
    cases waits : s.dsp.pending with
    | false =>
      refine ⟨vacated.1, bits.1, bits.2, rfl, (congrArg (·.cap.dram) moved).trans rfl, fun _ => ⟨?_, ?_, ?_, ?_, ?_⟩⟩
      · exact vacated.of_after rfl (.raise _ (by decide))
      · show ({ x.dsp with outcome := .drawn, state := .idle, pending := false } : Dsp) = _
        rw [(congrArg State.dsp moved).trans rfl, ← waits]
      · exact congrArg (fun t : State => { t.cmd with pending := x.drawn.cmd.pending }) moved
      · exact (congrArg State.trg moved).trans rfl
      · exact (congrArg State.dec moved).trans rfl
    | true =>
      rw [waits] at dram
      obtain ⟨vacant, off, kept⟩ := startPendingRefresh_keeps (s := x.drawn) (id := id) vacated.1
      exact ⟨vacant, kept 3 bits.1, kept 13 bits.2, off, dram, nofun⟩
  · have some_ : ¬ s.nothingStaged := by
      rintro ⟨none, none'⟩
      rw [none, none'] at one
      cases one
    have left : s.cap.drainOne.staged = [] ∧ s.cap.drainOne.stagedAnnotations = [] ∧ s.cap.drainOne.segments = s.cap.segments
        ∧ s.cap.drainOne.pool = s.cap.pool ∧ s.cap.drainOne.pages = s.cap.pages
        ∧ s.cap.drainOne.poolArmed = s.cap.poolArmed ∧ s.cap.drainOne.poolThreshold = s.cap.poolThreshold
        ∧ s.cap.drainOne.port = s.cap.port ∧ s.cap.drainOne.read = s.cap.read := by
      cases staged : s.cap.staged with
      | nil =>
        obtain ⟨a, is⟩ : ∃ a, s.cap.stagedAnnotations = [a] := List.length_eq_one_iff.mp (by simpa [staged] using one)
        rw [drainOne_annotation is (.inl staged)]
        exact ⟨staged, rfl, rfl, rfl, rfl, rfl, rfl, rfl, rfl⟩
      | cons e rest =>
        obtain ⟨none, none'⟩ : rest = [] ∧ s.cap.stagedAnnotations = [] := by
          rw [staged, List.length_cons] at one
          exact ⟨List.length_eq_zero_iff.mp (by omega), List.length_eq_zero_iff.mp (by omega)⟩
        subst none
        rw [drainOne_transition staged (.inl none')]
        exact ⟨rfl, none', rfl, rfl, rfl, rfl, rfl, rfl, rfl⟩
    have emptied := drain_leaves s rfl
    have eq := drain_eq s
    generalize s.cap.drainOne = c at *
    obtain ⟨noEntry, noAnnotation, segments, pool, pages, armed, threshold, port, read⟩ := left
    obtain ⟨staged, annotations, -, -, -, port', -, -, -, dec, trg, dsp⟩ := emptied
    have drained := drained_last (s := s.setCap c) (id := id) ⟨noEntry, noAnnotation⟩ (by rw [← drains, ← segments]; rfl)
      fun j drains => only j (by rw [← drains, ← segments]; rfl)
    rw [completeSeal_of_pending (by rw [← pending, ← segments]; rfl)] at drained
    have pinsSame : (s.setCap c).cap.segments[id].pins = s.cap.segments[id].pins := by rw [← segments]; rfl
    rw [pinsSame] at drained
    have raised (k : Nat) (other : (0 : Nat) ≠ k) : ((s.setCap c).sealNoted id).cmd.pending.getLsbD k
        = s.cmd.pending.getLsbD k := pending_or_other _ other
    have first : ((s.setCap c).sealNoted id).cmd.pending.getLsbD 0 = true := by
      show (s.cmd.pending ||| BitVec.twoPow 14 0).getLsbD 0 = true
      simp
    have segment (j : SegId) : ((s.setCap c).sealNoted id).cap.segments[j]
        = if j = id then { s.cap.segments[id] with drainPending := false } else s.cap.segments[j] := by
      rw [← segments]
      exact set_get _ _ _ _
    have pool' : s.keepsPool ((s.setCap c).sealNoted id) := ⟨pool, pages, armed, threshold, raised 4 (by decide)⟩
    have cmd : s.drain.cmd = { s.cmd with pending := s.drain.cmd.pending } := by
      rw [eq, settlePort_eq]
      exact congrArg State.cmd (drained_movesPages (s.setCap c))
    have portIs : s.drain.cap.port = (if s.cap.port = .entering ∧ s.cap.read = none ∧ s.dsp.state ≠ .reading
        then .selfRefresh else s.cap.port) := by
      rw [port', noEntry, noAnnotation, port, read]
      simp only [true_and]
    by_cases unread : s.cap.segments[id].pins = 0
    · rw [if_pos unread] at drained
      obtain ⟨vacated, noticed⟩ := retireNow_vacated_of (s := s) (id := id) (w := (s.setCap c).sealNoted id)
        (fun j other => (segment j).trans (if_neg other)) (by rw [segment, if_pos rfl]) (by rw [segment, if_pos rfl]) pool'
      have kept := (retireNow_pending ((s.setCap c).sealNoted id) id (k := 0) (by decide) (by decide)).trans first
      refine ⟨_, exec_drainCompletion some_, ⟨staged.trans noEntry, annotations.trans noAnnotation⟩, ?_, portIs, cmd, trg, dec,
        dsp, fun _ => ?_, fun pinned => absurd unread pinned⟩
      · rw [eq, settlePort_eq, drained]
        exact kept
      · rw [eq, settlePort_eq, drained]
        exact ⟨vacated.of_after rfl ⟨rfl, rfl, rfl, rfl, rfl⟩, noticed⟩
    · rw [if_neg unread] at drained
      refine ⟨_, exec_drainCompletion some_, ⟨staged.trans noEntry, annotations.trans noAnnotation⟩, ?_, portIs, cmd, trg, dec,
        dsp, fun none_ => absurd none_ unread, fun _ => ?_⟩
      · rw [eq, settlePort_eq, drained]
        exact first
      · rw [eq, settlePort_eq, drained]
        refine ⟨?_, fun j other => ?_, pool, pages, rfl⟩
        · rw [← segments]
          exact set_set_get _ _ _
        · exact (setSegment_get _ _ _ _).trans ((if_neg other).trans ((segment j).trans (if_neg other)))

end Sys2Proof.Machine
end

section
/-! PROOFS. Requests on decoder contexts: CONTEXT_OPEN and CONTEXT_CLOSE (O41), CONTEXT_START (O43), CONTEXT_STOP and
CONTEXT_STATUS (O44). -/

namespace Sys2Proof.Machine

variable {s : State} {id : CtxId} {b : Byte} {body : CtxId → State → State × Response}

/-! ## The context a request names (R80) -/

theorem onContext_of_le (high : 16 ≤ b.toNat) : onContext b body s = (s, .only .badParam) := by
  unfold onContext
  rw [idOf_of_le b high]

theorem onContext_eq (named : b.toNat = id.val) : onContext b body s = body id s := by
  unfold onContext
  rw [idOf_eq b id named]

theorem onOpenContext_of_le (high : 16 ≤ b.toNat) : onOpenContext b body s = (s, .only .badParam) := onContext_of_le high

theorem onOpenContext_free (named : b.toNat = id.val) (free : s.dec.contexts[id].state = .free) :
    onOpenContext b body s = (s, .only .notFound) :=
  (onContext_eq named).trans (if_pos free)

theorem onOpenContext_used (named : b.toNat = id.val) (used : s.dec.contexts[id].state ≠ .free) :
    onOpenContext b body s = body id s :=
  (onContext_eq named).trans (if_neg used)

/-! ## CONTEXT_OPEN and CONTEXT_CLOSE (R81) -/

/-- Settles O41. -/
theorem contextOpenAndClose : Obligations.ContextOpenAndClose := by
  intro s b h
  have opening := after_contextOpen s .enough b
  have closing := after_contextClose s .enough b
  refine ⟨fun high => ⟨exec_of_body h opening (onContext_of_le high), exec_of_body h closing (onOpenContext_of_le high)⟩,
    fun id named => ⟨fun free => ?_, fun used => ?_, fun idle => ?_, fun free => ?_, fun busy => ?_⟩⟩
  · refine ⟨s.dec.contexts.set id { state := .idle },
      exec_of_body h opening ((onContext_eq named).trans (if_pos free)), set_set_get _ _ _,
      fun j other => (set_get _ _ _ _).trans (if_neg other), fun d is => ?_⟩
    rw [set_set_get] at is
    subst is
    decide
  · exact exec_of_body h opening ((onContext_eq named).trans (if_neg used))
  · have used : s.dec.contexts[id].state ≠ .free := by rw [idle]; nofun
    exact ⟨s.dec.contexts.set id {}, exec_of_body h closing ((onOpenContext_used named used).trans (if_pos idle)),
      set_set_get _ _ _, fun j other => (set_get _ _ _ _).trans (if_neg other)⟩
  · exact exec_of_body h closing (onOpenContext_free named free)
  · have used : s.dec.contexts[id].state ≠ .free ∧ s.dec.contexts[id].state ≠ .idle := by
      rcases busy with ⟨reason, is⟩ | is <;> rw [is] <;> exact ⟨nofun, nofun⟩
    exact exec_of_body h closing ((onOpenContext_used named used.1).trans (if_neg used.2))

/-! ## CONTEXT_START (R84) -/

theorem Context.decodesAt_full (c : Context) : c.decodesAt .full = true := by
  unfold Context.decodesAt AsyncSettings.decodesAt
  split <;> rfl

/-- Settles O43. -/
theorem contextStartEntersTheStateOfItsTable : Obligations.ContextStartEntersTheStateOfItsTable := by
  intro s b h
  have starting := after_contextStart s .enough b
  refine ⟨fun high => exec_of_body h starting (onOpenContext_of_le high), fun id c named is => ⟨fun free => ?_,
    fun used wrong => ?_, fun idle configured => ?_⟩⟩
  · exact exec_of_body h starting (onOpenContext_free named (is ▸ free))
  · refine exec_of_body h starting ((onOpenContext_used named (is ▸ used)).trans (if_pos ?_))
    rw [← is] at wrong
    exact wrong
  · have used : s.dec.contexts[id].state ≠ .free := by rw [is, idle]; nofun
    have ready : ¬ (s.dec.contexts[id].state ≠ .idle ∨ s.dec.contexts[id].protocol = none) := by
      rw [is]
      exact not_or.mpr ⟨not_not_intro idle, configured⟩
    have started := exec_of_body h starting ((onOpenContext_used named used).trans (if_neg ready))
    have rest : c.initEngine s.dec.level = { c with
        asyncEngine := (c.initEngine s.dec.level).asyncEngine, clockedEngine := (c.initEngine s.dec.level).clockedEngine
        flashEngine := (c.initEngine s.dec.level).flashEngine, twoWireEngine := (c.initEngine s.dec.level).twoWireEngine
        fresh := (c.initEngine s.dec.level).fresh, started := (c.initEngine s.dec.level).started } := by
      unfold Context.initEngine
      dsimp only
      split <;> rfl
    refine ⟨{ c.initEngine s.dec.level with afterGap := s.dec.gap, state := s.startedState c }, is ▸ started, ?_,
      fun standby => ?_, fun economy async slow => ?_, fun awake => ?_, fun async => ?_, fun clocked => ?_, fun flash => ?_,
      fun twoWire => ?_⟩
    · generalize c.initEngine s.dec.level = d at *
      rw [rest]
    · exact if_pos standby
    · show s.startedState c = _
      unfold State.startedState
      rw [economy, (c.decodesAt_economy).mpr ⟨async, slow⟩]
      rfl
    · show s.startedState c = _
      have decodes : s.dec.level ≠ .standby ∧ c.decodesAt s.dec.level = true := by
        rcases awake with full | ⟨economy, fits⟩
        · rw [full]
          exact ⟨nofun, c.decodesAt_full⟩
        · rw [economy]
          exact ⟨nofun, by rwa [← c.decodesAt_economy, Bool.not_eq_false] at fits⟩
      unfold State.startedState
      rw [if_neg decodes.1, decodes.2]
      unfold Cal.isActive
      cases s.cal.state <;> rfl
    · show (c.initEngine s.dec.level).asyncEngine = _
      unfold Context.initEngine AsyncEngine.start AsyncSettings.clampPeriod AsyncSettings.windowLow
      dsimp only
      rw [async]
      cases s.dec.level <;> rfl
    · show (c.initEngine s.dec.level).clockedEngine = _
      unfold Context.initEngine
      dsimp only
      rw [clocked]
    · show (c.initEngine s.dec.level).flashEngine = _
      unfold Context.initEngine
      dsimp only
      rw [flash]
    · show (c.initEngine s.dec.level).twoWireEngine = _
      unfold Context.initEngine
      dsimp only
      rw [twoWire]

/-! ## CONTEXT_STOP and CONTEXT_STATUS (R85, R86) -/

theorem bodyContextStop_idle (idle : s.dec.contexts[id].state = .idle) : bodyContextStop id s = (s, .only .wrongState) := by
  have state : (s.context id).state = .idle := idle
  unfold bodyContextStop
  rw [state]

theorem bodyContextStop_started
    (started : s.dec.contexts[id].state = .running ∨ ∃ reason, s.dec.contexts[id].state = .suspended reason) :
    bodyContextStop id s
      = (s.setContext id { s.dec.contexts[id].discardUnit with afterGap := false, state := .idle }, .only .ok) := by
  unfold bodyContextStop
  rcases started with is | ⟨reason, is⟩
  · have state : (s.context id).state = .running := is
    rw [state]
    rfl
  · have state : (s.context id).state = .suspended reason := is
    rw [state]
    rfl

theorem Context.discardUnit_rest (c : Context) : c.discardUnit = { c with
    asyncEngine := c.discardUnit.asyncEngine, clockedEngine := c.discardUnit.clockedEngine
    flashEngine := c.discardUnit.flashEngine, twoWireEngine := c.discardUnit.twoWireEngine
    fresh := c.discardUnit.fresh } := by
  unfold Context.discardUnit Context.gap
  split
  · rfl
  · split <;> rfl
  · split <;> rfl
  · split <;> rfl
  · rfl

/-- R85: the partial unit of an ASYNC engine alone is discarded. -/
theorem AsyncEngine.discard_spec (e : AsyncEngine) : e.discard.phase ≠ .frame ∧ e.discard.phase ≠ .breakWait
    ∧ e.discard.tracker = e.tracker ∧ e.discard.period = e.period := by
  unfold AsyncEngine.discard
  cases phase : e.phase <;> simp [phase]

/-- R138: the phase of the transfer in progress, where one is. -/
def FlashPhase.transferPhase : FlashPhase → Option TransferPhase
  | .transfer t => some t.phase
  | .waiting | .resync => none

/-- Settles O44. -/
theorem contextStopAndStatus : Obligations.ContextStopAndStatus := by
  intro s b h
  have stopping := after_contextStop s .enough b
  have asking := after_contextStatus s .enough b
  refine ⟨fun high => ⟨exec_of_body h stopping (onOpenContext_of_le high), exec_of_body h asking (onOpenContext_of_le high)⟩,
    fun id c named is => ⟨fun free => ?_, fun idle => ?_, fun started => ?_, fun used => ?_⟩⟩
  · rw [← is] at free
    exact ⟨exec_of_body h stopping (onOpenContext_free named free), exec_of_body h asking (onOpenContext_free named free)⟩
  · rw [← is] at idle
    exact exec_of_body h stopping ((onOpenContext_used named (by rw [idle]; nofun)).trans (bodyContextStop_idle idle))
  · rw [← is] at started
    have used : s.dec.contexts[id].state ≠ .free := by
      rcases started with is | ⟨reason, is⟩ <;> rw [is] <;> nofun
    have stopped := exec_of_body h stopping ((onOpenContext_used named used).trans (bodyContextStop_started started))
    rw [is] at stopped
    refine ⟨_, stopped, ?_, fun async => ?_, fun clocked => ?_, fun flash => ?_, ?_, fun twoWire => ?_⟩
    · exact congrArg (fun d : Context => { d with afterGap := false, state := .idle }) c.discardUnit_rest
    · have engine : c.discardUnit.asyncEngine = c.asyncEngine.discard := by
        unfold Context.discardUnit
        rw [async]
      show c.discardUnit.asyncEngine.phase ≠ _ ∧ c.discardUnit.asyncEngine.phase ≠ _
        ∧ c.discardUnit.asyncEngine.tracker = _ ∧ c.discardUnit.asyncEngine.period = _
      rw [engine]
      exact c.asyncEngine.discard_spec
    · have engine : c.discardUnit.clockedEngine = {} := by
        unfold Context.discardUnit Context.gap
        rw [clocked]
        rfl
      show c.discardUnit.clockedEngine.outBits = _ ∧ c.discardUnit.clockedEngine.phase = _
      rw [engine]
      exact ⟨rfl, rfl⟩
    · show c.discardUnit.flashEngine.phase = _
      unfold Context.discardUnit Context.gap
      rw [flash]
      rfl
    · show c.discardUnit.flashEngine.model = _
      unfold Context.discardUnit Context.gap
      cases c.protocol with
      | none => rfl
      | some p => cases p <;> rfl
    · have engine : c.discardUnit.twoWireEngine = c.twoWireEngine.gap := by
        unfold Context.discardUnit Context.gap
        rw [twoWire]
      show c.discardUnit.twoWireEngine.bytes = _ ∧ c.discardUnit.twoWireEngine.state ≠ _
        ∧ c.discardUnit.twoWireEngine.state ≠ _
      rw [engine]
      unfold TwoWireEngine.gap
      cases c.twoWireEngine.state <;> exact ⟨rfl, nofun, nofun⟩
  · rw [← is] at used
    have told := exec_of_body h asking ((onOpenContext_used named used).trans rfl)
    rw [show s.context id = c from is] at told
    refine ⟨c.engineReport, told, fun none_ => ?_, fun async => ?_, fun clocked => ?_, fun flash => ?_, fun twoWire => ?_⟩
    · unfold Context.engineReport
      rw [none_]
    · unfold Context.engineReport
      rw [async]
      rfl
    · unfold Context.engineReport
      rw [clocked]
    · refine ⟨c.flashEngine.model.continuation.map (·.opcode), c.flashEngine.phase == .resync,
        c.flashEngine.phase.transferPhase, ?_, fun none_ => ?_,
        fun d is => ?_, by simp, fun t is => ?_, fun quiet => ?_⟩
      · unfold Context.engineReport
        rw [flash]
        rfl
      · rw [none_]
        rfl
      · rw [is]
        rfl
      · rw [is]
        rfl
      · rcases quiet with is | is <;> rw [is] <;> rfl
    · unfold Context.engineReport
      rw [twoWire]
      dsimp only
      cases c.twoWireEngine.hold <;> rfl

end Sys2Proof.Machine
end

section
/-! PROOFS. QUEUE_ACK_GAP (O48) and CONTEXT_CONFIGURE (O42). -/

namespace Sys2Proof.Machine

variable {s : State}

/-! ## QUEUE_ACK_GAP (R100) -/

/-- R97: a record appended. -/
theorem queuePush_eq (s : State) (r : Record) : s.queuePush r = { s with
    dec := { s.dec with queue := s.dec.queue ++ [r], armed := decide (s.dec.queue.length + 1 < s.dec.threshold) }
    cmd := { s.cmd with pending := if s.dec.armed ∧ s.dec.threshold ≤ s.dec.queue.length + 1
        then s.cmd.pending ||| BitVec.twoPow 14 5 else s.cmd.pending } } := by
  unfold State.queuePush
  rw [State.checkQueue_eq]
  simp only [State.setDec, List.length_append, List.length_singleton]

/-- Settles O48. -/
theorem queueAckGapAppendsTheGap : Obligations.QueueAckGapAppendsTheGap := by
  intro s h
  have entry := after_queueAckGap s
  refine ⟨fun isOpen => exec_of_body h entry (if_pos isOpen), fun closed full => ?_, fun x closed room span => ?_⟩
  · have closed : ¬ s.dec.isOpen = true := by simp [closed]
    exact exec_of_body h entry ((if_neg closed).trans (if_pos full))
  · have closed : ¬ s.dec.isOpen = true := by simp [closed]
    have room : ¬ Config.queueDepth ≤ s.dec.queue.length := Nat.not_le.mpr room
    have done_ := exec_of_body h entry ((if_neg closed).trans (if_neg room))
    refine ⟨gapRecord x s.dec.lost, decide (s.dec.queue.length + 1 < s.dec.threshold),
      if s.dec.armed ∧ s.dec.threshold ≤ s.dec.queue.length + 1 then s.cmd.pending ||| BitVec.twoPow 14 5 else s.cmd.pending,
      rfl, rfl, rfl, rfl, rfl, rfl, rfl, rfl, ?_, fun reached => ⟨decide_eq_false (Nat.not_lt.mpr reached), ?_⟩,
      fun below => ⟨decide_eq_true below, if_neg fun both => absurd both.2 (Nat.not_le.mpr below)⟩⟩
    · rw [done_]
      unfold State.acknowledgeGap
      dsimp only
      rw [span, queuePush_eq]
      rfl
    · simp only [reached, and_true]

/-! ## Parameters of CONTEXT_CONFIGURE (R82) -/

/-- A lane's byte and the channel it names. -/
theorem laneOf_of {given : LaneParam} {channel : Option Chan} (named : given.map BitVec.toNat = channel.map Fin.val) :
    laneOf given = some channel := by
  cases given with
  | none =>
    cases channel with
    | none => rfl
    | some c => cases named
  | some x =>
    cases channel with
    | none => cases named
    | some c =>
      show (idOf 32 x).map some = some (some c)
      rw [idOf_eq x c (Option.some.inj named)]
      rfl

theorem laneOf_of_le {x : Byte} (high : 32 ≤ x.toNat) : laneOf (some x) = none := by
  show (idOf 32 x).map some = none
  rw [idOf_of_le x high]
  rfl

theorem requiredLane_of {x : Byte} {channel : Chan} (named : x.toNat = channel.val) : requiredLane (some x) = some channel := by
  unfold requiredLane
  rw [laneOf_of (channel := some channel) (given := some x) (congrArg some named)]
  rfl

theorem requiredLane_none : requiredLane none = none := rfl

theorem requiredLane_of_le {x : Byte} (high : 32 ≤ x.toNat) : requiredLane (some x) = none := by
  unfold requiredLane
  rw [laneOf_of_le high]
  rfl

/-- R101: ASYNC settings accepted. -/
theorem acceptAsync_iff (p : AsyncParams) (a : AsyncSettings) : acceptAsync p = some a ↔
    ∃ parity polarity mode, p.parity = some parity ∧ p.polarity = some polarity ∧ p.mode = some mode
      ∧ clamp 1024 268435455 p.lower ≤ clamp 1024 268435455 p.upper
      ∧ (∀ x, p.filterAddress = some x → p.addressMark = true ∧ x < 2 ^ clamp 5 9 p.dataBits)
      ∧ a = ⟨clamp 5 9 p.dataBits, parity, clamp 1 2 p.stopBits, polarity, p.addressMark, p.filterAddress,
          clamp 1 255 p.idleLength, mode, clamp 1024 268435455 p.nominal, clamp 1024 268435455 p.lower,
          clamp 1024 268435455 p.upper⟩ := by
  have filter : (match p.filterAddress with
      | none => true
      | some a => p.addressMark && decide (a < 2 ^ clamp 5 9 p.dataBits)) = true
      ↔ ∀ x, p.filterAddress = some x → p.addressMark = true ∧ x < 2 ^ clamp 5 9 p.dataBits := by
    cases p.filterAddress <;> simp
  unfold acceptAsync
  simp only [Option.bind_eq_bind, Option.bind_eq_some_iff, Option.ite_none_left_eq_some, Option.ite_none_right_eq_some,
    Nat.not_lt, Option.some.injEq]
  constructor
  · rintro ⟨parity, isParity, polarity, isPolarity, mode, isMode, bounds, ok, rfl⟩
    exact ⟨parity, polarity, mode, isParity, isPolarity, isMode, bounds, filter.mp ok, rfl⟩
  · rintro ⟨parity, polarity, mode, isParity, isPolarity, isMode, bounds, ok, rfl⟩
    exact ⟨parity, isParity, polarity, isPolarity, mode, isMode, bounds, filter.mpr ok, rfl⟩

/-- R120: CLOCKED settings accepted. -/
theorem acceptClocked_iff (p : ClockedParams) (a : ClockedSettings) : acceptClocked p = some a ↔
    ∃ edge polarity order idle, p.edge = some edge ∧ p.selectPolarity = some polarity ∧ p.bitOrder = some order
      ∧ p.idleLevel = some idle ∧ a = ⟨edge, polarity, clamp 4 32 p.wordLength, order, idle, clamp 1 16777215 p.gapTimeout⟩ := by
  unfold acceptClocked
  simp only [Option.bind_eq_bind, Option.bind_eq_some_iff, Option.some.injEq]
  constructor
  · rintro ⟨edge, isEdge, polarity, isPolarity, order, isOrder, idle, isIdle, rfl⟩
    exact ⟨edge, polarity, order, idle, isEdge, isPolarity, isOrder, isIdle, rfl⟩
  · rintro ⟨edge, polarity, order, idle, isEdge, isPolarity, isOrder, isIdle, rfl⟩
    exact ⟨edge, isEdge, polarity, isPolarity, order, isOrder, idle, isIdle, rfl⟩

/-- R126: FLASH settings accepted. -/
theorem acceptFlash_iff (p : FlashParams) (a : FlashSettings) : acceptFlash p = some a ↔
    ∃ set, p.set = some set ∧ p.busyBit ≤ 7 ∧ p.enableBit ≤ 7
      ∧ a = ⟨set, clamp 4 12 p.pageExponent, p.busyBit, p.enableBit⟩ := by
  unfold acceptFlash
  simp only [Option.bind_eq_bind, Option.bind_eq_some_iff, Option.ite_none_right_eq_some, Option.some.injEq]
  constructor
  · rintro ⟨set, isSet, ⟨busy, enable⟩, rfl⟩
    exact ⟨set, isSet, busy, enable, rfl⟩
  · rintro ⟨set, isSet, busy, enable, rfl⟩
    exact ⟨set, isSet, ⟨busy, enable⟩, rfl⟩

/-- Table 9-1: filter entries accepted together. -/
theorem filterEntries_eq (es : List (Nat × Nat)) : filterEntries es
    = if ∀ e ∈ es, e.1 ≤ 127 ∧ e.2 ≤ 127 then some (es.map fun e => (BitVec.ofNat 7 e.1, BitVec.ofNat 7 e.2)) else none := by
  induction es with
  | nil => rfl
  | cons e es ih =>
    unfold filterEntries filterEntry
    rw [ih]
    simp only [List.forall_mem_cons]
    by_cases here : e.1 ≤ 127 ∧ e.2 ≤ 127
    · by_cases rest : ∀ e ∈ es, e.1 ≤ 127 ∧ e.2 ≤ 127
      · rw [if_pos here, if_pos rest, if_pos ⟨here, rest⟩]
        rfl
      · rw [if_pos here, if_neg rest, if_neg fun both => rest both.2]
    · have refused : ¬ ((e.1 ≤ 127 ∧ e.2 ≤ 127) ∧ ∀ e ∈ es, e.1 ≤ 127 ∧ e.2 ≤ 127) := fun both => here both.1
      rw [if_neg here, if_neg refused]

/-- R140: TWO_WIRE settings accepted. -/
theorem acceptTwoWire_iff (p : TwoWireParams) (a : TwoWireSettings) : acceptTwoWire p = some a ↔
    p.filter.length ≤ 4 ∧ (∀ e ∈ p.filter, e.1 ≤ 127 ∧ e.2 ≤ 127)
      ∧ a = ⟨p.filter.map fun e => (BitVec.ofNat 7 e.1, BitVec.ofNat 7 e.2), clamp 1 16777215 p.clockLow,
        min p.stretchLimit (2 ^ 32 - 1), clamp 1 (2 ^ 32 - 1) p.stuckLimit, clamp 1 16777215 p.busFree⟩ := by
  unfold acceptTwoWire
  simp only [filterEntries_eq, Option.ite_none_left_eq_some, Option.map_eq_some_iff, Option.ite_none_right_eq_some,
    Option.some.injEq, gt_iff_lt, Nat.not_lt]
  constructor
  · rintro ⟨few, _, ⟨ok, rfl⟩, rfl⟩
    exact ⟨few, ok, rfl⟩
  · rintro ⟨few, ok, rfl⟩
    exact ⟨few, _, ⟨ok, rfl⟩, rfl⟩

/-! ## Protocols accepted (R82, Table 6-4) -/

theorem distinctLanes_clocked (clock out : Chan) (select inn : Option Chan) :
    distinctLanes { clock := some clock, out := some out, select := select, inn := inn } = true
      ↔ ([some clock, some out, select, inn].filterMap id).Nodup := by
  unfold distinctLanes
  cases select <;> cases inn <;> exact decide_eq_true_iff

theorem distinctLanes_flash (clock select d0 d1 : Chan) (d2 d3 : Option Chan) :
    distinctLanes { clock := some clock, select := some select, d0 := some d0, d1 := some d1, d2 := d2, d3 := d3 } = true
      ↔ ([some clock, some select, some d0, some d1, d2, d3].filterMap id).Nodup := by
  unfold distinctLanes
  cases d2 <;> cases d3 <;> exact decide_eq_true_iff

theorem distinctLanes_twoWire (clock data : Chan) :
    distinctLanes { clock := some clock, data := some data } = true ↔ clock ≠ data := by
  unfold distinctLanes
  refine decide_eq_true_iff.trans ?_
  show [data, clock].Nodup ↔ _
  simp [eq_comm]

theorem acceptProtocol_async (x : LaneParam) (p : AsyncParams) (k : Configured) :
    acceptProtocol (.async x p) = some k ↔ ∃ data a, requiredLane x = some data ∧ acceptAsync p = some a
      ∧ k = { protocol := .async, lanes := { data := some data }, async := some a } := by
  simp only [acceptProtocol, Option.bind_eq_bind, Option.bind_eq_some_iff, Option.some.injEq]
  constructor
  · rintro ⟨data, isData, a, isA, rfl⟩
    exact ⟨data, a, isData, isA, rfl⟩
  · rintro ⟨data, a, isData, isA, rfl⟩
    exact ⟨data, isData, a, isA, rfl⟩

theorem acceptProtocol_clocked (c o i n : LaneParam) (p : ClockedParams) (k : Configured) :
    acceptProtocol (.clocked c o i n p) = some k ↔ ∃ clock out select inn a, requiredLane c = some clock
      ∧ requiredLane o = some out ∧ laneOf i = some select ∧ laneOf n = some inn ∧ acceptClocked p = some a
      ∧ ([some clock, some out, select, inn].filterMap id).Nodup
      ∧ k = { protocol := .clocked, lanes := { clock := some clock, out := some out, select := select, inn := inn }
              clocked := some a } := by
  simp only [acceptProtocol, Option.bind_eq_bind, Option.bind_eq_some_iff, Option.ite_none_right_eq_some,
    distinctLanes_clocked, Option.some.injEq]
  constructor
  · rintro ⟨clock, isClock, out, isOut, select, isSelect, inn, isInn, a, isA, distinct, rfl⟩
    exact ⟨clock, out, select, inn, a, isClock, isOut, isSelect, isInn, isA, distinct, rfl⟩
  · rintro ⟨clock, out, select, inn, a, isClock, isOut, isSelect, isInn, isA, distinct, rfl⟩
    exact ⟨clock, isClock, out, isOut, select, isSelect, inn, isInn, a, isA, distinct, rfl⟩

theorem acceptProtocol_flash (c i z o v w : LaneParam) (p : FlashParams) (k : Configured) :
    acceptProtocol (.flash c i z o v w p) = some k ↔ ∃ clock select d0 d1 d2 d3 a, requiredLane c = some clock
      ∧ requiredLane i = some select ∧ requiredLane z = some d0 ∧ requiredLane o = some d1 ∧ laneOf v = some d2
      ∧ laneOf w = some d3 ∧ acceptFlash p = some a
      ∧ ([some clock, some select, some d0, some d1, d2, d3].filterMap id).Nodup
      ∧ k = { protocol := .flash, lanes := { clock := some clock, select := some select, d0 := some d0, d1 := some d1,
                                             d2 := d2, d3 := d3 }
              flash := some a } := by
  simp only [acceptProtocol, Option.bind_eq_bind, Option.bind_eq_some_iff, Option.ite_none_right_eq_some,
    distinctLanes_flash, Option.some.injEq]
  constructor
  · rintro ⟨clock, isClock, select, isSelect, d0, is0, d1, is1, d2, is2, d3, is3, a, isA, distinct, rfl⟩
    exact ⟨clock, select, d0, d1, d2, d3, a, isClock, isSelect, is0, is1, is2, is3, isA, distinct, rfl⟩
  · rintro ⟨clock, select, d0, d1, d2, d3, a, isClock, isSelect, is0, is1, is2, is3, isA, distinct, rfl⟩
    exact ⟨clock, isClock, select, isSelect, d0, is0, d1, is1, d2, is2, d3, is3, a, isA, distinct, rfl⟩

theorem acceptProtocol_twoWire (c d : LaneParam) (p : TwoWireParams) (k : Configured) :
    acceptProtocol (.twoWire c d p) = some k ↔ ∃ clock data a, requiredLane c = some clock ∧ requiredLane d = some data
      ∧ acceptTwoWire p = some a ∧ clock ≠ data
      ∧ k = { protocol := .twoWire, lanes := { clock := some clock, data := some data }, twoWire := some a } := by
  simp only [acceptProtocol, Option.bind_eq_bind, Option.bind_eq_some_iff, Option.ite_none_right_eq_some,
    distinctLanes_twoWire, Option.some.injEq]
  constructor
  · rintro ⟨clock, isClock, data, isData, a, isA, distinct, rfl⟩
    exact ⟨clock, data, a, isClock, isData, isA, distinct, rfl⟩
  · rintro ⟨clock, data, a, isClock, isData, isA, distinct, rfl⟩
    exact ⟨clock, isClock, data, isData, a, isA, distinct, rfl⟩

/-- A refusal of a protocol whose acceptance is impossible. -/
theorem acceptProtocol_refused {p : ProtocolParams} (no : ∀ k, acceptProtocol p ≠ some k) : acceptProtocol p = none :=
  Option.eq_none_iff_forall_ne_some.mpr no

/-! ## CONTEXT_CONFIGURE (R82, R94) -/

theorem bodyContextConfigure_used {id : CtxId} {params : ConfigureParams} (used : s.dec.contexts[id].state ≠ .idle) :
    bodyContextConfigure params id s = (s, .only .wrongState) := if_pos used

theorem bodyContextConfigure_refused {id : CtxId} {params : ConfigureParams} (idle : s.dec.contexts[id].state = .idle)
    (refused : acceptProtocol params.protocol = none) : bodyContextConfigure params id s = (s, .only .badParam) := by
  unfold bodyContextConfigure
  rw [if_neg (show ¬ (s.context id).state ≠ .idle from not_not_intro idle), refused]

/-- R82, R94: a taken CONTEXT_CONFIGURE. -/
theorem bodyContextConfigure_taken {id : CtxId} {params : ConfigureParams} {k : Configured}
    (idle : s.dec.contexts[id].state = .idle) (taken : acceptProtocol params.protocol = some k) :
    bodyContextConfigure params id s
      = (if s.dec.contexts[id].armed = true ∧ clamp 1 65535 params.errorThreshold ≤ s.dec.contexts[id].errors
          then (s.setContext id { s.dec.contexts[id].configured k params with
            armed := decide (s.dec.contexts[id].errors < clamp 1 65535 params.errorThreshold) }).raiseError
              (BitVec.twoPow 16 id.val)
          else s.setContext id { s.dec.contexts[id].configured k params with
            armed := decide (s.dec.contexts[id].errors < clamp 1 65535 params.errorThreshold) }, .only .ok) := by
  unfold bodyContextConfigure
  rw [if_neg (show ¬ (s.context id).state ≠ .idle from not_not_intro idle), taken]
  dsimp only
  rw [Context.checkErrors_eq]
  simp only [Bool.and_eq_true, decide_eq_true_eq]
  rfl

/-- Settles O42. -/
theorem contextConfigureClampsAndRefuses : Obligations.ContextConfigureClampsAndRefuses := by
  refine ⟨fun s b params h => ?_, fun x data p parity polarity mode named isParity isPolarity isMode bounds filter => ?_,
    fun x y givenSelect givenIn clock out select inn p isClock isOut isSelect isIn => ⟨fun edge polarity order idle distinct
      isEdge isPolarity isOrder isIdle => ?_, fun repeated => acceptProtocol_refused fun k taken => ?_⟩,
    fun w x y z given2 given3 clock select d0 d1 d2 d3 p isClock isSelect is0 is1 is2 is3 => ⟨fun set distinct isSet busy
      enable => ?_, fun repeated => acceptProtocol_refused fun k taken => ?_⟩,
    fun x y clock data p isClock isData distinct few masks => ?_, rfl, fun p => rfl,
    fun x p high => acceptProtocol_refused fun k taken => ?_, fun x p crossed => acceptProtocol_refused fun k taken => ?_,
    fun x p => ⟨rfl, ?_, acceptProtocol_refused fun k taken => ?_⟩,
    fun x y p many => acceptProtocol_refused fun k taken => ?_, fun x y z p => ⟨rfl, ?_⟩,
    fun w x y z v p => ⟨rfl, ?_, ?_, ?_⟩, fun b u v w x y p q r high => ⟨⟨?_, ?_, ?_, ?_⟩, ⟨?_, ?_, ?_, ?_, ?_, ?_⟩, ?_, ?_⟩,
    fun x p outside => acceptProtocol_refused fun k taken => ?_,
    fun w x y z p outside => acceptProtocol_refused fun k taken => ?_,
    fun u v w x y z p outside => acceptProtocol_refused fun k taken => ?_,
    fun x y p outside => acceptProtocol_refused fun k taken => ?_⟩
  · have entry := after_contextConfigure s .enough b params
    refine ⟨fun high => exec_of_body h entry (onOpenContext_of_le high), fun id c named is => ⟨fun free => ?_,
      fun used busy => ?_, fun idle refused => ?_, fun idle k taken => ?_⟩⟩
    · exact exec_of_body h entry (onOpenContext_free named (is ▸ free))
    · exact exec_of_body h entry ((onOpenContext_used named (is ▸ used)).trans (bodyContextConfigure_used (is ▸ busy)))
    · have idle : s.dec.contexts[id].state = .idle := is ▸ idle
      exact exec_of_body h entry
        ((onOpenContext_used named (by rw [idle]; nofun)).trans (bodyContextConfigure_refused idle refused))
    · have idle : s.dec.contexts[id].state = .idle := is ▸ idle
      have done_ := exec_of_body h entry
        ((onOpenContext_used named (by rw [idle]; nofun)).trans (bodyContextConfigure_taken idle taken))
      rw [is] at done_
      have engines : (k.protocol = .flash → (c.configured k params).flashEngine = c.flashEngine)
          ∧ (c.protocol = some .flash → k.protocol ≠ .flash → (c.configured k params).flashEngine.model = {}) := by
        refine ⟨fun flash => if_neg fun both => both.2 flash, fun was other => ?_⟩
        show (if c.protocol = some .flash ∧ k.protocol ≠ .flash then ({} : FlashEngine) else c.flashEngine).model = {}
        rw [if_pos ⟨was, other⟩]
      obtain ⟨d, isD⟩ : ∃ d, ({ c.configured k params with
          armed := decide (c.errors < clamp 1 65535 params.errorThreshold) } : Context) = d := ⟨_, rfl⟩
      have fields : d = { c with
          protocol := some k.protocol, lanes := k.lanes, report := params.report, annotate := params.annotate
          errorThreshold := min (max params.errorThreshold 1) 65535
          armed := decide (c.errors < min (max params.errorThreshold 1) 65535)
          asyncSettings := k.async.getD c.asyncSettings, clockedSettings := k.clocked.getD c.clockedSettings
          flashSettings := k.flash.getD c.flashSettings, twoWireSettings := k.twoWire.getD c.twoWireSettings
          asyncEngine := d.asyncEngine, flashEngine := d.flashEngine } := by
        rw [← isD]
        rfl
      have flash : d.flashEngine = (c.configured k params).flashEngine := by rw [← isD]
      rw [← flash] at engines
      rw [isD] at done_
      have reached : clamp 1 65535 params.errorThreshold = min (max params.errorThreshold 1) 65535 := rfl
      rw [reached] at done_
      obtain ⟨all, isAll⟩ : ∃ all, s.dec.contexts.set id d = all := ⟨_, rfl⟩
      have here : all[id] = d := isAll ▸ set_set_get _ _ _
      have others (j : CtxId) (other : j ≠ id) : all[j] = s.dec.contexts[j] :=
        isAll ▸ (set_get _ _ _ _).trans (if_neg other)
      unfold State.setContext at done_
      rw [isAll] at done_
      rw [← here] at fields engines
      by_cases raised : c.armed = true ∧ min (max params.errorThreshold 1) 65535 ≤ c.errors
      · rw [if_pos raised, State.raiseError_eq, if_neg (twoPow_ne_zero (w := 16) id)] at done_
        refine ⟨_, done_, rfl, others, fields, engines.1, engines.2, ?_⟩
        rw [if_pos raised]
        exact ⟨rfl, rfl⟩
      · rw [if_neg raised] at done_
        refine ⟨_, done_, rfl, others, fields, engines.1, engines.2, ?_⟩
        rw [if_neg raised]
        exact ⟨rfl, rfl⟩
  · exact (acceptProtocol_async _ _ _).mpr ⟨data, _, requiredLane_of named, (acceptAsync_iff _ _).mpr
      ⟨parity, polarity, mode, isParity, isPolarity, isMode, bounds, filter, rfl⟩, rfl⟩
  · exact (acceptProtocol_clocked _ _ _ _ _ _).mpr ⟨clock, out, select, inn, _, requiredLane_of isClock, requiredLane_of isOut,
      laneOf_of isSelect, laneOf_of isIn, (acceptClocked_iff _ _).mpr
        ⟨edge, polarity, order, idle, isEdge, isPolarity, isOrder, isIdle, rfl⟩, distinct, rfl⟩
  · obtain ⟨clock', out', select', inn', a, isClock', isOut', isSelect', isIn', -, distinct, -⟩ :=
      (acceptProtocol_clocked _ _ _ _ _ _).mp taken
    rw [requiredLane_of isClock] at isClock'
    rw [requiredLane_of isOut] at isOut'
    rw [laneOf_of isSelect] at isSelect'
    rw [laneOf_of isIn] at isIn'
    cases isClock'
    cases isOut'
    cases isSelect'
    cases isIn'
    exact repeated distinct
  · exact (acceptProtocol_flash _ _ _ _ _ _ _ _).mpr ⟨clock, select, d0, d1, d2, d3, _, requiredLane_of isClock,
      requiredLane_of isSelect, requiredLane_of is0, requiredLane_of is1, laneOf_of is2, laneOf_of is3,
      (acceptFlash_iff _ _).mpr ⟨set, isSet, busy, enable, rfl⟩, distinct, rfl⟩
  · obtain ⟨clock', select', d0', d1', d2', d3', a, isClock', isSelect', is0', is1', is2', is3', -, distinct, -⟩ :=
      (acceptProtocol_flash _ _ _ _ _ _ _ _).mp taken
    rw [requiredLane_of isClock] at isClock'
    rw [requiredLane_of isSelect] at isSelect'
    rw [requiredLane_of is0] at is0'
    rw [requiredLane_of is1] at is1'
    rw [laneOf_of is2] at is2'
    rw [laneOf_of is3] at is3'
    cases isClock'
    cases isSelect'
    cases is0'
    cases is1'
    cases is2'
    cases is3'
    exact repeated distinct
  · exact (acceptProtocol_twoWire _ _ _ _).mpr ⟨clock, data, _, requiredLane_of isClock, requiredLane_of isData,
      (acceptTwoWire_iff _ _).mpr ⟨few, masks, rfl⟩, distinct, rfl⟩
  · obtain ⟨_, _, named, -⟩ := (acceptProtocol_async _ _ _).mp taken
    rw [requiredLane_of_le high] at named
    cases named
  · obtain ⟨_, _, -, accepted, -⟩ := (acceptProtocol_async _ _ _).mp taken
    obtain ⟨_, _, _, -, -, -, bounds, -⟩ := (acceptAsync_iff _ _).mp accepted
    exact absurd crossed (Nat.not_lt.mpr bounds)
  · exact acceptProtocol_refused fun k taken => by
      obtain ⟨_, _, _, -, named, -⟩ := (acceptProtocol_twoWire _ _ _ _).mp taken
      cases named
  · obtain ⟨_, _, _, one, other, -, apart, -⟩ := (acceptProtocol_twoWire _ _ _ _).mp taken
    exact apart (Option.some.inj (one.symm.trans other))
  · obtain ⟨_, _, _, -, -, accepted, -⟩ := (acceptProtocol_twoWire _ _ _ _).mp taken
    exact absurd many (Nat.not_lt.mpr ((acceptTwoWire_iff _ _).mp accepted).1)
  · exact acceptProtocol_refused fun k taken => by
      obtain ⟨_, _, _, _, _, -, named, -⟩ := (acceptProtocol_clocked _ _ _ _ _ _).mp taken
      cases named
  · exact acceptProtocol_refused fun k taken => by
      obtain ⟨_, _, _, _, _, _, _, -, named, -⟩ := (acceptProtocol_flash _ _ _ _ _ _ _ _).mp taken
      cases named
  · exact acceptProtocol_refused fun k taken => by
      obtain ⟨_, _, _, _, _, _, _, -, -, named, -⟩ := (acceptProtocol_flash _ _ _ _ _ _ _ _).mp taken
      cases named
  · exact acceptProtocol_refused fun k taken => by
      obtain ⟨_, _, _, _, _, _, _, -, -, -, named, -⟩ := (acceptProtocol_flash _ _ _ _ _ _ _ _).mp taken
      cases named
  · exact acceptProtocol_refused fun k taken => by
      obtain ⟨_, _, _, _, _, named, -⟩ := (acceptProtocol_clocked _ _ _ _ _ _).mp taken
      rw [requiredLane_of_le high] at named
      cases named
  · exact acceptProtocol_refused fun k taken => by
      obtain ⟨_, _, _, _, _, -, named, -⟩ := (acceptProtocol_clocked _ _ _ _ _ _).mp taken
      rw [requiredLane_of_le high] at named
      cases named
  · exact acceptProtocol_refused fun k taken => by
      obtain ⟨_, _, _, _, _, -, -, named, -⟩ := (acceptProtocol_clocked _ _ _ _ _ _).mp taken
      rw [laneOf_of_le high] at named
      cases named
  · exact acceptProtocol_refused fun k taken => by
      obtain ⟨_, _, _, _, _, -, -, -, named, -⟩ := (acceptProtocol_clocked _ _ _ _ _ _).mp taken
      rw [laneOf_of_le high] at named
      cases named
  · exact acceptProtocol_refused fun k taken => by
      obtain ⟨_, _, _, _, _, _, _, named, -⟩ := (acceptProtocol_flash _ _ _ _ _ _ _ _).mp taken
      rw [requiredLane_of_le high] at named
      cases named
  · exact acceptProtocol_refused fun k taken => by
      obtain ⟨_, _, _, _, _, _, _, -, named, -⟩ := (acceptProtocol_flash _ _ _ _ _ _ _ _).mp taken
      rw [requiredLane_of_le high] at named
      cases named
  · exact acceptProtocol_refused fun k taken => by
      obtain ⟨_, _, _, _, _, _, _, -, -, named, -⟩ := (acceptProtocol_flash _ _ _ _ _ _ _ _).mp taken
      rw [requiredLane_of_le high] at named
      cases named
  · exact acceptProtocol_refused fun k taken => by
      obtain ⟨_, _, _, _, _, _, _, -, -, -, named, -⟩ := (acceptProtocol_flash _ _ _ _ _ _ _ _).mp taken
      rw [requiredLane_of_le high] at named
      cases named
  · exact acceptProtocol_refused fun k taken => by
      obtain ⟨_, _, _, _, _, _, _, -, -, -, -, named, -⟩ := (acceptProtocol_flash _ _ _ _ _ _ _ _).mp taken
      rw [laneOf_of_le high] at named
      cases named
  · exact acceptProtocol_refused fun k taken => by
      obtain ⟨_, _, _, _, _, _, _, -, -, -, -, -, named, -⟩ := (acceptProtocol_flash _ _ _ _ _ _ _ _).mp taken
      rw [laneOf_of_le high] at named
      cases named
  · exact acceptProtocol_refused fun k taken => by
      obtain ⟨_, _, _, named, -⟩ := (acceptProtocol_twoWire _ _ _ _).mp taken
      rw [requiredLane_of_le high] at named
      cases named
  · exact acceptProtocol_refused fun k taken => by
      obtain ⟨_, _, _, -, named, -⟩ := (acceptProtocol_twoWire _ _ _ _).mp taken
      rw [requiredLane_of_le high] at named
      cases named
  · obtain ⟨_, _, -, accepted, -⟩ := (acceptProtocol_async _ _ _).mp taken
    obtain ⟨_, _, _, isParity, isPolarity, isMode, -, filter, -⟩ := (acceptAsync_iff _ _).mp accepted
    rw [isParity, isPolarity, isMode] at outside
    obtain none | none | none | ⟨a, isA, wrong⟩ := outside
    · cases none
    · cases none
    · cases none
    · obtain ⟨marked, small⟩ := filter a isA
      rcases wrong with unmarked | large
      · rw [marked] at unmarked
        cases unmarked
      · exact absurd small (Nat.not_lt.mpr large)
  · obtain ⟨_, _, _, _, _, -, -, -, -, accepted, -⟩ := (acceptProtocol_clocked _ _ _ _ _ _).mp taken
    obtain ⟨_, _, _, _, isEdge, isPolarity, isOrder, isIdle, -⟩ := (acceptClocked_iff _ _).mp accepted
    rw [isEdge, isPolarity, isOrder, isIdle] at outside
    obtain none | none | none | none := outside <;> cases none
  · obtain ⟨_, _, _, _, _, _, _, -, -, -, -, -, -, accepted, -⟩ := (acceptProtocol_flash _ _ _ _ _ _ _ _).mp taken
    obtain ⟨_, isSet, busy, enable, -⟩ := (acceptFlash_iff _ _).mp accepted
    rw [isSet] at outside
    obtain none | above | above := outside
    · cases none
    · exact absurd busy (Nat.not_le.mpr above)
    · exact absurd enable (Nat.not_le.mpr above)
  · obtain ⟨_, _, _, -, -, accepted, -⟩ := (acceptProtocol_twoWire _ _ _ _).mp taken
    obtain ⟨-, masks, -⟩ := (acceptTwoWire_iff _ _).mp accepted
    obtain ⟨e, mem, above | above⟩ := outside
    · exact absurd (masks e mem).1 (Nat.not_le.mpr above)
    · exact absurd (masks e mem).2 (Nat.not_le.mpr above)

end Sys2Proof.Machine
end

section
/-! PROOFS. FLASH_SET_LOAD and FLASH_MODEL_CLEAR (O45); MATCH_UNIT_SET and BRANCH_SET (O56). -/

namespace Sys2Proof.Machine

variable {s : State}

/-! ## The parameters of FLASH_SET_LOAD (R127, R187) -/

theorem addressSize_of {b : Byte} (size : b.toNat = 0 ∨ b.toNat = 3 ∨ b.toNat = 4) : addressSize b = some b.toNat := if_pos size

theorem laneWidth_of {b : Byte} (width : b.toNat = 1 ∨ b.toNat = 2 ∨ b.toNat = 4) : laneWidth b = some b.toNat := if_pos width

/-- The byte of a data direction (Table 13-7). -/
def directionCode : DataDirection → Nat
  | .none => 0
  | .fromTarget => 1
  | .toTarget => 2

theorem directionOf_of {b : Byte} {d : DataDirection} (named : b.toNat = directionCode d) : directionOf b = some d := by
  unfold directionOf
  cases d <;> rw [named] <;> rfl

theorem directionOf_of_lt {b : Byte} (above : 2 < b.toNat) : directionOf b = none := by
  unfold directionOf
  split
  · omega
  · omega
  · omega
  · rfl

theorem effectOfCode_effectCode (e : EffectClass) : effectOfCode (effectCode e) = some e := by
  cases e <;> rfl

theorem effectOfCode_of_lt {n : Nat} (above : 11 < n) : effectOfCode n = none := by
  obtain ⟨k, rfl⟩ := Nat.exists_eq_add_of_le above
  rw [Nat.add_comm]
  rfl

/-- Table 13-7: a descriptor whose bytes are in their lists. -/
theorem descriptorOf_of {opcode ab aw mode dummy dir dw eff : Byte} {direction : DataDirection} {effect : EffectClass}
    (address : ab.toNat = 0 ∨ ab.toNat = 3 ∨ ab.toNat = 4) (addressLanes : aw.toNat = 1 ∨ aw.toNat = 2 ∨ aw.toNat = 4)
    (few : dummy.toNat ≤ 15) (isDirection : dir.toNat = directionCode direction)
    (dataLanes : dw.toNat = 1 ∨ dw.toNat = 2 ∨ dw.toNat = 4) (isEffect : eff.toNat = effectCode effect) :
    descriptorOf [opcode, ab, aw, mode, dummy, dir, dw, eff] = some ⟨opcode, ab.toNat, aw.toNat, mode.getLsbD 0,
      mode.extractLsb' 4 4, dummy.toNat, direction, dw.toNat, effect⟩ := by
  simp only [descriptorOf, addressSize_of address, laneWidth_of addressLanes, directionOf_of isDirection,
    laneWidth_of dataLanes, isEffect, effectOfCode_effectCode, few, Option.bind_eq_bind, Option.bind_some, if_true]

/-- R187: a byte outside its list refuses the descriptor. -/
theorem descriptorOf_none {opcode ab aw mode dummy dir dw eff : Byte}
    (outside : (ab.toNat ≠ 0 ∧ ab.toNat ≠ 3 ∧ ab.toNat ≠ 4) ∨ (aw.toNat ≠ 1 ∧ aw.toNat ≠ 2 ∧ aw.toNat ≠ 4)
      ∨ 15 < dummy.toNat ∨ 2 < dir.toNat ∨ (dw.toNat ≠ 1 ∧ dw.toNat ≠ 2 ∧ dw.toNat ≠ 4) ∨ 11 < eff.toNat) :
    descriptorOf [opcode, ab, aw, mode, dummy, dir, dw, eff] = none := by
  refine Option.eq_none_iff_forall_ne_some.mpr fun d taken => ?_
  simp only [descriptorOf, Option.bind_eq_bind, Option.bind_eq_some_iff, Option.ite_none_right_eq_some] at taken
  obtain ⟨_, address, _, addressLanes, _, direction, _, dataLanes, _, effect, few, -⟩ := taken
  have address := (Option.ite_none_right_eq_some.mp address).1
  have addressLanes := (Option.ite_none_right_eq_some.mp addressLanes).1
  have dataLanes := (Option.ite_none_right_eq_some.mp dataLanes).1
  have low : ¬ 2 < dir.toNat := fun above => by
    rw [directionOf_of_lt above] at direction
    cases direction
  have known : ¬ 11 < eff.toNat := fun above => by
    rw [effectOfCode_of_lt above] at effect
    cases effect
  omega

theorem descriptorOf_length {row : List Byte} {d : Descriptor} (is : descriptorOf row = some d) : row.length = 8 := by
  unfold descriptorOf at is
  split at is
  · rfl
  · cases is

/-- R187: descriptors read in the order given, surplus bytes left. -/
theorem descriptorsOf_rows {rows : List (List Byte)} {ds : List Descriptor}
    (each : List.Forall₂ (fun row d => descriptorOf row = some d) rows ds) (surplus : List Byte) :
    descriptorsOf rows.length (rows.flatten ++ surplus) = some ds ∧ rows.flatten.length = 8 * rows.length := by
  induction each with
  | nil => exact ⟨rfl, rfl⟩
  | @cons row d rows ds is rest ih =>
    obtain ⟨read, size⟩ := ih
    have eight := descriptorOf_length is
    constructor
    · rw [List.flatten_cons, List.append_assoc, List.length_cons]
      unfold descriptorsOf
      rw [List.take_append_of_le_length (Nat.le_of_eq eight.symm), List.take_of_length_le (Nat.le_of_eq eight),
        show List.drop 8 (row ++ (rows.flatten ++ surplus)) = rows.flatten ++ surplus from
          eight ▸ List.drop_left, is, read]
    · rw [List.flatten_cons, List.length_append, eight, size, List.length_cons]
      omega

/-- R187: one refused descriptor refuses them all. -/
theorem descriptorsOf_none {bad : List Byte} (size : bad.length = 8) (refused : descriptorOf bad = none) (after : List Byte) :
    ∀ (n : Nat) (before : List Byte), before.length % 8 = 0 → before.length + 8 ≤ 8 * n →
      descriptorsOf n (before ++ bad ++ after) = none
  | 0, before, _, fits => absurd fits (by omega)
  | n + 1, before, whole, fits => by
    unfold descriptorsOf
    by_cases none_ : before = []
    · subst none_
      rw [List.nil_append, List.take_append_of_le_length (Nat.le_of_eq size.symm),
        List.take_of_length_le (Nat.le_of_eq size), refused]
    · have long : 8 ≤ before.length := by
        have := List.length_pos_iff.mpr none_
        omega
      have rest := descriptorsOf_none size refused after n (before.drop 8) (by rw [List.length_drop]; omega)
        (by rw [List.length_drop]; omega)
      have shift : List.drop 8 (before ++ bad ++ after) = before.drop 8 ++ bad ++ after := by
        rw [List.append_assoc, List.drop_append_of_le_length long, List.append_assoc]
      rw [shift, rest]
      cases descriptorOf ((before ++ bad ++ after).take 8) <;> rfl

/-- The set that a byte names (R187). -/
def setNameOf (b : Byte) : Option SetName := if b = 0#8 then some .a else if b = 1#8 then some .b else none

theorem flashLoadOf_cons (set count : Byte) (rest : List Byte) : flashLoadOf (set :: count :: rest)
    = match setNameOf set with
      | none => none
      | some name =>
        if count.toNat > 32 ∨ rest.length < 8 * count.toNat then none
        else
          match descriptorsOf count.toNat rest with
          | none => none
          | some ds => if (ds.map (·.opcode)).Nodup then some (name, ds) else none := rfl

theorem setNameOf_of_le {b : Byte} (high : 2 ≤ b.toNat) : setNameOf b = none := by
  unfold setNameOf
  rw [if_neg (by rintro rfl; exact absurd high (by decide)), if_neg (by rintro rfl; exact absurd high (by decide))]

/-- The byte of a set name (R187). -/
def setNameCode : SetName → Nat
  | .a => 0
  | .b => 1

theorem setNameOf_of {b : Byte} {name : SetName} (named : b.toNat = setNameCode name) : setNameOf b = some name := by
  unfold setNameOf
  cases name with
  | a => exact if_pos (BitVec.eq_of_toNat_eq named)
  | b =>
    have one : b = 1#8 := BitVec.eq_of_toNat_eq named
    subst one
    rfl

theorem flashLoadOf_none {set count : Byte} {rest : List Byte}
    (refused : setNameOf set = none ∨ 32 < count.toNat ∨ descriptorsOf count.toNat rest = none) :
    flashLoadOf (set :: count :: rest) = none := by
  rw [flashLoadOf_cons]
  cases named : setNameOf set with
  | none => rfl
  | some name =>
    rw [named] at refused
    dsimp only
    obtain none_ | many | none_ := refused
    · cases none_
    · exact if_pos (.inl many)
    · rw [none_]
      exact ite_self _

/-- R127, R187: what complete parameters name. -/
theorem flashLoadOf_rows {set : Byte} {name : SetName} {rows : List (List Byte)} {ds : List Descriptor}
    (named : set.toNat = setNameCode name) (each : List.Forall₂ (fun row d => descriptorOf row = some d) rows ds)
    (few : rows.length ≤ 32) (surplus : List Byte) :
    flashLoadOf (set :: BitVec.ofNat 8 rows.length :: (rows.flatten ++ surplus))
      = if (ds.map (·.opcode)).Nodup then some (name, ds) else none := by
  obtain ⟨read, size⟩ := descriptorsOf_rows each surplus
  have count : (BitVec.ofNat 8 rows.length).toNat = rows.length := by
    rw [BitVec.toNat_ofNat, Nat.mod_eq_of_lt (by omega)]
  rw [flashLoadOf_cons, setNameOf_of named, count]
  dsimp only
  rw [if_neg (by rw [List.length_append, size]; omega), read]

theorem setInUse_iff (d : Dec) (name : SetName) : d.setInUse name = true
    ↔ ∃ i : CtxId, d.contexts[i].state = .running ∧ d.contexts[i].protocol = some .flash
      ∧ d.contexts[i].flashSettings.set = name := by
  unfold Dec.setInUse
  rw [Vector.any_eq_true]
  simp only [Bool.and_eq_true, beq_iff_eq, and_assoc]
  constructor
  · rintro ⟨i, below, here⟩
    exact ⟨⟨i, below⟩, here⟩
  · rintro ⟨i, here⟩
    exact ⟨i.val, i.isLt, here⟩

theorem bodyFlashSetLoad_refused {params : List Byte} (refused : flashLoadOf params = none) :
    bodyFlashSetLoad params s = (s, .only .badParam) := by
  unfold bodyFlashSetLoad
  rw [refused]

/-- Settles O45. -/
theorem flashSetLoadAndModelClear : Obligations.FlashSetLoadAndModelClear := by
  refine ⟨fun s name set rows ds surplus h named each few => ?_, fun s set count rest h outside => ?_,
    fun opcode ab aw mode dummy dir dw eff direction effect address addressLanes small isDirection dataLanes isEffect => ?_,
    fun s set opcode ab aw mode dummy dir dw eff count before after h outside => ?_, fun s b h => ?_⟩
  · have named : set.toNat = setNameCode name := by cases name <;> exact named
    have load := flashLoadOf_rows named each few surplus
    have entry := after_flashSetLoad s (set :: BitVec.ofNat 8 rows.length :: (rows.flatten ++ surplus))
    generalize set :: BitVec.ofNat 8 rows.length :: (rows.flatten ++ surplus) = params at *
    refine ⟨fun repeated => ?_, fun distinct used => ?_, fun distinct unused => ?_⟩
    · rw [if_neg repeated] at load
      exact exec_of_body h entry (bodyFlashSetLoad_refused load)
    · rw [if_pos distinct] at load
      refine exec_of_body h entry ?_
      unfold bodyFlashSetLoad
      rw [load]
      exact if_pos ((setInUse_iff s.dec name).mpr used)
    · rw [if_pos distinct] at load
      have free : ¬ s.dec.setInUse name = true := fun used => by
        obtain ⟨i, running, flash, is⟩ := (setInUse_iff s.dec name).mp used
        exact unused i running flash is
      refine exec_of_body h entry ?_
      unfold bodyFlashSetLoad
      rw [load]
      dsimp only
      rw [if_neg free]
      cases name <;> rfl
  · refine exec_of_body h (after_flashSetLoad s _) (bodyFlashSetLoad_refused (flashLoadOf_none ?_))
    exact outside.imp setNameOf_of_le .inl
  · have isDirection : dir.toNat = directionCode direction := by cases direction <;> exact isDirection
    exact descriptorOf_of address addressLanes small isDirection dataLanes isEffect
  · have refused := descriptorOf_none (opcode := opcode) (mode := mode) outside
    refine ⟨refused, fun few whole fits => ?_⟩
    have count' : (BitVec.ofNat 8 count).toNat = count := by
      rw [BitVec.toNat_ofNat, Nat.mod_eq_of_lt (by omega)]
    refine exec_of_body h (after_flashSetLoad s _) (bodyFlashSetLoad_refused (flashLoadOf_none (.inr (.inr ?_))))
    rw [count']
    exact descriptorsOf_none rfl refused after count before whole fits
  · have entry := after_flashModelClear s .enough b
    refine ⟨fun high => exec_of_body h entry (onOpenContext_of_le high), fun id c named is => ?_⟩
    subst is
    refine ⟨fun free => exec_of_body h entry (onOpenContext_free named free), fun running => ?_,
      fun used stopped other => ?_, fun used stopped flash => ?_⟩
    · exact exec_of_body h entry ((onOpenContext_used named (by rw [running]; nofun)).trans (if_pos running))
    · exact exec_of_body h entry ((onOpenContext_used named used).trans ((if_neg stopped).trans (if_pos other)))
    · exact exec_of_body h entry
        ((onOpenContext_used named used).trans ((if_neg stopped).trans (if_neg (not_not_intro flash))))

/-! ## Trigger programming (R153, R154) -/

/-- R153: an ELAPSED time of 0 is raised to 1. -/
theorem max_toNat_one (x : BitVec 32) : max x.toNat 1 = if x = 0#32 then 1 else x.toNat := by
  split
  · subst_vars
    rfl
  · rename_i other
    have : x.toNat ≠ 0 := fun zero => other (BitVec.eq_of_toNat_eq zero)
    omega

/-- R154: a branch is refused where a unit or a stage it names is out of range. -/
theorem acceptBranch_none {p : BranchParams} (outside : 16 ≤ p.unit.toNat ∨ 8 ≤ p.next.toNat) : acceptBranch p = none := by
  unfold acceptBranch
  rcases outside with unit | next
  · rw [idOf_of_le p.unit unit]
    rfl
  · rw [idOf_of_le p.next next]
    cases idOf 16 p.unit <;> rfl

theorem acceptBranch_of {p : BranchParams} {u : UnitId} {n : StageId} (unit : p.unit.toNat = u.val)
    (next : p.next.toNat = n.val) : acceptBranch p = some ⟨p.enabled, u, max p.target.toNat 1, n, p.fire, p.notice⟩ := by
  unfold acceptBranch
  rw [idOf_eq p.unit u unit, idOf_eq p.next n next]
  rfl

theorem bodyMatchUnitSet_refused {unit : Byte} {params : UnitParams} (free : s.trg.state ≠ .running)
    (refused : 16 ≤ unit.toNat ∨ acceptUnit params = none) : bodyMatchUnitSet unit params s = (s, .only .badParam) := by
  unfold bodyMatchUnitSet
  rw [if_neg free]
  rcases refused with high | none_
  · rw [idOf_of_le unit high]
  · rw [none_]
    cases idOf 16 unit <;> rfl

theorem bodyBranchSet_refused {stage branch : Byte} {p : BranchParams} (free : s.trg.state ≠ .running)
    (refused : 8 ≤ stage.toNat ∨ 4 ≤ branch.toNat ∨ acceptBranch p = none) :
    bodyBranchSet stage branch p s = (s, .only .badParam) := by
  unfold bodyBranchSet
  rw [if_neg free]
  obtain high | high | none_ := refused
  · rw [idOf_of_le stage high]
  · rw [idOf_of_le branch high]
    cases idOf 8 stage <;> rfl
  · rw [none_]
    cases idOf 8 stage with
    | none => rfl
    | some i => cases idOf 4 branch <;> rfl

/-- R153: the units that the parameters name, and the refusals. -/
theorem acceptUnit_spec : acceptUnit .disabled = some .disabled ∧ acceptUnit .unknown = none
    ∧ (∀ (b : Byte) d, 32 ≤ b.toNat → acceptUnit (.edge b d) = none)
    ∧ (∀ (b : Byte) d, 32 ≤ b.toNat → acceptUnit (.activity b d) = none)
    ∧ (∀ b, acceptUnit (.edge b none) = none ∧ acceptUnit (.activity b none) = none)
    ∧ (∀ (b : Byte) (c : Chan) d, b.toNat = c.val → acceptUnit (.edge b (some d)) = some (.edge c d))
    ∧ (∀ (b : Byte) (c : Chan) d, b.toNat = c.val → acceptUnit (.activity b (some d)) = some (.activity c d))
    ∧ (∀ mask value hold, acceptUnit (.pattern mask value hold) = some (.pattern mask value hold.toNat))
    ∧ (∀ compare, acceptUnit (.record .any compare) = some (.record none compare))
    ∧ (∀ (b : Byte) (c : CtxId) compare, b.toNat = c.val →
        acceptUnit (.record (.id b) compare) = some (.record (some c) compare))
    ∧ (∀ (b : Byte) compare, 16 ≤ b.toNat → acceptUnit (.record (.id b) compare) = none)
    ∧ ∀ time : BitVec 32, acceptUnit (.elapsed time) = some (.elapsed (if time = 0#32 then 1 else time.toNat)) := by
  refine ⟨rfl, rfl, fun b d high => ?_, fun b d high => ?_, fun b => ⟨?_, ?_⟩, fun b c d named => ?_,
    fun b c d named => ?_, fun _ _ _ => rfl, fun _ => rfl, fun b c compare named => ?_, fun b compare high => ?_,
    fun time => congrArg (fun n => some (MatchUnit.elapsed n)) (max_toNat_one time)⟩
  · simp only [acceptUnit, idOf_of_le b high, Option.bind_eq_bind, Option.bind_none]
  · simp only [acceptUnit, idOf_of_le b high, Option.bind_eq_bind, Option.bind_none]
  · show ((idOf 32 b).bind fun _ => none) = none
    cases idOf 32 b <;> rfl
  · show ((idOf 32 b).bind fun _ => none) = none
    cases idOf 32 b <;> rfl
  · simp only [acceptUnit, idOf_eq b c named, Option.bind_eq_bind, Option.bind_some]
  · simp only [acceptUnit, idOf_eq b c named, Option.bind_eq_bind, Option.bind_some]
  · simp only [acceptUnit, idOf_eq b c named, Option.map_some]
  · simp only [acceptUnit, idOf_of_le b high, Option.map_none]

/-- Settles O56. -/
theorem triggerProgrammingStoresOrRefuses : Obligations.TriggerProgrammingStoresOrRefuses := by
  refine ⟨fun s unit params h => ⟨fun running => ?_, fun free => ⟨fun refused => ?_, fun i u named taken => ?_⟩⟩,
    acceptUnit_spec, fun s stage branch p h => ⟨fun running => ?_, fun free => ⟨fun refused => ?_,
      fun i j u n isStage isBranch isUnit isNext => ?_⟩⟩⟩
  · exact exec_of_body h (after_matchUnitSet s .enough unit params) (if_pos running)
  · exact exec_of_body h (after_matchUnitSet s .enough unit params) (bodyMatchUnitSet_refused free refused)
  · refine exec_of_body h (after_matchUnitSet s .enough unit params) ?_
    unfold bodyMatchUnitSet
    rw [if_neg free, idOf_eq unit i named, taken]
    rfl
  · exact exec_of_body h (after_branchSet s .enough stage branch p) (if_pos running)
  · exact exec_of_body h (after_branchSet s .enough stage branch p)
      (bodyBranchSet_refused free (refused.imp_right (.imp_right acceptBranch_none)))
  · refine exec_of_body h (after_branchSet s .enough stage branch p) ?_
    unfold bodyBranchSet
    rw [if_neg free, idOf_eq stage i isStage, idOf_eq branch j isBranch, acceptBranch_of isUnit isNext]
    rfl

end Sys2Proof.Machine
end

section
/-! PROOFS. VIEW_SET and REFRESH (O59). -/

namespace Sys2Proof.Machine

variable {s : State}

/-! ## VIEW_SET (R167) -/

theorem viewSegment_of {b : Option Byte} {segment : Option SegId} (named : b.map BitVec.toNat = segment.map Fin.val) :
    viewSegment b = some segment := by
  cases b with
  | none =>
    cases segment with
    | none => rfl
    | some i => cases named
  | some x =>
    cases segment with
    | none => cases named
    | some i =>
      show (idOf 8 x).map some = some (some i)
      rw [idOf_eq x i (Option.some.inj named)]
      rfl

theorem viewSegment_of_le {n : Byte} (high : 8 ≤ n.toNat) : viewSegment (some n) = none := by
  show (idOf 8 n).map some = none
  rw [idOf_of_le n high]
  rfl

/-- A row parameter and the row it names. -/
def namesRow (given : RowParam) (row : Row) : Prop :=
  (∃ (n : Byte) (c : Chan), given = .channel n ∧ row = .channel c ∧ n.toNat = c.val)
    ∨ ∃ (n : Byte) (c : CtxId), given = .annotation n ∧ row = .annotation c ∧ n.toNat = c.val

theorem acceptRow_of {given : RowParam} {row : Row} (named : namesRow given row) : acceptRow given = some row := by
  rcases named with ⟨n, c, rfl, rfl, named⟩ | ⟨n, c, rfl, rfl, named⟩
  · show (idOf 32 n).map Row.channel = _
    rw [idOf_eq n c named]
    rfl
  · show (idOf 16 n).map Row.annotation = _
    rw [idOf_eq n c named]
    rfl

theorem rowsOf_of {given : List RowParam} {rows : List Row} (named : List.Forall₂ namesRow given rows) :
    rowsOf given = some rows := by
  induction named with
  | nil => rfl
  | cons here _ ih =>
    unfold rowsOf
    rw [acceptRow_of here, ih]

theorem rowsOf_none {given : List RowParam} {x : RowParam} (mem : x ∈ given) (refused : acceptRow x = none) :
    rowsOf given = none := by
  induction given with
  | nil => cases mem
  | cons y given ih =>
    unfold rowsOf
    rcases List.mem_cons.mp mem with rfl | mem
    · rw [refused]
    · rw [ih mem]
      cases acceptRow y <;> rfl

theorem rowsOf_length : ∀ {given : List RowParam} {rows : List Row}, rowsOf given = some rows → rows.length = given.length
  | [], rows, is => by
    cases is
    rfl
  | x :: given, rows, is => by
    unfold rowsOf at is
    split at is
    · rename_i more
      cases is
      rw [List.length_cons, List.length_cons, rowsOf_length more]
    · cases is

/-- R167: a view accepted. -/
theorem acceptView_of {p : ViewParams} {segment : Option SegId} {rows : List Row}
    (named : viewSegment p.segment = some segment) (given : rowsOf p.rows = some rows) (few : rows.length ≤ 12) :
    acceptView p = some ⟨segment, min p.start (2 ^ 48 - 1), min (max p.ticksPerColumn 1) (2 ^ 32 - 1), p.follow, rows⟩ := by
  unfold acceptView
  rw [named, given]
  exact if_pos few

/-- R167: a view refused. -/
theorem acceptView_none {p : ViewParams}
    (refused : viewSegment p.segment = none ∨ rowsOf p.rows = none ∨ 12 < p.rows.length) : acceptView p = none := by
  unfold acceptView
  cases named : viewSegment p.segment with
  | none => rfl
  | some segment =>
    cases given : rowsOf p.rows with
    | none => rfl
    | some rows =>
      obtain none_ | none_ | many := refused
      · cases named.symm.trans none_
      · cases given.symm.trans none_
      · exact if_neg (Nat.not_le.mpr ((rowsOf_length given).symm ▸ many))

theorem bodyViewSet_refused {p : ViewParams} (refused : acceptView p = none) : bodyViewSet p s = (s, .only .badParam) := by
  unfold bodyViewSet
  rw [refused]

/-! ## REFRESH (R169, R170) -/

theorem touchesStandby_iff (l : Lvl) :
    l.touchesStandby = true ↔ l.level = .standby ∨ l.transition = .switching .standby := by
  unfold Lvl.touchesStandby Lvl.destination
  rw [Bool.or_eq_true, beq_iff_eq, beq_iff_eq]
  cases l.transition <;> simp

/-- R170: a view's start as a refresh fixes it. -/
theorem activated_eq (v : View) (g : Segment) : v.activated g = { v with
    start := if v.follow then max g.firstRetainedTick (g.lastTick - 400 * v.ticksPerColumn) else v.start } := by
  obtain ⟨segment, start, ticks, follow, rows⟩ := v
  cases follow <;> rfl

/-- R170: a refresh starts: the staged view copied, a pin taken, the horizons fixed, the map empty. -/
theorem startRefresh_eq (s : State) (id : SegId) : ∃ map : List CellRow, s.startRefresh id = { s with
    cap := { s.cap with segments := (s.cap.segments.set id
      { s.cap.segments[id] with pins := s.cap.segments[id].pins + 1 }) }
    dsp := { s.dsp with
      active := { s.dsp.staged with start := (if s.dsp.staged.follow
        then max s.cap.segments[id].firstRetainedTick (s.cap.segments[id].lastTick - 400 * s.dsp.staged.ticksPerColumn)
        else s.dsp.staged.start) }
      state := .reading, horizon := some s.cap.segments[id].lastTick
      annotationHorizon := some s.cap.segments[id].annotationsStored, nextColumn := 0, cellMap := map } }
    ∧ map.length = s.dsp.staged.rows.length ∧ ∀ x ∈ map, x = {} := by
  refine ⟨s.dsp.staged.rows.map fun _ => {}, ?_, List.length_map _, fun x mem => ?_⟩
  · unfold State.startRefresh
    dsimp only
    rw [activated_eq]
    rfl
  · obtain ⟨_, -, rfl⟩ := List.mem_map.mp mem
    rfl

theorem bodyRefresh_awake (awake : ¬ (s.lvl.level = .standby ∨ s.lvl.transition = .switching .standby)) {id : SegId}
    (staged : s.dsp.staged.segment = some id) : bodyRefresh s
      = if s.dsp.state ≠ .idle then (s.setDsp { s.dsp with pending := true }, .only .accepted)
        else if (s.segment id).pinnable then (s.startRefresh id, .only .accepted) else (s, .only .notFound) := by
  unfold bodyRefresh
  rw [if_neg (mt (touchesStandby_iff _).mp awake), staged]

/-- Settles O59. -/
theorem viewSetAndRefresh : Obligations.ViewSetAndRefresh := by
  refine ⟨fun s p segment rows h => ⟨fun n is high => ?_, fun many => ?_, fun n high mem => ?_, fun n high mem => ?_,
    fun named few given => ?_⟩, fun s h => ⟨fun touches => ?_, fun up away => ⟨fun none_ => ?_,
      fun id staged => ⟨fun busy => ?_, fun idle refused => ?_, fun idle held live => ?_⟩⟩⟩⟩
  · refine exec_of_body h (after_viewSet s .enough p) (bodyViewSet_refused (acceptView_none (.inl ?_)))
    rw [is, viewSegment_of_le high]
  · exact exec_of_body h (after_viewSet s .enough p) (bodyViewSet_refused (acceptView_none (.inr (.inr many))))
  · refine exec_of_body h (after_viewSet s .enough p)
      (bodyViewSet_refused (acceptView_none (.inr (.inl (rowsOf_none mem ?_)))))
    show (idOf 32 n).map Row.channel = none
    rw [idOf_of_le n high]
    rfl
  · refine exec_of_body h (after_viewSet s .enough p)
      (bodyViewSet_refused (acceptView_none (.inr (.inl (rowsOf_none mem ?_)))))
    show (idOf 16 n).map Row.annotation = none
    rw [idOf_of_le n high]
    rfl
  · refine exec_of_body h (after_viewSet s .enough p) ?_
    unfold bodyViewSet
    rw [acceptView_of (viewSegment_of named) (rowsOf_of given) few]
    rfl
  · exact exec_of_body h (after_refresh s) (if_pos ((touchesStandby_iff _).mpr touches))
  · refine exec_of_body h (after_refresh s) ?_
    unfold bodyRefresh
    rw [if_neg (mt (touchesStandby_iff _).mp (not_or.mpr ⟨up, away⟩)), none_]
    rfl
  · exact exec_of_body h (after_refresh s) ((bodyRefresh_awake (not_or.mpr ⟨up, away⟩) staged).trans (if_pos busy))
  · exact exec_of_body h (after_refresh s) ((bodyRefresh_awake (not_or.mpr ⟨up, away⟩) staged).trans
      ((if_neg (not_not_intro idle)).trans (if_neg (mt (pinnable_iff id).mp refused))))
  · have done_ := exec_of_body h (after_refresh s) ((bodyRefresh_awake (not_or.mpr ⟨up, away⟩) staged).trans
      ((if_neg (not_not_intro idle)).trans (if_pos ((pinnable_iff id).mpr ⟨held, live⟩))))
    obtain ⟨map, started, size, empty⟩ := startRefresh_eq s id
    rw [started] at done_
    exact ⟨map, done_, size, empty⟩

end Sys2Proof.Machine
end

section
/-! PROOFS. The forced fire and the events of the trigger sequencer (O57). -/

namespace Sys2Proof.Machine

variable {s : State} {stamp : Nat} {lines changed : Lines} {activity : List (Chan × Activity)}

/-! ## One evaluated event -/

theorem Trg.takesEvent.congr {q after : Trg} {m m' : UnitId → Prop} {tick : Nat} {sent : List Fire} {notice : Bool}
    (h : q.takesEvent m tick after sent notice) (same : ∀ u, m u ↔ m' u) : q.takesEvent m' tick after sent notice := by
  rwa [show m = m' from funext fun u => propext (same u)] at h

/-- What an event with its fires and its notice leaves beside the sequencer. -/
def State.eventLeft (s : State) (after : Trg) (sent : List Fire) (notice : Bool) : State := { s with
  trg := after
  cap := { s.cap with fires := s.cap.fires ++ sent }
  cmd := { s.cmd with pending := if notice then s.cmd.pending ||| BitVec.twoPow 14 2 else s.cmd.pending } }

theorem eventLeft_eventLeft (s : State) (after after' : Trg) (sent sent' : List Fire) (notice notice' : Bool) :
    (s.eventLeft after sent notice).eventLeft after' sent' notice' = { s with
      trg := after'
      cap := { s.cap with fires := s.cap.fires ++ sent ++ sent' }
      cmd := { s.cmd with pending := if notice = true ∨ notice' = true
        then s.cmd.pending ||| BitVec.twoPow 14 2 else s.cmd.pending } } := by
  have both : s.cmd.pending ||| BitVec.twoPow 14 2 ||| BitVec.twoPow 14 2 = s.cmd.pending ||| BitVec.twoPow 14 2 := by
    rw [BitVec.or_assoc, BitVec.or_self]
  unfold State.eventLeft
  cases notice <;> cases notice' <;> simp [both]

/-! ## The stage timer (R155, R159) -/

theorem reachedAt_iff (q : Trg) (stamp : Nat) (u : UnitId) :
    q.units[u].reachedAt q.entryTick q.time stamp = true ↔ q.reaches stamp u := by
  unfold MatchUnit.reachedAt Trg.reaches
  cases q.units[u] <;> simp

theorem stageTimerAt_reached (reached : ∃ u, s.trg.reaches stamp u) :
    ∃ (timed : Trg) (sent : List Fire) (notice : Bool),
      ({ s.trg with time := stamp } : Trg).takesEvent (s.trg.reaches stamp) stamp timed sent notice
      ∧ s.stageTimerAt stamp = s.eventLeft timed sent notice := by
  obtain ⟨u, here⟩ := reached
  have any : (everyId 16).any (fun i => s.trg.units[i].reachedAt s.trg.entryTick s.trg.time stamp) = true :=
    List.any_eq_true.mpr ⟨u, List.mem_finRange u, (reachedAt_iff _ _ _).mpr here⟩
  obtain ⟨timed, sent, notice, event, left⟩ := evaluate_takesEvent (s.setTrg { s.trg with time := stamp })
    (fun i => s.trg.units[i].reachedAt s.trg.entryTick s.trg.time stamp) stamp
  exact ⟨timed, sent, notice, event.congr (reachedAt_iff s.trg stamp), (if_pos any).trans left⟩

theorem not_anyReached (unreached : ∀ u, ¬ s.trg.reaches stamp u) :
    ¬ (everyId 16).any (fun i => s.trg.units[i].reachedAt s.trg.entryTick s.trg.time stamp) = true := fun any => by
  obtain ⟨u, -, here⟩ := List.any_eq_true.mp any
  exact unreached u ((reachedAt_iff _ _ _).mp here)

theorem stageTimerAt_unreached (unreached : ∀ u, ¬ s.trg.reaches stamp u) :
    s.stageTimerAt stamp = s.setTrg { s.trg with time := stamp } := if_neg (not_anyReached unreached)

/-! ## The sample event (R155 to R157) -/

/-- R156, R157: the sample event, the stage timer behind it. -/
def State.sampleEvent (s : State) (stamp : Nat) (lines changed : Lines) (activity : List (Chan × Activity)) : State :=
  (s.setTrg (s.trg.patternsAt lines stamp).1).evaluate
    (fun i => s.trg.units[i].matchesSample i ⟨lines, changed, activity, (s.trg.patternsAt lines stamp).2⟩) stamp

theorem patternsAt_get (q : Trg) (lines : Lines) (stamp : Nat) (u : UnitId) :
    (q.patternsAt lines stamp).1.patterns[u] = q.units[u].patternAt q.patterns[u] lines stamp := by
  unfold Trg.patternsAt
  dsimp only
  rw [mapIds_get]

theorem mem_patternsAt (q : Trg) (lines : Lines) (stamp : Nat) (u : UnitId) : u ∈ (q.patternsAt lines stamp).2
    ↔ u ∈ q.raiseDue ∨ (q.units[u].patternAt q.patterns[u] lines stamp).raised = true ∧ q.patterns[u].raised = false := by
  rw [← patternsAt_get]
  unfold Trg.patternsAt
  simp only [List.mem_filter, everyId, List.mem_finRange, true_and, Bool.or_eq_true, Bool.and_eq_true,
    List.contains_iff_mem, Bool.not_eq_true']

theorem patternAt_other {unit : MatchUnit} (other : ∀ mask value hold, unit ≠ .pattern mask value hold) (p : PatternState)
    (lines : Lines) (stamp : Nat) : unit.patternAt p lines stamp = p := by
  unfold MatchUnit.patternAt
  cases unit with
  | pattern mask value hold => exact absurd rfl (other mask value hold)
  | disabled | edge | activity | record | elapsed => rfl

theorem any_change_iff_mem (c : Chan) (a : Activity) (changes : List (Chan × Activity)) :
    (changes.any fun p => decide (p.1 = c ∧ p.2 = a)) = true ↔ (c, a) ∈ changes := by
  rw [List.any_eq_true]
  constructor
  · rintro ⟨⟨_, _⟩, here, is⟩
    obtain ⟨rfl, rfl⟩ := of_decide_eq_true is
    exact here
  · exact fun here => ⟨(c, a), here, decide_eq_true ⟨rfl, rfl⟩⟩

theorem sampleEvent_takes (s : State) (stamp : Nat) (lines changed : Lines) (activity : List (Chan × Activity)) :
    ∃ (after : Trg) (sent : List Fire) (notice : Bool),
      s.trg.takesSample stamp lines changed activity after sent notice
      ∧ s.sampleEvent stamp lines changed activity = s.eventLeft after sent notice := by
  obtain ⟨after, sent, notice, event, left⟩ := evaluate_takesEvent (s.setTrg (s.trg.patternsAt lines stamp).1)
    (fun i => s.trg.units[i].matchesSample i ⟨lines, changed, activity, (s.trg.patternsAt lines stamp).2⟩) stamp
  refine ⟨after, sent, notice, ⟨(s.trg.patternsAt lines stamp).1, fun u => u ∈ (s.trg.patternsAt lines stamp).2, rfl,
    fun u other => ?_, fun u mask value hold is => ⟨fun differs => ?_, fun agrees => ?_⟩, event.congr fun u => ?_⟩, left⟩
  · beta_reduce
    rw [mem_patternsAt, patternsAt_get, patternAt_other other]
    exact ⟨rfl, or_iff_left fun both => by rw [both.1] at both; cases both.2⟩
  · have none_ : s.trg.units[u].patternAt s.trg.patterns[u] lines stamp = {} := by
      rw [is]
      exact if_neg differs
    beta_reduce
    rw [mem_patternsAt, patternsAt_get, none_]
    exact ⟨rfl, or_iff_left fun both => nomatch both.1⟩
  · have matched : s.trg.units[u].patternAt s.trg.patterns[u] lines stamp
        = { since := some (s.trg.patterns[u].since.getD stamp)
            raised := s.trg.patterns[u].raised || decide (s.trg.patterns[u].since.getD stamp + hold ≤ stamp) } := by
      rw [is]
      exact if_pos agrees
    beta_reduce
    rw [mem_patternsAt, patternsAt_get, matched]
    refine ⟨_, _, rfl, fun none_ => by rw [none_]; rfl, fun x since => by rw [since]; rfl, ?_, Iff.rfl⟩
    rw [Bool.or_eq_true, decide_eq_true_iff]
  · unfold MatchUnit.matchesSample
    cases s.trg.units[u] with
    | edge c d =>
      cases d with
      | rising => exact Bool.and_eq_true_iff
      | falling => exact Bool.and_eq_true_iff.trans (and_congr_right fun _ => (Bool.not_eq_true' _).to_iff)
      | any => exact Bool.and_eq_true_iff.trans (and_congr_right fun _ => iff_of_true rfl trivial)
    | activity c d =>
      cases d with
      | toActive => exact any_change_iff_mem c .active activity
      | toQuiet => exact any_change_iff_mem c .quiet activity
    | pattern mask value hold => exact List.contains_iff_mem
    | disabled | record | elapsed => exact iff_of_false Bool.false_ne_true not_false

/-! ## A conditioned sample (R155) -/

theorem triggerSample_running (running : s.trg.state = .running) (free : s.trg.outstanding = false) :
    s.triggerSample stamp lines changed activity
      = if (s.stageTimerAt stamp).trg.outstanding
        then (s.stageTimerAt stamp).setTrg { (s.stageTimerAt stamp).trg with raiseDue := [] }
        else (s.stageTimerAt stamp).sampleEvent stamp lines changed activity := by
  unfold State.triggerSample
  rw [if_pos running, free]
  rfl

/-! ## The timer events -/

theorem evaluates_of (running : s.trg.state = .running) (free : s.trg.outstanding = false) : s.trg.evaluates = true := by
  unfold Trg.evaluates
  rw [running, free]
  rfl

theorem stageExpiry_reached {x : Conditioned} (next : s.pfe.nextSample = some x) (running : s.trg.state = .running)
    (free : s.trg.outstanding = false) (reached : ∃ u, s.trg.reaches x.stamp u) :
    s.stageExpiry = s.stageTimerAt x.stamp := by
  obtain ⟨u, here⟩ := reached
  unfold State.stageExpiry
  rw [next]
  exact if_pos ⟨evaluates_of running free,
    List.any_eq_true.mpr ⟨u, List.mem_finRange u, (reachedAt_iff _ _ _).mpr here⟩⟩

theorem stageExpiry_unreached {x : Conditioned} (next : s.pfe.nextSample = some x)
    (unreached : ∀ u, ¬ s.trg.reaches x.stamp u) : s.stageExpiry = s := by
  unfold State.stageExpiry
  rw [next]
  exact if_neg fun both => not_anyReached unreached both.2

/-- Settles O57. -/
theorem forcedFireAndTriggerEvents : Obligations.ForcedFireAndTriggerEvents := by
  refine ⟨fun s h => ⟨fun other => exec_of_body h (after_triggerForce s) (if_neg other),
      fun running => exec_of_body h (after_triggerForce s) (if_pos running)⟩,
    fun s r run formed running free reached => ?_,
    fun s x u mask value hold since next running free unit agrees held due unreached => ?_,
    fun s stamp lines changed activity => ⟨fun other => if_neg other, fun running out => ?_, fun running free unreached => ?_,
      fun running free reached => ?_⟩⟩
  · have next : s.pfe.nextSample = some (s.pfe.conditioned r r.formed (r.taken - 1)).1 := by
      unfold Pfe.nextSample
      rw [run]
      exact if_pos formed
    obtain ⟨timed, sent, notice, event, left⟩ := stageTimerAt_reached reached
    refine ⟨s.eventLeft timed sent notice, sent, notice, ?_, rfl, event⟩
    rw [exec_eq_after, after_stageTimerExpiry, stageExpiry_reached next running free reached]
    exact congrArg _ left
  · have quiet : s.stageExpiry = s := stageExpiry_unreached next fun i here => by
      obtain ⟨n, elapsed, early, late⟩ := here
      exact unreached i n elapsed ⟨early, late⟩
    have raised : s.trg.units[u].patternAt s.trg.patterns[u] x.lines x.stamp = { since := some since, raised := true } := by
      rw [unit, held]
      refine (if_pos agrees).trans ?_
      rw [Option.getD_some, decide_eq_true due]
      rfl
    rw [exec_eq_after, after_patternHoldExpiry, quiet]
    unfold State.holdExpiry
    rw [next]
    dsimp only
    rw [raised, if_pos ⟨evaluates_of running free, rfl, by rw [held]⟩]
    rfl
  · unfold State.triggerSample
    rw [if_pos running, if_pos out]
    rfl
  · obtain ⟨after, sent, notice, event, left⟩ := sampleEvent_takes (s.setTrg { s.trg with time := stamp }) stamp lines changed
      activity
    refine ⟨after, sent, notice, event, ?_⟩
    rw [triggerSample_running running free, stageTimerAt_unreached unreached]
    exact (if_neg (Bool.eq_false_iff.mp free)).trans left
  · obtain ⟨timed, sent, notice, event, left⟩ := stageTimerAt_reached reached
    rw [triggerSample_running running free, left]
    cases out : timed.outstanding with
    | true =>
      refine ⟨timed, { timed with raiseDue := [] }, sent, [], notice, false, event, fun _ => ⟨rfl, rfl, rfl⟩, fun kept => absurd (out.symm.trans kept) (by decide), ?_⟩
      refine (if_pos out).trans ?_
      rw [← eventLeft_eventLeft s timed]
      unfold State.eventLeft
      simp [State.setTrg]
    | false =>
      obtain ⟨after, sent', notice', sample, left'⟩ := sampleEvent_takes (s.eventLeft timed sent notice) stamp lines changed
        activity
      refine ⟨timed, after, sent, sent', notice, notice', event, fun fired => absurd (out.symm.trans fired) (by decide), fun _ => sample, ?_⟩
      rw [← eventLeft_eventLeft s timed]
      exact (if_neg (Bool.eq_false_iff.mp out)).trans left'

end Sys2Proof.Machine
end

section
/-! PROOFS. The delivery of a record from the path to the queue and the sequencer (O49). -/

namespace Sys2Proof.Machine

variable {s : State} {j : Nat}

/-! ## The record taken from the path (R95) -/

theorem takeItem_first {ctx : CtxId} {i : PathItem} (own : i.record.context = ctx) :
    ∀ {before : List PathItem} (after : List PathItem), (∀ j ∈ before, j.record.context ≠ ctx) →
      takeItem ctx (before ++ i :: after) = some (i, before ++ after)
  | [], _, _ => if_pos own
  | j :: before, after, others => by
    have first := takeItem_first own after fun k at_ => others k (List.mem_cons_of_mem j at_)
    rw [List.cons_append, takeItem, if_neg (others j List.mem_cons_self), first]
    rfl

theorem deliverNext_first {ctx : CtxId} {before after : List PathItem} {i : PathItem} {rest : List (List PathItem)}
    (path : s.dec.path = (before ++ i :: after) :: rest) (own : i.record.context = ctx)
    (others : ∀ j ∈ before, j.record.context ≠ ctx) :
    s.deliverNext ctx = (s.setDec { s.dec with
      path := if before ++ after = [] then rest else (before ++ after) :: rest }).deliver i := by
  unfold State.deliverNext
  rw [path]
  dsimp only
  rw [takeItem_first own after others]
  generalize before ++ after = batch
  cases batch <;> rfl

/-! ## The queue (R97) -/

theorem offerQueue_open (r : Record) (isOpen : s.dec.isOpen = true) (room : s.dec.queue.length < 512) :
    s.offerQueue r = s.queuePush r := (if_pos isOpen).trans (if_pos room)

theorem offerQueue_full (r : Record) (isOpen : s.dec.isOpen = true) (full : 512 ≤ s.dec.queue.length) :
    s.offerQueue r = (s.setDec { s.dec with
      isOpen := false, lost := 1, span := some ⟨r.context, r.startTick, r.endTick⟩ }).raise .queueClosed :=
  (if_pos isOpen).trans (if_neg (Nat.not_lt.mpr full))

theorem offerQueue_closed (r : Record) {x : LostSpan} (closed : s.dec.isOpen = false) (span : s.dec.span = some x) :
    s.offerQueue r = s.setDec { s.dec with lost := bump32 s.dec.lost, span := some (x.widen r) } := by
  unfold State.offerQueue
  rw [if_neg (Bool.eq_false_iff.mp closed), span]

/-! ## The sequencer (R155, R158) -/

theorem triggerRecord_idle (r : Record) (idle : s.trg.state ≠ .running ∨ s.trg.outstanding = true) :
    s.triggerRecord r = s := by
  refine if_neg fun evaluates => ?_
  unfold Trg.evaluates at evaluates
  rw [Bool.and_eq_true, beq_iff_eq, Bool.not_eq_true'] at evaluates
  obtain ⟨running, free⟩ := evaluates
  exact idle.elim (· running) fun out => by rw [free] at out; cases out

theorem triggerRecord_takesEvent (r : Record) (running : s.trg.state = .running) (free : s.trg.outstanding = false) :
    ∃ (sent : List Fire) (notice : Bool),
      s.trg.takesEvent (fun u => s.trg.units[u].matchesRecord r = true) r.endTick (s.triggerRecord r).trg sent notice
      ∧ (s.triggerRecord r).cap.fires = s.cap.fires ++ sent
      ∧ (s.triggerRecord r).cmd.pending = if notice then s.cmd.pending ||| BitVec.twoPow 14 2 else s.cmd.pending := by
  obtain ⟨after, sent, notice, event, left⟩ :=
    evaluate_takesEvent s (fun u => s.trg.units[u].matchesRecord r) r.endTick
  have evaluated : s.triggerRecord r = _ := (if_pos (evaluates_of running free)).trans left
  rw [evaluated]
  exact ⟨sent, notice, event, rfl, rfl⟩

theorem triggerRecord_pending (r : Record) (other : j ≠ 2) :
    (s.triggerRecord r).cmd.pending.getLsbD j = s.cmd.pending.getLsbD j := by
  unfold State.triggerRecord
  split
  · obtain ⟨_, _, notice, -, left⟩ := evaluate_takesEvent s (fun u => s.trg.units[u].matchesRecord r) r.endTick
    rw [left]
    cases notice with
    | true => exact pending_or_other _ (Ne.symm other)
    | false => rfl
  · rfl

/-! ## The annotation writer raises POOL_LOW alone -/

theorem allocate_pending {o : PageOwner} {c : Chain} {r : State × Chain} (h : s.allocate o c = some r) (other : j ≠ 4) :
    r.1.cmd.pending.getLsbD j = s.cmd.pending.getLsbD j := by
  unfold State.allocate at h
  split at h
  · cases h
  · cases h
    exact checkPool_pending _ (Ne.symm other)

theorem writeAnnotation_pending (id : SegId) (r : Record) (other : j ≠ 4) :
    (s.writeAnnotation id r).cmd.pending.getLsbD j = s.cmd.pending.getLsbD j := by
  unfold State.writeAnnotation
  extract_lets g a
  split
  · rfl
  · split
    · split
      · rfl
      · split
        · rename_i allocated
          exact allocate_pending allocated other
        · rfl
      · rfl
    · rfl

theorem offerWriter_pending (o : Option SegId) (r : Record) (other : j ≠ 4) :
    (s.offerWriter o r).cmd.pending.getLsbD j = s.cmd.pending.getLsbD j := by
  unfold State.offerWriter
  split
  · split
    · exact writeAnnotation_pending _ r other
    · rfl
  · rfl

/-! ## One item delivered -/

/-- R97: the state after the queue was offered an item. -/
def State.queued (s : State) (i : PathItem) : State := if i.toQueue then s.offerQueue i.record else s

/-- R155: and after the sequencer was. -/
def State.judged (s : State) (i : PathItem) : State :=
  if i.toTrigger then (s.queued i).triggerRecord i.record else s.queued i

theorem deliver_eq (s : State) (i : PathItem) : s.deliver i = (s.judged i).offerWriter i.toSegment i.record := rfl

theorem queued_frame (s : State) (i : PathItem) : (s.queued i).trg = s.trg ∧ (s.queued i).cap = s.cap := by
  unfold State.queued
  split
  · exact ⟨by simp, by simp⟩
  · exact ⟨rfl, rfl⟩

theorem judged_dec (s : State) (i : PathItem) : (s.judged i).dec = (s.queued i).dec := by
  unfold State.judged
  split
  · simp
  · rfl

theorem judged_segments (s : State) (i : PathItem) : (s.judged i).cap.segments = s.cap.segments
    ∧ (s.judged i).cap.stagedAnnotations = s.cap.stagedAnnotations := by
  rw [← (queued_frame s i).2]
  unfold State.judged
  split
  · exact ⟨by simp, by simp⟩
  · exact ⟨rfl, rfl⟩

theorem judged_pending (s : State) (i : PathItem) (other : j ≠ 2) :
    (s.judged i).cmd.pending.getLsbD j = (s.queued i).cmd.pending.getLsbD j := by
  unfold State.judged
  split
  · exact triggerRecord_pending _ other
  · rfl

theorem judged_idle {i : PathItem} (idle : i.toTrigger = false ∨ s.trg.state ≠ .running ∨ s.trg.outstanding = true) :
    s.judged i = s.queued i := by
  unfold State.judged
  split
  · rename_i offered
    refine triggerRecord_idle _ ?_
    rw [(queued_frame s i).1]
    exact idle.resolve_left (Bool.not_eq_false _ ▸ offered)
  · rfl

theorem judged_takesEvent {i : PathItem} (offered : i.toTrigger = true) (running : s.trg.state = .running)
    (free : s.trg.outstanding = false) : ∃ (sent : List Fire) (notice : Bool),
      s.trg.takesEvent (fun u => s.trg.units[u].matchesRecord i.record = true) i.record.endTick (s.judged i).trg sent notice
      ∧ (s.judged i).cap.fires = s.cap.fires ++ sent
      ∧ (notice = true → (s.judged i).cmd.pending.getLsbD 2 = true) := by
  obtain ⟨trg, cap⟩ := queued_frame s i
  have judged : s.judged i = (s.queued i).triggerRecord i.record := if_pos offered
  rw [judged, ← trg, ← cap]
  obtain ⟨sent, notice, event, fires, pending⟩ := triggerRecord_takesEvent i.record
    ((congrArg Trg.state trg).trans running) ((congrArg Trg.outstanding trg).trans free)
  refine ⟨sent, notice, event, fires, fun raised => ?_⟩
  rw [pending, if_pos raised, BitVec.getLsbD_or, BitVec.getLsbD_twoPow]
  simp

theorem deliver_dec (s : State) (i : PathItem) : (s.deliver i).dec = (s.queued i).dec := by
  rw [deliver_eq, ← judged_dec]
  simp

theorem deliver_pending (s : State) (i : PathItem) (trigger : j ≠ 2) (pool : j ≠ 4) :
    (s.deliver i).cmd.pending.getLsbD j = (s.queued i).cmd.pending.getLsbD j :=
  (offerWriter_pending i.toSegment i.record pool).trans (judged_pending s i trigger)

theorem deliver_trg (s : State) (i : PathItem) : (s.deliver i).trg = (s.judged i).trg
    ∧ (s.deliver i).cap.fires = (s.judged i).cap.fires := by
  rw [deliver_eq]
  exact ⟨by simp, by simp⟩

/-- Settles O49. -/
theorem recordPathDeliversToQueueAndSequencer : Obligations.RecordPathDeliversToQueueAndSequencer := by
  refine ⟨fun s ctx empty => ?_, fun s ctx before after i rest path own others => ?_⟩
  · rw [exec_eq_after, after_recordPathDelivery]
    unfold State.deliverNext
    rw [empty]
  have delivered : exec (.recordPathDelivery ctx) s = _ := (exec_eq_after s (.recordPathDelivery ctx)).trans
    (congrArg Host.Outcome.next ((after_recordPathDelivery s ctx).trans (deliverNext_first path own others)))
  subst own
  generalize (if before ++ after = [] then rest else (before ++ after) :: rest) = left at delivered ⊢
  obtain ⟨w, is⟩ : ∃ w, s.setDec { s.dec with path := left } = w := ⟨_, rfl⟩
  rw [is] at delivered
  obtain ⟨trg, fires⟩ := deliver_trg w i
  obtain ⟨queuedTrg, queuedCap⟩ := queued_frame w i
  have dec := deliver_dec w i
  refine ⟨w.deliver i, delivered, ?_⟩
  clear delivered
  subst is
  have queued (offered : i.toQueue = true) : (s.setDec { s.dec with path := left }).queued i
      = (s.setDec { s.dec with path := left }).offerQueue i.record := if_pos offered
  refine ⟨by simp, by simp, by simp, by simp, by simp, by simp, by simp, by simp, by simp, fun unqueued => ?_,
    fun idle => ?_, fun offered running free => ?_, fun unwritten => ?_, fun offered isOpen room => ?_,
    fun offered isOpen full => ?_, fun x offered closed span => ?_⟩
  · rw [dec, State.queued, if_neg (Bool.eq_false_iff.mp unqueued)]
    exact ⟨rfl, rfl, rfl⟩
  · rw [trg, fires, judged_idle (by exact idle), queuedTrg, queuedCap]
    exact ⟨rfl, rfl⟩
  · obtain ⟨sent, notice, event, sentFires, noted⟩ := judged_takesEvent (s := s.setDec { s.dec with path := left }) offered running free
    exact ⟨sent, notice, trg ▸ event, fires.trans sentFires,
      fun raised => (offerWriter_pending i.toSegment i.record (by decide)).trans (noted raised)⟩
  · rw [deliver_eq, unwritten]
    exact judged_segments _ i
  · rw [deliver_pending _ i (by decide) (by decide), dec, queued offered, offerQueue_open i.record (by exact isOpen) (by exact room), queuePush_eq]
    refine ⟨rfl, isOpen, rfl, rfl, rfl, fun armed reached => ?_⟩
    dsimp only
    rw [if_pos ⟨armed, reached⟩, BitVec.getLsbD_or, BitVec.getLsbD_twoPow]
    simp
  · rw [deliver_pending _ i (by decide) (by decide), dec, queued offered, offerQueue_full i.record (by exact isOpen) (by exact full)]
    refine ⟨rfl, rfl, rfl, rfl, ?_⟩
    refine (BitVec.getLsbD_or).trans ?_
    rw [BitVec.getLsbD_twoPow]
    simp [Notice.index]
  · rw [dec, queued offered, offerQueue_closed i.record (by exact closed) (by exact span)]
    exact ⟨rfl, closed, rfl, rfl⟩

end Sys2Proof.Machine
end

section
/-! PROOFS. The pool's requests page by page (R44, R45, R63), and the annotation writer (O50). -/

namespace Sys2Proof.Machine

variable {s u : State} {id : SegId} {g : Segment} {r : Record}

/-! ## One page linked, one chain rotated -/

theorem linkPage_behind {m : PageMap} (wf : PageMap.wf m) {c : Chain} {p tail : Nat} (owner : PageOwner)
    (end_ : c.tail = some tail) (apart : p ≠ tail) : (linkPage m c p owner).2 = ⟨c.head, some p, c.count + 1⟩
      ∧ PageMap.get (linkPage m c p owner).1 p = ⟨owner, none⟩
      ∧ PageMap.get (linkPage m c p owner).1 tail = ⟨(PageMap.get m tail).owner, some p⟩
      ∧ ∀ q, q ≠ p → q ≠ tail → PageMap.get (linkPage m c p owner).1 q = PageMap.get m q := by
  have get (q : Nat) : PageMap.get (linkPage m c p owner).1 q = if q = tail then ⟨(PageMap.get m tail).owner, some p⟩
      else if q = p then ⟨owner, none⟩ else PageMap.get m q := by
    unfold linkPage
    rw [end_]
    dsimp only
    rw [PageMap.setNext, PageMap.get_set (PageMap.set_wf wf _ _), PageMap.get_set wf, PageMap.get_set wf,
      if_neg (Ne.symm apart)]
  refine ⟨?_, ?_, ?_, fun q other rest => ?_⟩
  · unfold linkPage
    rw [end_]
  · rw [get, if_neg apart, if_pos rfl]
  · rw [get, if_pos rfl]
  · rw [get, if_neg rest, if_neg other]

theorem rotateChain_single (m : PageMap) {c : Chain} (single : c.count < 2) : rotateChain m c = (m, c) := if_pos single

theorem rotateChain_turned {m : PageMap} (wf : PageMap.wf m) {c : Chain} {h tail : Nat} (many : 2 ≤ c.count)
    (head : c.head = some h) (end_ : c.tail = some tail) (apart : h ≠ tail) :
    (rotateChain m c).2 = ⟨(PageMap.get m h).next, some h, c.count⟩
      ∧ PageMap.get (rotateChain m c).1 h = ⟨(PageMap.get m h).owner, none⟩
      ∧ PageMap.get (rotateChain m c).1 tail = ⟨(PageMap.get m tail).owner, some h⟩ := by
  have turned : rotateChain m c = (PageMap.setNext (PageMap.setNext m h none) tail (some h),
      ⟨(PageMap.get m h).next, some h, c.count⟩) := by
    unfold rotateChain
    rw [if_neg (Nat.not_lt.mpr many), head, end_]
  rw [turned]
  refine ⟨rfl, ?_, ?_⟩
  · rw [PageMap.setNext, PageMap.get_set (PageMap.setNext_wf wf _ _), if_neg apart, PageMap.setNext, PageMap.get_set wf,
      if_pos rfl]
  · rw [PageMap.setNext, PageMap.get_set (PageMap.setNext_wf wf _ _), if_pos rfl, PageMap.setNext, PageMap.get_set wf,
      if_neg (Ne.symm apart)]

/-! ## The pool's answer (R44, R46) -/

theorem takePage_head {m : PageMap} {pool : Chain} {p : Nat} (left : pool.count ≠ 0) (head : pool.head = some p) :
    takePage m pool = some (p, if pool.count = 1 then {} else ⟨(PageMap.get m p).next, pool.tail, pool.count - 1⟩) := by
  unfold takePage
  rw [if_neg left, head]

/-- What CAP and CMD hold after the pool has lost pages: the pages and the pool moved, the pool-low test taken. -/
def State.pagesTaken (s : State) (pages : PageMap) (pool : Chain) : State := { s with
  cap := { s.cap with pages := pages, pool := pool, poolArmed := decide (s.cap.poolThreshold ≤ pool.count) }
  cmd := { s.cmd with pending := if s.cap.poolArmed ∧ pool.count < s.cap.poolThreshold
    then s.cmd.pending ||| BitVec.twoPow 14 4 else s.cmd.pending } }

theorem allocate_head {o : PageOwner} {c : Chain} {p : Nat} (left : s.cap.pool.count ≠ 0)
    (head : s.cap.pool.head = some p) : s.allocate o c = some (s.pagesTaken (linkPage s.cap.pages c p o).1
      (if s.cap.pool.count = 1 then {} else ⟨(PageMap.get s.cap.pages p).next, s.cap.pool.tail, s.cap.pool.count - 1⟩),
      (linkPage s.cap.pages c p o).2) := by
  unfold State.allocate
  rw [takePage_head left head]
  dsimp only
  rw [State.checkPool_eq]
  rfl

theorem poolLeft_count {pool rest : Chain} (rest_ : rest.count = pool.count - 1) :
    (if pool.count = 1 then {} else rest : Chain).count = pool.count - 1 := by
  split
  · rename_i one
    rw [one]
  · exact rest_

theorem pagesTaken_takesPage (s : State) (p : Nat) (pages : PageMap) : s.takesPage p (s.pagesTaken pages
    (if s.cap.pool.count = 1 then {} else ⟨(PageMap.get s.cap.pages p).next, s.cap.pool.tail, s.cap.pool.count - 1⟩)) := by
  have count := poolLeft_count (pool := s.cap.pool)
    (rest := ⟨(PageMap.get s.cap.pages p).next, s.cap.pool.tail, s.cap.pool.count - 1⟩) rfl
  refine ⟨rfl, rfl, ?_, ?_⟩
  · unfold State.pagesTaken
    rw [decide_eq_true_iff, count]
  · unfold State.pagesTaken
    rw [count]
    dsimp only
    split
    · rename_i crossed
      rw [BitVec.getLsbD_or, BitVec.getLsbD_twoPow]
      simp [crossed]
    · rename_i kept
      exact (or_iff_left kept).symm

/-- The allocation seen from a state that differs in no page, no pool and no POOL_LOW. -/
theorem State.takesPage.congr {t t' : State} {p : Nat} (h : u.takesPage p t) (pool : u.cap.pool = s.cap.pool)
    (pages : u.cap.pages = s.cap.pages) (threshold : u.cap.poolThreshold = s.cap.poolThreshold)
    (armed : u.cap.poolArmed = s.cap.poolArmed) (low : u.cmd.pending.getLsbD 4 = s.cmd.pending.getLsbD 4)
    (pool' : t'.cap.pool = t.cap.pool) (threshold' : t'.cap.poolThreshold = t.cap.poolThreshold)
    (armed' : t'.cap.poolArmed = t.cap.poolArmed) (low' : t'.cmd.pending.getLsbD 4 = t.cmd.pending.getLsbD 4) :
    s.takesPage p t' := by
  unfold State.takesPage at h ⊢
  rw [pool', threshold', armed', low', ← pool, ← pages, ← threshold, ← armed, ← low]
  exact h

/-! ## The answers to a page request of the annotation chain (R64, R69) -/

theorem annotationAnswer_refuses {n : Nat} (why :
    (g.state = .preTrigger ∧ g.annotations.count < g.annotationBudget ∧ g.annotations.count < 2 ∧ n = 0)
      ∨ (g.state = .postTrigger ∧ (g.annotationBudget ≤ g.annotations.count ∨ n = 0))) :
    ∃ reason, g.annotationAnswer n = .refuse reason := by
  unfold Segment.annotationAnswer
  rcases why with ⟨pre, below, single, none⟩ | ⟨post, full⟩
  · rw [pre]
    dsimp only
    unfold rotatingAnswer
    exact ⟨_, (if_neg (fun both => both.2 none)).trans ((if_neg (Nat.not_le.mpr below)).trans
      (if_neg (Nat.not_le.mpr single)))⟩
  · rw [post]
    dsimp only
    unfold growingAnswer
    split
    · exact ⟨_, rfl⟩
    · rename_i room
      exact ⟨_, if_pos (full.resolve_left room)⟩

theorem annotationAnswer_allocates {n : Nat} (captures : g.state = .preTrigger ∨ g.state = .postTrigger)
    (below : g.annotations.count < g.annotationBudget) (left : n ≠ 0) : g.annotationAnswer n = .allocate := by
  unfold Segment.annotationAnswer
  rcases captures with pre | post
  · rw [pre]
    exact if_pos ⟨below, left⟩
  · rw [post]
    exact (if_neg (Nat.not_le.mpr below)).trans (if_neg left)

theorem annotationAnswer_rotates {n : Nat} (pre : g.state = .preTrigger)
    (none : g.annotationBudget ≤ g.annotations.count ∨ n = 0)
    (turns : g.annotationBudget ≤ g.annotations.count ∨ 2 ≤ g.annotations.count) : g.annotationAnswer n = .rotate := by
  unfold Segment.annotationAnswer
  rw [pre]
  dsimp only
  unfold rotatingAnswer
  rw [if_neg fun both => none.elim (Nat.not_le.mpr both.1) both.2]
  split
  · rfl
  · rename_i room
    exact if_pos (turns.resolve_left room)

theorem annotationFill_full (some_ : g.annotations.count ≠ 0) :
    g.annotationFill = Config.annotationsPerPage ↔ g.annotationsStored ≠ 0 ∧ g.annotationsStored % 256 = 0 := by
  unfold Segment.annotationFill Config.annotationsPerPage
  split
  · rename_i none
    have := none.resolve_left some_
    omega
  · rename_i stored
    rw [not_or] at stored
    omega

/-! ## One record written (R55, R56) -/

/-- R55: what the segment and the FIFO hold after an annotation was placed. -/
theorem placeAnnotation_cap (u : State) (id : SegId) (a : Annotation) : (u.placeAnnotation id a).cap = { u.cap with
    stagedAnnotations := u.cap.stagedAnnotations ++ [⟨u.cap.segments[id].annotations.tail.getD 0,
      u.cap.segments[id].annotationsStored % 256, a⟩]
    segments := u.cap.segments.set id { u.cap.segments[id] with
      annotationsStored := min (u.cap.segments[id].annotationsStored + 1) (2 ^ 32 - 1) } } := rfl

/-- The same behind a segment's new chain. -/
theorem placeAnnotation_set (u : State) (id : SegId) (g : Segment) (a : Annotation) :
    ((u.setSegment id g).placeAnnotation id a) = { u with cap := { u.cap with
      stagedAnnotations := u.cap.stagedAnnotations ++ [⟨g.annotations.tail.getD 0, g.annotationsStored % 256, a⟩]
      segments := (u.cap.segments.set id g).set id
        { g with annotationsStored := min (g.annotationsStored + 1) (2 ^ 32 - 1) } } } := by
  have get : (u.setSegment id g).segment id = g := (setSegment_get u id g id).trans (if_pos rfl)
  unfold State.placeAnnotation
  rw [get]
  rfl

theorem writeAnnotation_drops (get : u.cap.segments[id] = g) (some_ : g.annotations.count ≠ 0)
    (why : 64 ≤ u.cap.stagedAnnotations.length ∨ g.annotationsStored = 2 ^ 32 - 1
      ∨ (g.annotationsStored ≠ 0 ∧ g.annotationsStored % 256 = 0
        ∧ ((g.state = .preTrigger ∧ g.annotations.count < g.annotationBudget ∧ g.annotations.count < 2
            ∧ u.cap.pool.count = 0)
          ∨ (g.state = .postTrigger ∧ (g.annotationBudget ≤ g.annotations.count ∨ u.cap.pool.count = 0))))) :
    u.writeAnnotation id r = u.dropAnnotation id := by
  have segment : u.segment id = g := get
  unfold State.writeAnnotation
  rw [segment]
  dsimp only
  split
  · rfl
  · rename_i room
    have full := (or_assoc.mpr why).resolve_left room
    obtain ⟨stored, boundary, refused⟩ := full
    obtain ⟨reason, answer⟩ := annotationAnswer_refuses refused
    rw [if_pos ((annotationFill_full some_).mpr ⟨stored, boundary⟩), answer]

theorem writer_open (room : u.cap.stagedAnnotations.length < 64) (below : g.annotationsStored ≠ 2 ^ 32 - 1) :
    ¬ (Config.annotationFifoDepth ≤ u.cap.stagedAnnotations.length ∨ g.annotationsStored = 2 ^ 32 - 1) :=
  not_or.mpr ⟨Nat.not_le.mpr room, below⟩

section Room

variable (get : u.cap.segments[id] = g) (some_ : g.annotations.count ≠ 0) (room : u.cap.stagedAnnotations.length < 64)
  (below : g.annotationsStored ≠ 2 ^ 32 - 1)

include get some_ room below

theorem writeAnnotation_places (within : g.annotationsStored = 0 ∨ g.annotationsStored % 256 ≠ 0) :
    u.writeAnnotation id r = u.placeAnnotation id (r.annotation (g.startTick.getD 0)) := by
  have segment : u.segment id = g := get
  unfold State.writeAnnotation
  rw [segment]
  dsimp only
  rw [if_neg (writer_open room below), if_neg]
  exact fun full => by
    obtain ⟨stored, boundary⟩ := (annotationFill_full some_).mp full
    exact within.elim stored (· boundary)

theorem writeAnnotation_allocates {p : Nat} (captures : g.state = .preTrigger ∨ g.state = .postTrigger)
    (stored : g.annotationsStored ≠ 0) (boundary : g.annotationsStored % 256 = 0)
    (budget : g.annotations.count < g.annotationBudget) (left : u.cap.pool.count ≠ 0) (head : u.cap.pool.head = some p) :
    u.writeAnnotation id r = ((u.pagesTaken (linkPage u.cap.pages g.annotations p (.annotations id)).1
        (if u.cap.pool.count = 1 then {} else
          ⟨(PageMap.get u.cap.pages p).next, u.cap.pool.tail, u.cap.pool.count - 1⟩)).setSegment id
        { g with annotations := (linkPage u.cap.pages g.annotations p (.annotations id)).2 }).placeAnnotation id
      (r.annotation (g.startTick.getD 0)) := by
  have segment : u.segment id = g := get
  unfold State.writeAnnotation
  rw [segment]
  dsimp only
  rw [if_neg (writer_open room below), if_pos ((annotationFill_full some_).mpr ⟨stored, boundary⟩),
    annotationAnswer_allocates captures budget left]
  dsimp only
  rw [allocate_head left head]
  dsimp only
  unfold State.pagesTaken State.segment
  dsimp only
  rw [get]

theorem writeAnnotation_rotates (stored : g.annotationsStored ≠ 0) (boundary : g.annotationsStored % 256 = 0)
    (pre : g.state = .preTrigger) (none : g.annotationBudget ≤ g.annotations.count ∨ u.cap.pool.count = 0)
    (turns : g.annotationBudget ≤ g.annotations.count ∨ 2 ≤ g.annotations.count) :
    u.writeAnnotation id r = ((u.setCap { u.cap with pages := (rotateChain u.cap.pages g.annotations).1 }).setSegment id
        { g with annotations := (rotateChain u.cap.pages g.annotations).2
                 firstAnnotation := g.firstAnnotation + 256 }).placeAnnotation id
      (r.annotation (g.startTick.getD 0)) := by
  have segment : u.segment id = g := get
  unfold State.writeAnnotation
  rw [segment]
  dsimp only
  rw [if_neg (writer_open room below), if_pos ((annotationFill_full some_).mpr ⟨stored, boundary⟩),
    annotationAnswer_rotates pre none turns]
  rfl

end Room

/-! ## What a written record leaves -/

theorem writeAnnotation_get_other (u : State) (r : Record) {j : SegId} (other : j ≠ id) :
    (u.writeAnnotation id r).cap.segments[j] = u.cap.segments[j] := by
  unfold State.writeAnnotation
  extract_lets g a
  have placed (v : State) : (v.placeAnnotation id a).cap.segments[j] = v.cap.segments[j] := by
    rw [placeAnnotation_cap]
    dsimp only
    rw [set_get, if_neg other]
  have set (v : State) (g : Segment) : (v.setSegment id g).cap.segments[j] = v.cap.segments[j] := by
    rw [setSegment_get, if_neg other]
  split
  · exact set u _
  · split
    · split
      · exact set u _
      · split
        · rename_i allocated
          refine (placed _).trans ((set _ _).trans ?_)
          rw [allocate_segments allocated]
        · exact set u _
      · refine (placed _).trans (set _ _)
    · exact placed u

/-- R46: the flag moves with the pool alone. -/
theorem writeAnnotation_armed (u : State) (id : SegId) (r : Record) :
    (u.writeAnnotation id r).cap.pool = u.cap.pool → (u.writeAnnotation id r).cap.poolArmed = u.cap.poolArmed := by
  unfold State.writeAnnotation
  extract_lets g a
  split
  · exact fun _ => rfl
  · split
    · split
      · exact fun _ => rfl
      · split
        · rename_i t chain allocated
          intro same
          obtain ⟨p, taken, -, -⟩ := allocate_spec allocated
          exfalso
          have same : t.cap.pool = u.cap.pool := same
          rw [same] at taken
          unfold takePage at taken
          split at taken
          · cases taken
          · split at taken
            · cases taken
            · rename_i left _ _
              have counts := congrArg Chain.count (Prod.mk.inj (Option.some.inj taken)).2
              rw [poolLeft_count rfl] at counts
              omega
        · exact fun _ => rfl
      · exact fun _ => rfl
    · exact fun _ => rfl

/-! ## The state the writer meets -/

theorem judged_cap (s : State) (i : PathItem) : ∃ fires, (s.judged i).cap = { s.cap with fires := fires } := by
  rw [← (queued_frame s i).2]
  unfold State.judged State.triggerRecord
  split
  · split
    · obtain ⟨_, sent, _, -, left⟩ := evaluate_takesEvent (s.queued i)
        (fun u => (s.queued i).trg.units[u].matchesRecord i.record) i.record.endTick
      exact ⟨(s.queued i).cap.fires ++ sent, congrArg State.cap left⟩
    · exact ⟨_, rfl⟩
  · exact ⟨_, rfl⟩

theorem queued_poolLow (s : State) (i : PathItem) :
    (s.queued i).cmd.pending.getLsbD 4 = s.cmd.pending.getLsbD 4 := by
  unfold State.queued State.offerQueue
  split
  · split
    · split
      · rw [queuePush_eq]
        dsimp only
        split
        · exact pending_or_other _ (by decide)
        · rfl
      · exact pending_or_other _ (by decide)
    · rfl
  · rfl

theorem annotation_eq (r : Record) (start : Nat) : r.annotation start =
    { startTick := if r.startTick < start then 0 else r.startTick - start
      duration := min ((r.endTick - start) - (r.startTick - start)) (2 ^ 32 - 1)
      context := r.context
      kind := r.kind
      flags := r.flags.extractLsb' 0 16
      clipped := decide (r.startTick < start)
      firstByte := if r.length = 0 then 0#8 else r.head.headD 0#8
      length := min r.length 255 } := by
  have since : r.startTick - start = if r.startTick < start then 0 else r.startTick - start := by
    split
    · omega
    · rfl
  unfold Record.annotation Record.annotationFlags
  rw [BitVec.setWidth_eq_extractLsb' (by decide)]
  congr 1

/-- Settles O50. -/
theorem annotationWriterStoresOrDrops : Obligations.AnnotationWriterStoresOrDrops := by
  intro s ctx before after i rest id g start tail a path own others writes captures get started end_ some_ canonical is
  have delivered : exec (.recordPathDelivery ctx) s = _ := (exec_eq_after s (.recordPathDelivery ctx)).trans
    (congrArg Host.Outcome.next ((after_recordPathDelivery s ctx).trans (deliverNext_first path own others)))
  generalize (if before ++ after = [] then rest else (before ++ after) :: rest) = left at delivered
  obtain ⟨w, wIs⟩ : ∃ w, s.setDec { s.dec with path := left } = w := ⟨_, rfl⟩
  have wCap : w.cap = s.cap := wIs ▸ rfl
  have wCmd : w.cmd = s.cmd := wIs ▸ rfl
  rw [wIs, deliver_eq, writes] at delivered
  obtain ⟨fires, cap⟩ := judged_cap w i
  have low : (w.judged i).cmd.pending.getLsbD 4 = s.cmd.pending.getLsbD 4 :=
    (judged_pending w i (by decide)).trans ((queued_poolLow w i).trans (by rw [wCmd]))
  generalize w.judged i = u at delivered cap low
  rw [wCap] at cap
  have segments : s.cap.segments = u.cap.segments := by rw [cap]
  have staged : s.cap.staged = u.cap.staged := by rw [cap]
  have annotations : s.cap.stagedAnnotations = u.cap.stagedAnnotations := by rw [cap]
  have encoder : s.cap.encoder = u.cap.encoder := by rw [cap]
  have dram : s.cap.dram = u.cap.dram := by rw [cap]
  have pool : s.cap.pool = u.cap.pool := by rw [cap]
  have armed : s.cap.poolArmed = u.cap.poolArmed := by rw [cap]
  have threshold : s.cap.poolThreshold = u.cap.poolThreshold := by rw [cap]
  have pages : s.cap.pages = u.cap.pages := by rw [cap]
  have capturing : g.state = .preTrigger ∨ g.state = .postTrigger := by
    rw [← get]
    exact captures
  have wf : PageMap.wf u.cap.pages := pages ▸ canonical.2
  have written : u.offerWriter (some id) i.record = u.writeAnnotation id i.record := if_pos ((isCapturing_iff _).mpr (by
    rw [State.segment, ← segments]
    exact captures))
  rw [written] at delivered
  have record : i.record.annotation (g.startTick.getD 0) = a := by
    rw [started, Option.getD_some, annotation_eq, is, own]
  rw [segments] at get
  simp only [segments, staged, annotations, encoder, dram, pool, armed, pages]
  refine ⟨u.writeAnnotation id i.record, delivered, fun j other => writeAnnotation_get_other u _ other, by simp, by simp,
    by simp, writeAnnotation_armed u id _, fun why => ?_, fun room below => ⟨fun within => ?_, fun stored boundary =>
      ⟨fun p budget left head apart => ?_, fun pre none => ⟨fun single budget => ?_, fun h n many head apart next => ?_⟩⟩⟩⟩
  · rw [writeAnnotation_drops get some_ why]
    exact ⟨(setSegment_get u id _ id).trans ((if_pos rfl).trans (by rw [State.segment, get]; rfl)), rfl, rfl, rfl⟩
  · rw [writeAnnotation_places get some_ room below within, record, placeAnnotation_cap, get, end_]
    exact ⟨set_set_get _ _ _, rfl, rfl, rfl⟩
  · obtain ⟨chain, atPage, atTail, rest⟩ := linkPage_behind wf (.annotations id) end_ apart
    have taken := pagesTaken_takesPage u p (linkPage u.cap.pages g.annotations p (.annotations id)).1
    rw [writeAnnotation_allocates get some_ room below capturing stored boundary budget left head, record, chain,
      placeAnnotation_set, boundary]
    exact ⟨set_set_get _ _ _, rfl, taken.congr pool.symm pages.symm threshold.symm armed.symm low rfl rfl rfl rfl, atPage,
      atTail, rest⟩
  · rw [writeAnnotation_rotates get some_ room below stored boundary pre none (.inl (by omega)), record,
      rotateChain_single _ (by omega), placeAnnotation_set, boundary, end_]
    exact ⟨set_set_get _ _ _, rfl, rfl, rfl⟩
  · obtain ⟨chain, atHead, atTail⟩ := rotateChain_turned wf many head end_ apart
    rw [writeAnnotation_rotates get some_ room below stored boundary pre none (.inr many), record, chain, next,
      placeAnnotation_set, boundary]
    exact ⟨set_set_get _ _ _, rfl, rfl, atHead, atTail⟩

end Sys2Proof.Machine
end

section
/-! PROOFS. SEGMENT_START: its refusals in order, and the capture that begins (O30). -/

namespace Sys2Proof.Machine

variable {s : State} {id : SegId}

/-! ## The refusals (R60) -/

/-- R60: no sample is formed yet. -/
def Pfe.unformed (p : Pfe) : Bool :=
  match p.run with
  | some r => decide (r.formed = 0)
  | none => true

theorem unformed_iff (p : Pfe) : p.unformed = true ↔ ∀ r, p.run = some r → r.formed = 0 := by
  unfold Pfe.unformed
  cases p.run with
  | none => simp
  | some r => simp

theorem startRefusal_vacant (vacant : s.cap.segments[id].state = .vacant) : s.startRefusal id = some .notFound :=
  if_pos vacant

theorem startRefusal_wrong (used : s.cap.segments[id].state ≠ .vacant) (other : s.cap.segments[id].state ≠ .primed) :
    s.startRefusal id = some .wrongState := (if_neg used).trans (if_pos other)

section Primed

variable (primed : s.cap.segments[id].state = .primed)

include primed

theorem startRefusal_busy (busy : (∃ i, s.captures i) ∨ ∃ i : SegId, s.cap.segments[i].drainPending = true) :
    s.startRefusal id = some .busy := by
  have segment : (s.segment id).state = .primed := primed
  unfold State.startRefusal
  rw [segment, if_neg (by decide), if_neg (not_not.mpr rfl)]
  split
  · rfl
  · rename_i captures
    exact if_pos ((draining?_isSome s).mpr (busy.resolve_left fun some_ => captures ((capturing?_isSome s).mpr some_)))

variable (alone : s.noCapture) (drained : ∀ i : SegId, s.cap.segments[i].drainPending = false)

include alone drained

theorem startRefusal_free : s.startRefusal id
    = if s.lvl.isSwitching then some .level else if s.lvl.exhausted then some .level
      else if s.pfe.unformed then some .level
      else if s.cal.isActive then some .busy else if s.cap.pool.count < 2 then some .full else none := by
  have segment : (s.segment id).state = .primed := primed
  unfold State.startRefusal
  rw [segment, if_neg (by decide), if_neg (not_not.mpr rfl), if_neg fun captures => ?captures, if_neg fun drains => ?drains]
  · rfl
  case captures =>
    obtain ⟨i, captures⟩ := (capturing?_isSome s).mp captures
    exact alone i captures
  case drains =>
    obtain ⟨i, drains⟩ := (draining?_isSome s).mp drains
    exact Bool.eq_false_iff.mp (drained i) drains

theorem startRefusal_level (level : s.switches ∨ s.lvl.exhausted = true ∨ ∀ r, s.pfe.run = some r → r.formed = 0) :
    s.startRefusal id = some .level := by
  rw [startRefusal_free primed alone drained]
  split
  · rfl
  · rename_i steady
    split
    · rfl
    · rename_i counting
      have unformed := (level.resolve_left fun switches => steady ((isSwitching_iff s).mpr switches)).resolve_left counting
      exact if_pos ((unformed_iff s.pfe).mpr unformed)

variable (steady : ¬ s.switches) (counting : s.lvl.exhausted = false) (sampled : ∃ r, s.pfe.run = some r ∧ r.formed ≠ 0)

include steady counting sampled

theorem startRefusal_sampled : s.startRefusal id
    = if s.cal.isActive then some .busy else if s.cap.pool.count < 2 then some .full else none := by
  obtain ⟨r, run, formed⟩ := sampled
  rw [startRefusal_free primed alone drained, if_neg (mt (isSwitching_iff s).mp steady),
    if_neg (Bool.eq_false_iff.mp counting), if_neg fun unformed => formed ((unformed_iff s.pfe).mp unformed r run)]

end Primed

/-! ## The two pages (R44, R61) -/

/-- R44: a page linked as the first of a chain. -/
theorem linkPage_first (m : PageMap) (p : Nat) (owner : PageOwner) :
    linkPage m {} p owner = (PageMap.set m p ⟨owner, none⟩, ⟨some p, some p, 1⟩) := rfl

/-- R61: what the two allocations leave: `p` a page of records, `q` a page of annotations. -/
def State.opened (s : State) (id : SegId) (p q : Nat) : State :=
  (s.pagesTaken (PageMap.set s.cap.pages p ⟨.records id, none⟩)
      ⟨(PageMap.get s.cap.pages p).next, s.cap.pool.tail, s.cap.pool.count - 1⟩).pagesTaken
    (PageMap.set (PageMap.set s.cap.pages p ⟨.records id, none⟩) q ⟨.annotations id, none⟩)
    (if s.cap.pool.count = 2 then {} else ⟨(PageMap.get s.cap.pages q).next, s.cap.pool.tail, s.cap.pool.count - 2⟩)

theorem openedPool_count (pool : Chain) {rest : Chain} (rest_ : rest.count = pool.count - 2) :
    (if pool.count = 2 then {} else rest : Chain).count = pool.count - 2 := by
  split
  · rename_i both
    rw [both]
  · exact rest_

theorem opened_get {p q : Nat} (wf : PageMap.wf s.cap.pages) (x : Nat) : PageMap.get (s.opened id p q).cap.pages x
    = if x = q then ⟨.annotations id, none⟩ else if x = p then ⟨.records id, none⟩ else PageMap.get s.cap.pages x := by
  unfold State.opened State.pagesTaken
  dsimp only
  rw [PageMap.get_set (PageMap.set_wf wf _ _), PageMap.get_set wf]

/-- An allocation moves the pages, the pool, its flag and POOL_LOW. -/
theorem opened_whole (s : State) (id : SegId) (p q : Nat) : s.opened id p q = { s with
    cap := { s.cap with
      pages := (s.opened id p q).cap.pages, poolArmed := (s.opened id p q).cap.poolArmed
      pool := if s.cap.pool.count = 2 then {} else
        ⟨(PageMap.get s.cap.pages q).next, s.cap.pool.tail, s.cap.pool.count - 2⟩ }
    cmd := { s.cmd with pending := (s.opened id p q).cmd.pending } } := rfl

/-- R46: the tests of both allocations, as one falling crossing. -/
theorem opened_low (s : State) (id : SegId) (p q : Nat) (two : 2 ≤ s.cap.pool.count)
    (armed : s.cap.poolArmed = decide (s.cap.poolThreshold ≤ s.cap.pool.count)) :
    (s.opened id p q).cap.poolArmed = decide (s.cap.poolThreshold ≤ s.cap.pool.count - 2)
      ∧ (s.opened id p q).cmd.pending
        = if s.cap.poolThreshold ≤ s.cap.pool.count ∧ s.cap.pool.count - 2 < s.cap.poolThreshold
          then s.cmd.pending ||| BitVec.twoPow 14 4 else s.cmd.pending := by
  unfold State.opened State.pagesTaken
  dsimp only
  rw [openedPool_count s.cap.pool rfl, armed]
  simp only [decide_eq_true_iff]
  refine ⟨trivial, ?_⟩
  by_cases late : s.cap.poolThreshold ≤ s.cap.pool.count - 1
  · rw [if_neg (show ¬ (_ ∧ s.cap.pool.count - 1 < _) from fun both => by omega)]
    exact if_congr (by omega) rfl rfl
  · rw [if_neg (show ¬ (s.cap.poolThreshold ≤ s.cap.pool.count - 1 ∧ _) from fun both => late both.1)]
    exact if_congr (by omega) rfl rfl

theorem startCapture_eq {p q : Nat} (wf : PageMap.wf s.cap.pages) (two : 2 ≤ s.cap.pool.count)
    (head : s.cap.pool.head = some p) (next : (PageMap.get s.cap.pages p).next = some q) (apart : p ≠ q) :
    s.startCapture id = (s.opened id p q).beginCapture id ⟨some p, some p, 1⟩ ⟨some q, some q, 1⟩ := by
  have first := allocate_head (o := .records id) (c := {}) (by omega) head
  rw [linkPage_first, if_neg (by omega)] at first
  have second := allocate_head (s := s.pagesTaken (PageMap.set s.cap.pages p ⟨.records id, none⟩)
    ⟨(PageMap.get s.cap.pages p).next, s.cap.pool.tail, s.cap.pool.count - 1⟩) (o := .annotations id) (c := {}) (p := q)
    (show s.cap.pool.count - 1 ≠ 0 by omega) next
  have left : ((if s.cap.pool.count - 1 = 1 then {} else
      ⟨(PageMap.get (PageMap.set s.cap.pages p ⟨.records id, none⟩) q).next, s.cap.pool.tail, s.cap.pool.count - 1 - 1⟩ : Chain))
      = if s.cap.pool.count = 2 then {} else ⟨(PageMap.get s.cap.pages q).next, s.cap.pool.tail, s.cap.pool.count - 2⟩ := by
    rw [PageMap.get_set wf, if_neg (Ne.symm apart), Nat.sub_sub]
    exact if_congr (by omega) rfl rfl
  unfold State.startCapture
  rw [first]
  dsimp only
  rw [second, linkPage_first]
  dsimp only
  unfold State.opened
  rw [← left]
  rfl

/-- Settles O30. -/
theorem segmentStartIsRefusedOrBegins : Obligations.SegmentStartIsRefusedOrBegins := by
  refine ⟨fun s b h => ?_, fun s b id r p q h canonical named primed alone drained steady counting run formed idle two head
    next apart => ?_⟩
  · have entry := after_segmentStart s .enough b
    refine ⟨fun high => exec_of_body h entry (onSegment_of_le high), fun id named => ?_⟩
    have refused {st : Status} (refusal : s.startRefusal id = some st) :
        exec (.segmentStart .enough b) s = .next (s.answered st) := by
      refine exec_of_body h entry ((onSegment_eq named).trans ?_)
      unfold bodySegmentStart
      rw [refusal]
      rfl
    refine ⟨fun vacant => refused (startRefusal_vacant vacant), fun used other => refused (startRefusal_wrong used other),
      fun primed => ⟨fun busy => refused (startRefusal_busy primed busy), fun alone drained =>
        ⟨fun level => refused (startRefusal_level primed alone drained level), fun steady counting sampled => ?_⟩⟩⟩
    have free := startRefusal_sampled primed alone drained steady counting sampled
    refine ⟨fun active => refused (free.trans (if_pos ((isActive_iff s).mpr active))), fun idle few => refused ?_⟩
    exact free.trans ((if_neg (mt (isActive_iff s).mp idle)).trans (if_pos few))
  · have wf : PageMap.wf s.cap.pages := canonical.2
    have free : s.startRefusal id = none :=
      (startRefusal_sampled primed alone drained steady counting ⟨r, run, formed⟩).trans
        ((if_neg (mt (isActive_iff s).mp idle)).trans (if_neg (Nat.not_lt.mpr two)))
    have body : bodySegmentStart id s
        = ((s.opened id p q).beginCapture id ⟨some p, some p, 1⟩ ⟨some q, some q, 1⟩, .only .accepted) := by
      unfold bodySegmentStart
      rw [free, ← startCapture_eq wf two head next apart]
    have at_ := opened_get (id := id) (p := p) (q := q) wf
    have low := opened_low s id p q two
    have whole := opened_whole s id p q
    generalize (s.opened id p q).cap.pages = pages at at_ whole
    generalize (s.opened id p q).cap.poolArmed = armed at low whole
    generalize (s.opened id p q).cmd.pending = pending at low whole
    generalize (if s.cap.pool.count = 2 then {} else
      ⟨(PageMap.get s.cap.pages q).next, s.cap.pool.tail, s.cap.pool.count - 2⟩ : Chain) = pool at whole ⊢
    rw [whole] at body
    refine ⟨_, exec_of_body h (after_segmentStart s .enough b) ((onSegment_eq named).trans body),
      (beginCapture_get _ id _ _ id).trans (if_pos rfl), fun j other => (beginCapture_get _ id _ _ j).trans (if_neg other), rfl,
      (at_ p).trans ((if_neg apart).trans (if_pos rfl)), (at_ q).trans (if_pos rfl),
      fun x away far => (at_ x).trans ((if_neg far).trans (if_neg away)), rfl, rfl, rfl, rfl, rfl, rfl, rfl, rfl, rfl, rfl,
      fun i j => ?_, fun u => ?_, rfl, rfl, rfl, fun before => ?_, rfl, rfl, rfl, rfl, rfl, rfl, rfl⟩
    · exact zeroCounters_get i j
    · exact replicate_get _ u
    · obtain ⟨flag, raised⟩ := low before
      exact ⟨flag, by rw [← raised]; rfl⟩

end Sys2Proof.Machine
end

section
/-! PROOFS. A fire that reaches capture memory (O38). -/

namespace Sys2Proof.Machine

variable {s : State} {id : SegId} {f : Fire} {index : Nat}

/-- R66: the state with one fire taken from those on their way. -/
def State.withoutFire (s : State) (index : Nat) : State :=
  s.setCap { s.cap with fires := s.cap.fires.eraseIdx index }

/-- R65: the segment in POST_TRIGGER, the sequencer DONE, TRIGGER_FIRED raised; no seal is decided yet. -/
def State.triggered (s : State) (id : SegId) (f : Fire) (early : Bool) (tick n : Nat) : State := { s with
  cap := { s.cap with segments := s.cap.segments.set id { s.cap.segments[id] with
    state := .postTrigger, triggerTick := some tick, clipped := early, forced := f.forced, postCount := n } }
  trg := s.trg.finish
  cmd := { s.cmd with pending := s.cmd.pending ||| BitVec.twoPow 14 1 } }

theorem takeFire_discards (here : s.cap.fires[index]? = some f)
    (why : s.noCapture ∨ f.live = false ∨ ∃ id, s.capturesOnly id ∧ s.cap.segments[id].state = .postTrigger) :
    s.takeFire index = s.withoutFire index := by
  unfold State.takeFire
  rw [here]
  dsimp only
  split
  · rename_i id capturing
    refine if_neg fun both => ?_
    obtain ⟨live, pre⟩ := both
    obtain none | stale | ⟨j, only, post⟩ := why
    · exact none id (captures_of_capturing? capturing)
    · rw [stale] at live
      cases live
    · have same : id = j := Option.some.inj (capturing.symm.trans (capturing?_of_only only))
      subst same
      exact absurd (pre.symm.trans post) (by decide)
  · rfl

theorem pending_ite_other (p : BitVec 14) {c : Prop} [Decidable c] {k j : Nat} (other : k ≠ j) :
    (if c then p ||| BitVec.twoPow 14 k else p).getLsbD j = p.getLsbD j := by
  split
  · exact pending_or_other p other
  · rfl

theorem countedFrom_withoutFire (s : State) (index : Nat) (g : Segment) (tick : Nat) :
    (s.withoutFire index).cap.countedFrom g tick = s.cap.countedFrom g tick := rfl

theorem takeFire_accepts {start : Nat} (here : s.cap.fires[index]? = some f) (only : s.capturesOnly id)
    (pre : s.cap.segments[id].state = .preTrigger) (live : f.live = true) (started : s.cap.segments[id].startTick = some start)
    {early : Bool} (early_ : early = decide (f.tick < start + s.cap.segments[id].firstRetainedTick)) {tick : Nat}
    (tick_ : tick = if early then s.cap.segments[id].firstRetainedTick else f.tick - start) :
    s.takeFire index = ((s.withoutFire index).triggered id f early tick
      (min (s.cap.countedFrom s.cap.segments[id] tick) (2 ^ 32 - 1))).sealIfComplete id := by
  have capturing : (s.withoutFire index).capturing? = some id := capturing?_of_only only
  unfold State.takeFire
  rw [here]
  dsimp only
  rw [show (s.setCap { s.cap with fires := s.cap.fires.eraseIdx index }).capturing? = some id from capturing]
  dsimp only
  rw [if_pos ⟨live, pre⟩]
  have start_ : (s.cap.segments[id].startTick.getD 0) = start := by rw [started]; rfl
  subst early_ tick_
  rw [← start_, ← countedFrom_withoutFire s index]
  rfl

/-- Settles O38. -/
theorem fireIsAcceptedInPreTriggerOnly : Obligations.FireIsAcceptedInPreTriggerOnly := by
  refine fun s index f here => ⟨fun waits why => ?_, fun id start tick n only pre live kept started tick_ count => ?_⟩
  · rw [exec_eq_after, after_fireAccept, takeFire_discards here why]
    exact congrArg Host.Outcome.next (endOfCapture_of_waits (s := s.withoutFire index) waits)
  · have taken := takeFire_accepts here only pre live started rfl (tick := tick) (tick_.trans (by simp only [decide_eq_true_eq]))
    have counted : min (s.cap.countedFrom s.cap.segments[id] tick) (2 ^ 32 - 1) = n := by
      rw [count, List.countP_eq_length_filter]
      rfl
    rw [counted] at taken
    obtain ⟨v, is⟩ : ∃ v, (s.withoutFire index).triggered id f
      (decide (f.tick < start + s.cap.segments[id].firstRetainedTick)) tick n = v := ⟨_, rfl⟩
    rw [is] at taken
    have segment : v.cap.segments[id] = { s.cap.segments[id] with
        state := .postTrigger, triggerTick := some tick, postCount := n, forced := f.forced
        clipped := decide (f.tick < start + s.cap.segments[id].firstRetainedTick) } := by
      rw [← is]
      exact set_set_get _ _ _
    have whole : v = { s with cap := v.cap, trg := v.trg, cmd := v.cmd } := by rw [← is]; rfl
    have others (j : SegId) (other : j ≠ id) : v.cap.segments[j] = s.cap.segments[j] := by
      rw [← is]
      exact (set_get _ _ _ _).trans (if_neg other)
    have early : n < s.cap.segments[id].target → v.sealIfComplete id = v := fun below => if_neg fun complete => by
      have complete : v.cap.segments[id].target ≤ v.cap.segments[id].postCount := complete.2
      rw [segment] at complete
      exact absurd complete (Nat.not_le.mpr below)
    have due : s.cap.segments[id].target ≤ n → v.sealIfComplete id = v.sealSegment id .complete := fun reached => if_pos (by
      unfold State.segment
      rw [segment]
      exact ⟨rfl, reached⟩)
    have captures : v.captures id := .inr (congrArg Segment.state segment)
    have sealedIs := sealSegment_of_live (s := v) (i := id) .complete ((congrArg Segment.retirePending segment).trans kept)
    have lvl : (v.sealIfComplete id).lvl = s.lvl := by
      rw [whole]
      simp
    refine ⟨v.sealIfComplete id, _, (exec_eq_after s (.fireAccept index)).trans (congrArg Host.Outcome.next
      ((after_fireAccept s index).trans (congrArg State.endOfCapture taken))), fun waits => ?_, fun l request steady reached => ?_, ?_⟩
    · refine endOfCapture_of_waits ?_
      obtain none | switches | below := waits
      · exact .inl ((congrArg Lvl.request lvl).trans none)
      · exact .inr (.inl (by unfold State.switches; rwa [lvl]))
      · rw [early below]
        exact .inr (.inr fun none => none id captures)
    · refine endOfCapture_begins ((congrArg Lvl.request lvl).trans request) (by unfold State.switches; rwa [lvl])
        fun j begins => ?_
      rw [due reached] at begins
      by_cases own : j = id
      · exact sealSegment_ended v id _ (own ▸ begins)
      · have before : v.captures j := sealSegment_beginsNone v id _ j begins
        unfold State.captures at before
        rw [others j own] at before
        exact own (only.2 j before)
    · have fired : (s.cmd.pending ||| BitVec.twoPow 14 1).getLsbD 1 = true := by
        rw [BitVec.getLsbD_or, BitVec.getLsbD_twoPow]
        simp
      obtain below | reached := Nat.lt_or_ge n s.cap.segments[id].target
      · rw [early below, segment]
        subst is
        exact ⟨rfl, rfl, rfl, rfl, fired, rfl, rfl, rfl, rfl, rfl, rfl, rfl, fun _ => ⟨rfl, rfl, rfl, rfl, rfl⟩,
          fun reached => absurd below (Nat.not_lt.mpr reached)⟩
      · have sealed : (v.sealIfComplete id).cap.segments[id] = v.cap.segments[id].sealedBy v.cap.encoder.state .complete
            (decide (v.cap.staged ≠ [] ∨ v.cap.stagedAnnotations ≠ [])) := by
          rw [due reached, sealedIs]
          exact set_set_get _ _ _
        rw [sealed, due reached, sealedIs, segment]
        subst is
        exact ⟨rfl, rfl, rfl, rfl, (pending_ite_other _ (by decide)).trans fired, rfl, rfl, rfl, rfl, rfl, rfl, rfl, fun below => absurd below (Nat.not_lt.mpr reached),
          fun _ => ⟨rfl, rfl, rfl, rfl⟩⟩

end Sys2Proof.Machine
end

section
/-! PROOFS. The transition encoder: entries, pages and dropouts (O31). -/

namespace Sys2Proof.Machine

variable {s u : State} {id : SegId} {g : Segment} {x : Entry} {header : Option PageHeader}

/-! ## The page an entry lies in (R47) -/

theorem recordFill_written (some_ : g.records.count ≠ 0) (begun : g.written ≠ 0) :
    g.recordFill = (g.written - 1) % 510 + 1 := if_neg (not_or.mpr ⟨some_, begun⟩)

theorem recordFill_full (some_ : g.records.count ≠ 0) (begun : g.written ≠ 0) :
    g.recordFill = Config.entriesPerPage ↔ g.written % 510 = 0 := by
  rw [recordFill_written some_ begun]
  unfold Config.entriesPerPage
  omega

/-! ## The answers to a page request of the record chain (R62, R68) -/

theorem recordAnswer_refuses {n : Nat} {reason : SealReason} (why :
    (g.state = .preTrigger ∧ g.records.count < g.budget ∧ g.records.count < 2 ∧ n = 0 ∧ reason = .poolExhausted)
      ∨ (g.state = .postTrigger ∧ g.limit ≤ g.records.count ∧ reason = .limitReached)
      ∨ (g.state = .postTrigger ∧ g.records.count < g.limit ∧ n = 0 ∧ reason = .poolExhausted)) :
    g.recordAnswer n = .refuse reason := by
  unfold Segment.recordAnswer
  obtain ⟨pre, below, single, none, rfl⟩ | ⟨post, full, rfl⟩ | ⟨post, below, none, rfl⟩ := why
  · rw [pre]
    exact (if_neg fun both => both.2 none).trans ((if_neg (Nat.not_le.mpr below)).trans (if_neg (Nat.not_le.mpr single)))
  · rw [post]
    exact if_pos full
  · rw [post]
    exact (if_neg (Nat.not_le.mpr below)).trans (if_pos none)

theorem recordAnswer_allocates {n : Nat} (left : n ≠ 0)
    (why : (g.state = .preTrigger ∧ g.records.count < g.budget) ∨ (g.state = .postTrigger ∧ g.records.count < g.limit)) :
    g.recordAnswer n = .allocate := by
  unfold Segment.recordAnswer
  obtain ⟨pre, below⟩ | ⟨post, below⟩ := why
  · rw [pre]
    exact if_pos ⟨below, left⟩
  · rw [post]
    exact (if_neg (Nat.not_le.mpr below)).trans (if_neg left)

theorem recordAnswer_rotates {n : Nat} (pre : g.state = .preTrigger) (none : g.budget ≤ g.records.count ∨ n = 0)
    (turns : g.budget ≤ g.records.count ∨ 2 ≤ g.records.count) : g.recordAnswer n = .rotate := by
  unfold Segment.recordAnswer
  rw [pre]
  dsimp only
  unfold rotatingAnswer
  rw [if_neg fun both => none.elim (Nat.not_le.mpr both.1) both.2]
  split
  · rfl
  · rename_i room
    exact if_pos (turns.resolve_left room)

/-- R62, R68: a request that is granted. -/
theorem recordAnswer_granted {n : Nat} (why : (g.state = .preTrigger ∧ (n ≠ 0 ∨ g.budget ≤ g.records.count ∨ 2 ≤ g.records.count))
    ∨ (g.state = .postTrigger ∧ g.records.count < g.limit ∧ n ≠ 0)) (reason : SealReason) : g.recordAnswer n ≠ .refuse reason := by
  obtain ⟨pre, granted⟩ | ⟨post, below, left⟩ := why
  · by_cases room : g.records.count < g.budget ∧ n ≠ 0
    · rw [recordAnswer_allocates room.2 (.inl ⟨pre, room.1⟩)]
      nofun
    · rw [recordAnswer_rotates pre (by omega) (by omega)]
      nofun
  · rw [recordAnswer_allocates left (.inr ⟨post, below⟩)]
    nofun

/-! ## One entry (R47, R51) -/

/-- R51: an entry staged in the segment's tail page with the next number. -/
def State.stageEntry (s : State) (id : SegId) (x : Entry) (header : Option PageHeader) : State :=
  (s.setCap { s.cap with
      staged := s.cap.staged ++ [⟨(s.segment id).records.tail.getD 0, (s.segment id).written % Config.entriesPerPage, x, header⟩]
      encoder := { s.cap.encoder with lastTick := entryTick s.cap.encoder.lastTick x, lastState := x.state } }).setSegment id
    { s.segment id with
      written := (s.segment id).written + 1, lastTick := entryTick s.cap.encoder.lastTick x
      postCount := (s.segment id).countedAfter x.kind (entryTick s.cap.encoder.lastTick x) }

theorem placeEntry_within (get : s.cap.segments[id] = g) (some_ : g.records.count ≠ 0) (begun : g.written ≠ 0)
    (within : g.written % 510 ≠ 0) (x : Entry) : s.placeEntry id x = s.stageEntry id x none := by
  subst get
  have open_ : ¬ (s.segment id).recordFill = Config.entriesPerPage := mt (recordFill_full some_ begun).mp within
  unfold State.placeEntry
  simp only [if_neg open_]
  rfl

theorem placeEntry_opens (get : s.cap.segments[id] = g) (some_ : g.records.count ≠ 0) (begun : g.written ≠ 0)
    (boundary : g.written % 510 = 0) (x : Entry) : s.placeEntry id x
      = (s.openRecordPage id).stageEntry id x (some ⟨s.cap.encoder.lastTick, s.cap.encoder.lastState⟩) := by
  subst get
  have full : (s.segment id).recordFill = Config.entriesPerPage := (recordFill_full some_ begun).mpr boundary
  unfold State.placeEntry
  simp only [if_pos full]
  rfl

/-- R51: an entry staged behind a segment that was just given its page. -/
theorem stageEntry_set (u : State) (id : SegId) (g : Segment) (x : Entry) (header : Option PageHeader) :
    (u.setSegment id g).stageEntry id x header = { u with cap := { u.cap with
      staged := u.cap.staged ++ [⟨g.records.tail.getD 0, g.written % 510, x, header⟩]
      encoder := { u.cap.encoder with lastTick := entryTick u.cap.encoder.lastTick x, lastState := x.state }
      segments := (u.cap.segments.set id g).set id { g with
        written := g.written + 1, lastTick := entryTick u.cap.encoder.lastTick x
        postCount := g.countedAfter x.kind (entryTick u.cap.encoder.lastTick x) } } } := by
  have get : (u.setSegment id g).segment id = g := (setSegment_get u id g id).trans (if_pos rfl)
  unfold State.stageEntry
  rw [get]
  rfl

theorem openRecordPage_allocates {p : Nat} (get : s.cap.segments[id] = g) (left : s.cap.pool.count ≠ 0)
    (head : s.cap.pool.head = some p)
    (why : (g.state = .preTrigger ∧ g.records.count < g.budget) ∨ (g.state = .postTrigger ∧ g.records.count < g.limit)) :
    s.openRecordPage id = (s.pagesTaken (linkPage s.cap.pages g.records p (.records id)).1
        (if s.cap.pool.count = 1 then {} else
          ⟨(PageMap.get s.cap.pages p).next, s.cap.pool.tail, s.cap.pool.count - 1⟩)).setSegment id
      { g with records := (linkPage s.cap.pages g.records p (.records id)).2 } := by
  have segment : s.segment id = g := get
  unfold State.openRecordPage
  rw [segment]
  dsimp only
  rw [recordAnswer_allocates left why]
  dsimp only
  rw [allocate_head left head]
  dsimp only
  unfold State.pagesTaken State.segment
  dsimp only
  rw [get]

theorem openRecordPage_rotates {firstTick : Nat} (get : s.cap.segments[id] = g)
    (answer : g.recordAnswer s.cap.pool.count = .rotate) {h : Nat} (head : (rotateChain s.cap.pages g.records).2.head = some h)
    (first : firstTick = if (rotateChain s.cap.pages g.records).2.count < 2 then s.cap.encoder.lastTick
      else (servedHeader s.cap.served h).baseTick) :
    s.openRecordPage id = (s.setCap { s.cap with pages := (rotateChain s.cap.pages g.records).1 }).setSegment id
      { g with records := (rotateChain s.cap.pages g.records).2, firstRetained := g.firstRetained + 510
               firstRetainedTick := firstTick } := by
  have segment : s.segment id = g := get
  unfold State.openRecordPage
  rw [segment]
  dsimp only
  rw [answer]
  dsimp only
  rw [head]
  dsimp only
  rw [← first]
  rfl

/-! ## The tick and the post-trigger count (R48, R67) -/

theorem entryTick_eq_tick (previous : Nat) (started : x.kind ≠ .start) :
    entryTick previous x = previous + (if x.kind = .extend then x.delta * 2 ^ 24 else x.delta) := by
  unfold entryTick Config.extendBlock
  cases kind : x.kind with
  | start => exact absurd kind started
  | change | extend | dropout => rfl

theorem countedAfter_counts {tick : Nat} (started : x.kind ≠ .start)
    (counts : g.state = .postTrigger ∧ x.kind ≠ .extend ∧ ∃ n, g.triggerTick = some n ∧ n ≤ tick) :
    g.countedAfter x.kind tick = min (g.postCount + 1) (2 ^ 32 - 1) := by
  obtain ⟨post, entry, n, trigger, late⟩ := counts
  unfold Segment.countedAfter
  rw [post, trigger]
  cases kind : x.kind with
  | start => exact absurd kind started
  | extend => exact absurd kind entry
  | change => exact if_pos late
  | dropout => exact if_pos late

theorem countedAfter_keeps {tick : Nat}
    (keeps : ¬ (g.state = .postTrigger ∧ x.kind ≠ .extend ∧ ∃ n, g.triggerTick = some n ∧ n ≤ tick)) :
    g.countedAfter x.kind tick = g.postCount := by
  unfold Segment.countedAfter
  split
  · rename_i n post trigger kind
    exact if_neg fun late => keeps ⟨post, by rw [kind]; decide, n, trigger, late⟩
  · rename_i n post trigger kind
    exact if_neg fun late => keeps ⟨post, by rw [kind]; decide, n, trigger, late⟩
  · rfl

/-- R67: the count does not ask for the pages. -/
theorem countedAfter_moved (g : Segment) (records : Chain) (first firstTick : Nat) (kind : EntryKind) (tick : Nat) :
    ({ g with records := records, firstRetained := first, firstRetainedTick := firstTick } : Segment).countedAfter kind tick
      = g.countedAfter kind tick := rfl

/-! ## The entries of one sample (R51) -/

theorem storeEntries_refused {entries : List Entry} {reason : SealReason} (get : s.cap.segments[id] = g)
    (needs : Config.entriesPerPage < g.recordFill + entries.length) (answer : g.recordAnswer s.cap.pool.count = .refuse reason) :
    s.storeEntries id entries = (s.sealSegment id reason, false) := by
  have segment : s.segment id = g := get
  unfold State.storeEntries
  rw [segment]
  dsimp only
  rw [answer]
  dsimp only
  rw [if_pos needs]

theorem storeEntries_granted {entries : List Entry} (get : s.cap.segments[id] = g)
    (granted : Config.entriesPerPage < g.recordFill + entries.length → ∀ reason, g.recordAnswer s.cap.pool.count ≠ .refuse reason) :
    s.storeEntries id entries = (entries.foldl (fun s x => s.placeEntry id x) s, true) := by
  have segment : s.segment id = g := get
  unfold State.storeEntries
  rw [segment]
  dsimp only
  cases answer : g.recordAnswer s.cap.pool.count with
  | refuse reason =>
    dsimp only
    rw [if_neg fun needs => granted needs reason answer]
  | allocate | rotate => rfl

/-! ## A conditioned sample (R50, R53) -/

/-- R50, R53: the entries of a sample, from the tick of the last. -/
theorem encodeSample_encoding {stamp start : Nat} {lines : Lines} (encoding : s.cap.encoder.state = .encoding id)
    (get : s.cap.segments[id] = g) (started : g.startTick = some start) :
    s.encodeSample stamp lines = if lines &&& g.mask = s.cap.encoder.lastState then s
      else if 4096 < s.cap.staged.length + (formedEntries .change (stamp - start - s.cap.encoder.lastTick)
          s.cap.encoder.lastState (lines &&& g.mask)).length then
        { s with cap := { s.cap with encoder := { s.cap.encoder with state := .dropping id } } }
      else (s.storeEntries id (formedEntries .change (stamp - start - s.cap.encoder.lastTick) s.cap.encoder.lastState
        (lines &&& g.mask))).1.sealIfComplete id := by
  have segment : s.segment id = g := get
  unfold State.encodeSample
  rw [encoding]
  dsimp only
  rw [segment, started]
  rfl

/-- R53: the episode counted and the encoder resumed. -/
def State.resumed (v : State) (id : SegId) : State := { v with cap := { v.cap with
  encoder := { v.cap.encoder with state := .encoding id }
  segments := v.cap.segments.set id { v.cap.segments[id] with
    dropouts := min (v.cap.segments[id].dropouts + 1) (2 ^ 32 - 1) } } }

theorem encodeSample_dropping {stamp start : Nat} {lines : Lines} (dropping : s.cap.encoder.state = .dropping id)
    (get : s.cap.segments[id] = g) (started : g.startTick = some start) {entries : List Entry}
    (formed : entries = formedEntries .dropout (stamp - start - s.cap.encoder.lastTick) s.cap.encoder.lastState
      (lines &&& g.mask)) :
    (2048 < s.cap.staged.length → s.encodeSample stamp lines = s)
    ∧ (s.cap.staged.length ≤ 2048 →
      (∀ t, s.storeEntries id entries = (t, false) → s.encodeSample stamp lines = t)
      ∧ ∀ t, s.storeEntries id entries = (t, true) → s.encodeSample stamp lines = (t.resumed id).sealIfComplete id) := by
  have segment : s.segment id = g := get
  unfold State.encodeSample
  rw [dropping]
  dsimp only
  rw [segment, started, Option.getD_some, ← formed]
  refine ⟨fun many => if_pos many, fun few => ?_⟩
  rw [if_neg (show ¬ Config.dropoutResume < _ from Nat.not_lt.mpr few)]
  exact ⟨fun t stored => by rw [stored], fun t stored => by rw [stored]; rfl⟩

/-! ## The seal at the target (R67) -/

/-- R70, R71: a seal with entries still staged, whatever waits for the segment. -/
theorem sealSegment_of_staged (reason : SealReason) (staged : u.cap.staged ≠ []) : u.sealSegment id reason = { u with
    trg := u.trg.halt
    cap := { u.cap with
      encoder := { u.cap.encoder with state := .idle }
      segments := u.cap.segments.set id (u.cap.segments[id].sealedBy u.cap.encoder.state reason true) } } := by
  rw [sealSegment_eq, sealing_eq, if_neg (show ¬ (u.cap.staged = [] ∧ _) from fun both => staged both.1)]
  unfold State.setSegment State.segment
  dsimp only [State.setCap]
  rw [Vector.set_set, set_set_get]
  rfl

theorem sealIfComplete_complete (complete : u.cap.segments[id].state = .postTrigger
    ∧ u.cap.segments[id].target ≤ u.cap.segments[id].postCount) (staged : u.cap.staged ≠ []) :
    (u.sealIfComplete id).cap.segments[id].state = .sealed
      ∧ (u.sealIfComplete id).cap.segments[id].sealReason = some .complete
      ∧ (u.sealIfComplete id).cap.segments[id].written = u.cap.segments[id].written
      ∧ (u.sealIfComplete id).cap.staged = u.cap.staged
      ∧ (u.sealIfComplete id).cap.encoder.state = .idle ∧ (u.sealIfComplete id).trg.state = .idle := by
  have sealed : u.sealIfComplete id = u.sealSegment id .complete := if_pos complete
  rw [sealed, sealSegment_of_staged .complete staged]
  dsimp only
  rw [set_set_get]
  exact ⟨rfl, rfl, rfl, rfl, rfl, rfl⟩

theorem sealIfComplete_short (short : ¬ (u.cap.segments[id].state = .postTrigger
    ∧ u.cap.segments[id].target ≤ u.cap.segments[id].postCount)) : u.sealIfComplete id = u := if_neg short

/-- R70: the segment of a refused page request is sealed, and reaching the target seals it no more. -/
theorem sealSegment_sealIfComplete (reason : SealReason) (live : s.cap.segments[id].retirePending = false) :
    (s.sealSegment id reason).sealIfComplete id = s.sealSegment id reason := by
  rw [sealSegment_of_live reason live]
  refine sealIfComplete_short fun both => ?_
  rw [set_set_get] at both
  exact absurd both.1 nofun

theorem formedEntries_eq (kind : EntryKind) (d : Nat) (lastState state : Lines) : formedEntries kind d lastState state
    = if d < 2 ^ 24 then [⟨kind, d, state⟩] else [⟨.extend, d / 2 ^ 24, lastState⟩, ⟨kind, d % 2 ^ 24, state⟩] := rfl

/-- Settles O31. -/
theorem encoderStoresEntriesAndAsksForPages : Obligations.EncoderStoresEntriesAndAsksForPages := by
  refine ⟨fun s stamp lines idle => encodeSample_idle idle stamp lines,
    fun s stamp lines id g start dropping kind entries => ?_,
    fun s id g x tick tail after get some_ end_ begun started tick_ after_ counts keeps => ?_⟩
  · intro e state d needsPage captures get started some_ begun live mode formed
    have formed : entries = formedEntries kind d e.lastState state := formed
    have needs : needsPage ↔ Config.entriesPerPage < g.recordFill + entries.length := by
      rw [recordFill_written some_ begun]
      rfl
    have live : s.cap.segments[id].retirePending = false := get ▸ live
    refine ⟨fun encoding same => ?_, fun encoding differs full => ?_, fun resumes many => ?_, fun stores =>
      ⟨fun reason need why => ?_, fun granted => ?_⟩⟩
    · obtain ⟨-, encodes, -⟩ := mode.resolve_right (fun other => by rw [encoding] at other; cases other.1)
      exact (encodeSample_encoding encodes get started).trans (if_pos same)
    · obtain ⟨-, encodes, change⟩ := mode.resolve_right (fun other => by rw [encoding] at other; cases other.1)
      rw [change] at formed
      rw [encodeSample_encoding encodes get started, if_neg differs]
      exact if_pos (formed ▸ full)
    · obtain ⟨-, drops, dropout⟩ := mode.resolve_left (fun other => by rw [resumes] at other; cases other.1)
      rw [dropout] at formed
      exact (encodeSample_dropping drops get started formed).1 many
    · have refused := storeEntries_refused get (needs.mp need) (recordAnswer_refuses why)
      have sealed : s.encodeSample stamp lines = s.sealSegment id reason := by
        obtain ⟨no, encodes, change⟩ | ⟨yes, drops, dropout⟩ := mode
        · obtain ⟨-, differs, room⟩ := stores.resolve_right (fun other => by rw [no] at other; cases other.1)
          rw [change] at formed
          rw [encodeSample_encoding encodes get started, if_neg differs, ← formed, if_neg (Nat.not_lt.mpr room), refused]
          exact sealSegment_sealIfComplete reason live
        · obtain ⟨-, few⟩ := stores.resolve_left (fun other => by rw [yes] at other; cases other.1)
          rw [dropout] at formed
          exact ((encodeSample_dropping drops get started formed).2 few).1 _ refused
      have episode : dropping = s.cap.encoder.state.isDropping := by
        obtain ⟨no, encodes, -⟩ | ⟨yes, drops, -⟩ := mode
        · rw [no, show s.cap.encoder.state = _ from encodes]
          rfl
        · rw [yes, show s.cap.encoder.state = _ from drops]
          rfl
      rw [sealed, sealSegment_of_live reason live, episode]
      refine ⟨_, rfl, rfl, rfl, rfl, rfl, ?_, rfl⟩
      dsimp only
      rw [set_set_get, get]
      rfl
    · have stored := storeEntries_granted (entries := entries) get fun need reason =>
        recordAnswer_granted (granted.resolve_left (not_not.mpr (needs.mpr need))) reason
      obtain ⟨-, ⟨more, staged, length⟩, -⟩ := placeEntries_spec id entries s
      have some_ : (entries.foldl (fun s x => s.placeEntry id x) s).cap.staged ≠ [] := by
        rw [staged]
        have positive := (formedEntries_length kind d e.lastState state).1
        rw [← formed, ← length] at positive
        exact List.append_ne_nil_of_right_ne_nil _ (List.ne_nil_of_length_pos positive)
      generalize entries.foldl (fun s x => s.placeEntry id x) s = v at stored some_ ⊢
      obtain ⟨no, encodes, change⟩ | ⟨yes, drops, dropout⟩ := mode
      · obtain ⟨-, differs, room⟩ := stores.resolve_right (fun other => by rw [no] at other; cases other.1)
        rw [change] at formed
        rw [encodeSample_encoding encodes get started, if_neg differs, ← formed, if_neg (Nat.not_lt.mpr room), stored]
        exact ⟨v, fun _ => rfl, fun yes => absurd (no.symm.trans yes) nofun, fun complete => sealIfComplete_complete complete some_,
          sealIfComplete_short⟩
      · obtain ⟨-, few⟩ := stores.resolve_left (fun other => by rw [yes] at other; cases other.1)
        rw [dropout] at formed
        rw [((encodeSample_dropping drops get started formed).2 few).2 _ stored]
        exact ⟨v.resumed id, fun no => absurd (yes.symm.trans no) nofun, fun _ => ⟨v, rfl, rfl⟩,
          fun complete => sealIfComplete_complete complete some_, sealIfComplete_short⟩
  · have tick_ : entryTick s.cap.encoder.lastTick x = tick := (entryTick_eq_tick _ started).trans tick_.symm
    have count : g.countedAfter x.kind tick = after.postCount := by
      by_cases counted : g.state = .postTrigger ∧ x.kind ≠ .extend ∧ ∃ n, g.triggerTick = some n ∧ n ≤ tick
      · rw [counts counted, countedAfter_counts started counted]
      · rw [keeps counted, countedAfter_keeps counted]
    generalize after.postCount = n at after_ count
    subst after_
    refine ⟨fun within => ?_, fun boundary header header_ => ⟨fun p canonical left head apart why => ?_,
      fun pre single budget head => ?_, fun h n canonical pre many none head apart next => ?_⟩⟩
    · have segment : s.segment id = g := get
      rw [placeEntry_within get some_ begun within]
      unfold State.stageEntry
      rw [segment, tick_, count, end_]
      rfl
    · obtain ⟨chain, atPage, atTail, rest⟩ := linkPage_behind canonical.2 (.records id) end_ apart
      have taken := pagesTaken_takesPage s p (linkPage s.cap.pages g.records p (.records id)).1
      have placed := placeEntry_opens get some_ begun boundary x
      rw [← header_, openRecordPage_allocates get left head why, chain, stageEntry_set, boundary, countedAfter_moved] at placed
      unfold State.pagesTaken at placed
      dsimp only at placed
      rw [tick_, count] at placed
      rw [placed]
      refine ⟨_, rfl, rfl, rfl, set_set_get _ _ _, fun j other => ?_, taken.congr rfl rfl rfl rfl rfl rfl rfl rfl rfl, rfl,
        atPage, atTail, rest, rfl⟩
      dsimp only
      rw [set_get, if_neg other, set_get, if_neg other]
    · have rotates := recordAnswer_rotates (n := s.cap.pool.count) pre (.inl (by omega)) (.inl (by omega))
      have still := rotateChain_single s.cap.pages (c := g.records) (by omega)
      have opened := openRecordPage_rotates get rotates (h := tail) (firstTick := s.cap.encoder.lastTick) (by rw [still]; exact head)
        (by rw [still]; exact (if_pos (show g.records.count < 2 by omega)).symm)
      rw [placeEntry_opens get some_ begun boundary, ← header_, opened, still, stageEntry_set, boundary, countedAfter_moved]
      dsimp only [State.setCap]
      rw [tick_, count, end_, Vector.set_set]
      rfl
    · obtain ⟨chain, atHead, atTail⟩ := rotateChain_turned canonical.2 many head end_ apart
      rw [next] at chain
      have rotates := recordAnswer_rotates pre none (.inr many)
      have opened := openRecordPage_rotates get rotates (h := n) (firstTick := (servedHeader s.cap.served n).baseTick)
        (by rw [chain]) (by rw [chain]; exact (if_neg (Nat.not_lt.mpr many)).symm)
      have placed := placeEntry_opens get some_ begun boundary x
      rw [← header_, opened, chain, stageEntry_set, boundary, countedAfter_moved] at placed
      dsimp only [State.setCap] at placed
      rw [tick_, count] at placed
      rw [placed]
      refine ⟨_, rfl, rfl, rfl, set_set_get _ _ _, fun j other => ?_, rfl, rfl, rfl, atHead, atTail, rfl⟩
      dsimp only
      rw [set_get, if_neg other, set_get, if_neg other]

end Sys2Proof.Machine
end

section
/-! PROOFS. Records of the engines: their fields, flags, payload bytes and bits (R91, R92). -/

namespace Sys2Proof.Machine

/-! ## Bits of a number and its bytes -/

theorem bitsLsb_testBit (bits : List Bool) (k : Nat) : (bitsLsb bits).testBit k = bits.getD k false := by
  induction bits generalizing k with
  | nil => simp [bitsLsb]
  | cons b bits ih =>
    cases k with
    | zero => cases b <;> simp [bitsLsb, bitN, Nat.testBit_zero]
    | succ k =>
      rw [bitsLsb, Nat.testBit_succ, List.getD_cons_succ, ← ih k]
      congr 1
      have bit : bitN b ≤ 1 := by cases b <;> decide
      omega

theorem bitsMsb_testBit (bits : List Bool) (k : Nat) : (bitsMsb bits).testBit k = bits.reverse.getD k false :=
  bitsLsb_testBit _ k

/-- Bit `k` of byte `j` of a number written little-endian is its bit `8 j + k`. -/
theorem leBytes_getLsbD {n j k : Nat} (v : Nat) (below : j < n) (bit : k < 8) :
    ((leBytes n v).getD j 0#8).getLsbD k = v.testBit (8 * j + k) := by
  induction n generalizing v j with
  | zero => exact absurd below (Nat.not_lt_zero j)
  | succ n ih =>
    cases j with
    | zero =>
      rw [leBytes, List.getD_cons_zero, BitVec.getLsbD_ofNat, decide_eq_true bit, Bool.true_and, Nat.mul_zero, Nat.zero_add]
    | succ j =>
      rw [leBytes, List.getD_cons_succ, ih _ (Nat.lt_of_succ_lt_succ below), show (256 : Nat) = 2 ^ 8 from rfl,
        Nat.testBit_div_two_pow]
      congr 1
      omega

/-! ## Flag words -/

theorem flagWord_getLsbD (flags : List (RecordFlag × Bool)) (k : Nat) :
    (flagWord flags).getLsbD k = flags.any fun f => f.2 && decide (f.1.position = k) := by
  induction flags with
  | nil => simp [flagWord]
  | cons f flags ih =>
    obtain ⟨f, set⟩ := f
    have placed : decide (f.position < 32) = true := by cases f <;> rfl
    rw [flagWord, List.any_cons, ← ih]
    cases set with
    | true => rw [if_pos rfl, BitVec.getLsbD_or, RecordFlag.bit, BitVec.getLsbD_twoPow, placed]
    | false => rw [if_neg (by decide), Bool.false_and, Bool.false_or]

/-! ## Records -/

theorem recordOf_eq (ctx : CtxId) (kind : RecordKind) (startTick endTick : Nat) (flags : BitVec 32) (payload : List Byte) :
    recordOf ctx kind startTick endTick flags payload = {
      context := ctx, kind, startTick, endTick, length := min payload.length 65535, head := payload.take 4
      flags := if 65535 < payload.length then flags ||| BitVec.twoPow 32 24 else flags } := by
  unfold recordOf Record.withPayload
  split
  · rename_i long
    rw [Nat.min_eq_right (Nat.le_of_lt long)]
    rfl
  · rename_i short
    rw [Nat.min_eq_left (Nat.le_of_not_lt short)]

theorem recordOf_flag (ctx : CtxId) (kind : RecordKind) (startTick endTick : Nat) (flags : BitVec 32) (payload : List Byte)
    {k : Nat} (named : k ≠ 24) : (recordOf ctx kind startTick endTick flags payload).flags.getLsbD k = flags.getLsbD k := by
  rw [recordOf_eq]
  dsimp only
  split
  · rw [BitVec.getLsbD_or, BitVec.getLsbD_twoPow, decide_eq_false (Ne.symm named), Bool.and_false, Bool.or_false]
  · rfl

/-- R91: with a payload that is not trimmed, every flag is the one given. -/
theorem recordOf_flags {ctx : CtxId} {kind : RecordKind} {startTick endTick : Nat} {flags : BitVec 32} {payload : List Byte}
    (short : payload.length ≤ 65535) : (recordOf ctx kind startTick endTick flags payload).flags = flags := by
  rw [recordOf_eq]
  exact if_neg (Nat.not_lt.mpr short)

theorem Context.mark_flag (c : Context) (r : Record) {k : Nat} (other : k ≠ 3) :
    (c.mark r).flags.getLsbD k = r.flags.getLsbD k := by
  rw [Context.mark_eq]
  dsimp only
  split
  · rw [BitVec.getLsbD_or, BitVec.getLsbD_twoPow, decide_eq_false (Ne.symm other), Bool.and_false, Bool.or_false]
  · rfl

theorem Context.mark_afterGap (c : Context) (r : Record) :
    (c.mark r).flags.getLsbD 3 = (r.flags.getLsbD 3 || c.afterGap) := by
  rw [Context.mark_eq]
  dsimp only
  cases c.afterGap with
  | true => simp
  | false => simp

end Sys2Proof.Machine
end

section
/-! PROOFS. The protocol timers (O51). -/

namespace Sys2Proof.Machine

variable {s : State} {id : CtxId} {c c' : Context} {r : Record}

/-! ## One record of one context (R93 to R95) -/

/-- R93, R94: the context after one record was counted. -/
def Context.counted (c : Context) (r : Record) : Context := (({ c with afterGap := false } : Context).count (c.mark r)).1

theorem emit_record (c : Context) (r : Record) : c.emit [.record r]
    = { context := c.counted r, records := [c.mark r]
        error := (({ c with afterGap := false } : Context).count (c.mark r)).2 } := rfl

theorem counted_eq (c : Context) (r : Record) : c.counted r = { c with
    good := (c.counted r).good, errors := (c.counted r).errors, armed := (c.counted r).armed, afterGap := false } := by
  unfold Context.counted
  cases error : (c.mark r).isError with
  | true => rw [Context.count_error _ error]
  | false => rw [Context.count_good _ error]

/-- R94: what the command port holds after the count. -/
def State.countedCmd (s : State) (id : CtxId) (c : Context) (r : Record) : Cmd :=
  if (({ c with afterGap := false } : Context).count (c.mark r)).2
  then { s.cmd with pending := s.cmd.pending ||| BitVec.twoPow 14 8
                    errorThreshold := s.cmd.errorThreshold ||| BitVec.twoPow 16 id.val }
  else s.cmd

theorem counts_record (s : State) (id : CtxId) (c : Context) (r : Record) :
    s.counts id c (c.counted r) r.isError (s.countedCmd id c r) := by
  unfold State.counts State.countedCmd Context.counted
  cases error : r.isError with
  | true =>
    rw [if_pos rfl, Context.count_error _ ((c.mark_isError r).trans error)]
    refine ⟨rfl, rfl, rfl, ?_⟩
    simp only [Bool.and_eq_true, decide_eq_true_eq]
  | false =>
    rw [if_neg (by decide), Context.count_good _ ((c.mark_isError r).trans error)]
    exact ⟨rfl, rfl, rfl, rfl⟩

/-- R95: one record on the path. -/
def State.recordPath (s : State) (r : Record) : List (List PathItem) :=
  if s.offersTo r then s.dec.path ++ [[s.itemOf r]] else s.dec.path

theorem enterPath_single (s : State) (r : Record) : s.enterPath [r] = s.setDec { s.dec with path := s.recordPath r } := by
  rw [enterPath_eq]
  unfold State.recordPath
  by_cases offered : s.offersTo r = true
  · rw [if_pos offered, List.filter_cons_of_pos offered, List.filter_nil, if_neg (by simp)]
    rfl
  · rw [if_neg offered, List.filter_cons_of_neg offered, List.filter_nil, if_pos (by simp)]

theorem recordPath_offers (s : State) (r : Record) : s.offers (s.context r.context) r (s.recordPath r) := by
  obtain ⟨named, found⟩ := itemOf_toSegment s r
  refine ⟨s.itemOf r, rfl, rfl, beq_iff_eq, named, found, ?_⟩
  unfold State.recordPath State.offersTo
  refine if_congr ?_ rfl rfl
  rw [Bool.or_eq_true, Bool.or_eq_true, or_assoc, Option.isSome_iff_ne_none]

/-! ## A timer event -/

section Expiry

variable {protocol : Protocol} {expire : Context → Nat → Context × List Emission} {x : Conditioned}
  (next : s.pfe.nextSample = some x) (running : s.dec.contexts[id].state = .running)
  (bound : s.dec.contexts[id].protocol = some protocol)

include next running bound

theorem expireContext_emits (out : List Emission) (gives : expire s.dec.contexts[id] x.stamp = (c', out)) :
    s.expireContext id protocol expire
      = (if (c'.emit out).error then (s.setContext id (c'.emit out).context).raiseError (BitVec.twoPow 16 id.val)
          else s.setContext id (c'.emit out).context).enterPath (c'.emit out).records := by
  have gives : expire (s.context id) x.stamp = (c', out) := gives
  unfold State.expireContext
  rw [next]
  dsimp only
  rw [if_pos ⟨running, bound⟩, gives]

theorem expireContext_none (gives : expire s.dec.contexts[id] x.stamp = (c', [])) : s.expireContext id protocol expire
    = { s with dec := { s.dec with contexts := s.dec.contexts.set id c' } } :=
  expireContext_emits next running bound [] gives

theorem expireContext_suppressed (gives : expire s.dec.contexts[id] x.stamp = (c', [.suppressed])) :
    s.expireContext id protocol expire = { s with dec := { s.dec with
      contexts := s.dec.contexts.set id { c' with suppressed := min (c'.suppressed + 1) 65535 } } } :=
  expireContext_emits next running bound [.suppressed] gives

/-- R94, R95: the engine emits one record; its context is the one that the record names. -/
theorem expireContext_record (gives : expire s.dec.contexts[id] x.stamp = (c', [.record r])) (own : r.context = id)
    (report : c'.report = s.dec.contexts[id].report) (annotate : c'.annotate = s.dec.contexts[id].annotate) :
    ∃ path, s.expireContext id protocol expire = { s with
        dec := { s.dec with contexts := s.dec.contexts.set id (c'.counted r), path := path }
        cmd := s.countedCmd id c' r }
      ∧ s.offers s.dec.contexts[id] (c'.mark r) path := by
  have emitted := expireContext_emits next running bound [.record r] gives
  rw [emit_record] at emitted
  dsimp only at emitted
  obtain ⟨t, is⟩ : ∃ t, { s with
      dec := { s.dec with contexts := s.dec.contexts.set id (c'.counted r) }, cmd := s.countedCmd id c' r } = t := ⟨_, rfl⟩
  have before : (if (({ c' with afterGap := false } : Context).count (c'.mark r)).2 then
      (s.setContext id (c'.counted r)).raiseError (BitVec.twoPow 16 id.val) else s.setContext id (c'.counted r)) = t := by
    rw [← is]
    unfold State.countedCmd
    split
    · rw [State.raiseError_eq, if_neg (twoPow_ne_zero id)]
      rfl
    · rfl
  rw [before, enterPath_single] at emitted
  have consumers : t.context (c'.mark r).context = c'.counted r := by
    rw [← is, Context.mark_eq]
    dsimp only
    rw [own]
    exact set_set_get _ _ _
  have same : (c'.counted r).report = s.dec.contexts[id].report ∧ (c'.counted r).annotate = s.dec.contexts[id].annotate := by
    rw [counted_eq]
    exact ⟨report, annotate⟩
  have offers := recordPath_offers t (c'.mark r)
  rw [consumers] at offers
  refine ⟨t.recordPath (c'.mark r), ?_, ?_⟩
  · rw [emitted, ← is]
    rfl
  · obtain ⟨item, record, queue, trigger, named, found, path⟩ := offers
    rw [same.1] at queue
    rw [same.2] at named found
    subst is
    exact ⟨item, record, queue, trigger, named, found, path⟩

end Expiry

/-! ## The idle timer (R113) -/

theorem ceilDiv_le {a k : Nat} : ceilDiv a 256 ≤ k ↔ a ≤ 256 * k := by
  unfold ceilDiv
  omega

theorem expireIdle_due {e : AsyncEngine} {set : AsyncSettings} {m origin stamp : Nat} (ctx : CtxId)
    (hunts : e.phase = .huntSync ∨ e.phase = .huntNext) (mark : e.markSince = some m) (armed : e.idleArmed = true)
    (tracks : e.tracker ≠ .acquire) (from_ : origin = max m (e.lastCharacter.getD 0)) (begun : origin ≤ stamp)
    (due : set.idleLength * e.period ≤ 256 * (stamp - origin)) : e.expireIdle set ctx stamp
      = ({ e with idleArmed := false }, [.record (recordOf ctx .idle origin stamp 0#32 [])]) := by
  have timer : e.idleTimer set = some (origin, origin + ceilDiv (set.idleLength * e.period) 256) := by
    unfold AsyncEngine.idleTimer
    obtain phase | phase := hunts
    all_goals
      rw [phase, mark, from_]
      exact if_pos ⟨armed, tracks⟩
  have late := ceilDiv_le.mpr due
  unfold AsyncEngine.expireIdle
  rw [timer]
  exact if_pos (by omega)

/-! ## The word (R123) -/

/-- R123: sampled bits in the order of the number, the least significant first. -/
def ClockedSettings.ordered (s : ClockedSettings) (bits : List Bool) : List Bool :=
  match s.bitOrder with
  | .msbFirst => bits.reverse
  | .lsbFirst => bits

theorem number_testBit (s : ClockedSettings) (bits : List Bool) (k : Nat) :
    (s.number bits).testBit k = (s.ordered bits).getD k false := by
  unfold ClockedSettings.number ClockedSettings.ordered
  cases s.bitOrder with
  | msbFirst => exact bitsMsb_testBit bits k
  | lsbFirst => exact bitsLsb_testBit bits k

section Word

variable (e : ClockedEngine) (set : ClockedSettings) (lanes : Lanes) (ctx : CtxId) (endTick : Nat) (early : Bool)

theorem word_fields : (e.word set lanes ctx endTick early).context = ctx ∧ (e.word set lanes ctx endTick early).kind = .word
    ∧ (e.word set lanes ctx endTick early).startTick = e.startTick ∧ (e.word set lanes ctx endTick early).endTick = endTick
    ∧ (e.word set lanes ctx endTick early).length = min ((e.outBits.length + 7) / 8) 65535
    ∧ (e.word set lanes ctx endTick early).head = (leBytes ((e.outBits.length + 7) / 8) (set.number e.outBits)).take 4
    ∧ (e.word set lanes ctx endTick early).inWord = lanes.inn.map fun _ => BitVec.ofNat 32 (set.number e.inBits) := by
  unfold ClockedEngine.word
  rw [recordOf_eq, leBytes_length]
  exact ⟨rfl, rfl, rfl, rfl, rfl, rfl, rfl⟩

theorem word_flag {k : Nat} (named : k ≠ 24) : (e.word set lanes ctx endTick early).flags.getLsbD k
    = if k = 5 then e.skew else if k = 6 then e.phasePending else if k = 23 then early else false := by
  unfold ClockedEngine.word
  refine (recordOf_flag _ _ _ _ _ _ named).trans ?_
  rw [flagWord_getLsbD]
  simp only [List.any_cons, List.any_nil, RecordFlag.position, Bool.or_false]
  by_cases skew : k = 5
  · simp [skew]
  by_cases phase : k = 6
  · simp [phase]
  by_cases ends : k = 23
  · simp [ends]
  · simp [Ne.symm skew, Ne.symm phase, Ne.symm ends, skew, phase, ends]

theorem word_isError : (e.word set lanes ctx endTick early).isError = (e.skew || e.phasePending) := by
  rw [Bool.eq_iff_iff, Record.isError_iff, Bool.or_eq_true]
  constructor
  · rintro ⟨k, mem, flag⟩
    rw [word_flag _ _ _ _ _ _ (by rintro rfl; simp at mem)] at flag
    split at flag
    · exact .inl flag
    · split at flag
      · exact .inr flag
      · split at flag
        · subst_vars
          simp at mem
        · cases flag
  · rintro (skew | phase)
    · exact ⟨5, by decide, by rw [word_flag _ _ _ _ _ _ (by decide)]; exact skew⟩
    · exact ⟨6, by decide, by rw [word_flag _ _ _ _ _ _ (by decide)]; exact phase⟩

theorem word_head {j k : Nat} (few : e.outBits.length ≤ 32) (below : j < (e.word set lanes ctx endTick early).length)
    (bit : k < 8) : ((e.word set lanes ctx endTick early).head.getD j 0#8).getLsbD k
      = (set.ordered e.outBits).getD (8 * j + k) false := by
  obtain ⟨-, -, -, -, length, head, -⟩ := word_fields e set lanes ctx endTick early
  rw [length] at below
  rw [head, List.take_of_length_le (by rw [leBytes_length]; omega), leBytes_getLsbD _ (by omega) bit, number_testBit]

theorem word_in {v : BitVec 32} (some_ : (e.word set lanes ctx endTick early).inWord = some v) {k : Nat} (bit : k < 32) :
    v.getLsbD k = (set.ordered e.inBits).getD k false := by
  obtain ⟨-, -, -, -, -, -, inWord⟩ := word_fields e set lanes ctx endTick early
  rw [inWord] at some_
  obtain ⟨_, -, rfl⟩ := Option.map_eq_some_iff.mp some_
  rw [BitVec.getLsbD_ofNat, decide_eq_true bit, Bool.true_and, number_testBit]

end Word

theorem expireGap_due {e : ClockedEngine} {set : ClockedSettings} {expiry stamp : Nat} (lanes : Lanes) (ctx : CtxId)
    (timer : e.gapTimer = some expiry) (due : expiry ≤ stamp) (open_ : e.outBits ≠ []) :
    e.expireGap set lanes ctx stamp = (e.ended, [.record (e.word set lanes ctx stamp true)]) := by
  unfold ClockedEngine.expireGap
  rw [timer]
  exact (if_pos due).trans (if_neg open_)

/-! ## The stuck bus and the free bus (R148, R149) -/

section Bus

variable {e : TwoWireEngine} {set : TwoWireSettings} {stamp : Nat} (ctx : CtxId)

theorem stuckDue_of (open_ : e.state ≠ .waitFree) (held : e.hold ≠ .none) (due : e.holdOrigin + set.stuckLimit ≤ stamp) :
    e.stuckDue set stamp = true := by
  unfold TwoWireEngine.stuckDue
  rw [Bool.and_eq_true, Bool.and_eq_true, bne_iff_ne, bne_iff_ne, decide_eq_true_iff]
  exact ⟨⟨open_, held⟩, due⟩

variable (held : e.hold ≠ .none) (due : e.holdOrigin + set.stuckLimit ≤ stamp)

include held due

theorem expireStuck_idle (free : e.state = .busFree) : e.expireStuck set ctx stamp
    = ({ e with state := .waitFree, hold := .none, freeOrigin := none },
      [.record (recordOf ctx .message e.holdOrigin stamp (flagWord [(.busStuck, true)]) [])]) := by
  unfold TwoWireEngine.expireStuck
  rw [if_pos (stuckDue_of (by rw [free]; decide) held due), free]
  rfl

theorem expireStuck_message (open_ : e.state = .address ∨ e.state = .data) : e.expireStuck set ctx stamp
    = ({ e.closeMessage .waitFree with
        lastStretch := e.stretch, state := .waitFree, hold := .none, freeOrigin := none },
      if passesFilter set.filter e.address then [.record (e.message set ctx stamp false true)] else [.suppressed]) := by
  unfold TwoWireEngine.expireStuck
  obtain address | data := open_
  · rw [if_pos (stuckDue_of (by rw [address]; decide) held due), address]
    rfl
  · rw [if_pos (stuckDue_of (by rw [data]; decide) held due), data]
    rfl

end Bus

theorem expireFree_due {e : TwoWireEngine} {set : TwoWireSettings} {stamp origin : Nat} (waits : e.state = .waitFree)
    (free : e.freeOrigin = some origin) (due : origin + set.busFree ≤ stamp) :
    e.expireFree set stamp = { e with state := .busFree, hold := .none, freeOrigin := none } := by
  unfold TwoWireEngine.expireFree
  rw [waits, free]
  exact if_pos due

section Message

variable (e : TwoWireEngine) (set : TwoWireSettings) (ctx : CtxId) (endTick : Nat) (aborted stuck : Bool)

theorem message_fields : (e.message set ctx endTick aborted stuck).context = ctx
    ∧ (e.message set ctx endTick aborted stuck).kind = .message
    ∧ (e.message set ctx endTick aborted stuck).startTick = e.startTick
    ∧ (e.message set ctx endTick aborted stuck).endTick = endTick
    ∧ (e.message set ctx endTick aborted stuck).length = min e.bytes.length 65535
    ∧ (e.message set ctx endTick aborted stuck).head = (e.bytes.take 4).map (·.1)
    ∧ (e.message set ctx endTick aborted stuck).address = e.address.map BitVec.toNat := by
  unfold TwoWireEngine.message
  dsimp only
  rw [recordOf_eq, List.length_map, ← List.map_take]
  exact ⟨rfl, rfl, rfl, rfl, rfl, rfl, rfl⟩

theorem message_flag {k : Nat} (named : k ≠ 24) : (e.message set ctx endTick aborted stuck).flags.getLsbD k
    = (flagWord [(.nakAddress, e.address.isSome && !e.addressAck), (.nakData, nakData e.isRead (e.bytes.map (·.2))),
        (.stretchExcess, decide (set.stretchLimit < e.stretch)), (.aborted, aborted), (.busStuck, stuck)]).getLsbD k :=
  recordOf_flag _ _ _ _ _ _ named

theorem message_stuck : (e.message set ctx endTick aborted stuck).flags.getLsbD 19 = stuck := by
  rw [message_flag _ _ _ _ _ _ (by decide), flagWord_getLsbD]
  simp [RecordFlag.position]

theorem message_aborted : (e.message set ctx endTick aborted stuck).flags.getLsbD 20 = aborted := by
  rw [message_flag _ _ _ _ _ _ (by decide), flagWord_getLsbD]
  simp [RecordFlag.position]

end Message

theorem isError_of_stuck {r : Record} (stuck : r.flags.getLsbD 19 = true) : r.isError = true :=
  (Record.isError_iff r).mpr ⟨19, by decide, stuck⟩

/-! ## The timer events of the engines -/

section Events

variable {x : Conditioned} (next : s.pfe.nextSample = some x) (get : s.dec.contexts[id] = c)
  (running : c.state = .running)

include next get running

theorem exec_idleExpiry {e : AsyncEngine} (bound : c.protocol = some .async) (own : r.context = id)
    (fires : c.asyncEngine.expireIdle c.asyncSettings id x.stamp = (e, [.record r])) :
    ∃ path, exec (.idleTimerExpiry id) s = .next { s with
        dec := { s.dec with
          contexts := s.dec.contexts.set id (({ c with asyncEngine := e } : Context).counted r), path := path }
        cmd := s.countedCmd id { c with asyncEngine := e } r }
      ∧ s.offers c (({ c with asyncEngine := e } : Context).mark r) path := by
  subst get
  rw [exec_eq_after, after_idleTimerExpiry]
  obtain ⟨path, left, offers⟩ := expireContext_record next running bound
    (c' := { s.dec.contexts[id] with asyncEngine := e })
    (expire := fun c stamp => ({ c with asyncEngine := (c.asyncEngine.expireIdle c.asyncSettings id stamp).1 },
      (c.asyncEngine.expireIdle c.asyncSettings id stamp).2)) (by rw [fires]) own rfl rfl
  exact ⟨path, congrArg _ left, offers⟩

theorem exec_wordGapExpiry {e : ClockedEngine} (bound : c.protocol = some .clocked) (own : r.context = id)
    (fires : c.clockedEngine.expireGap c.clockedSettings c.lanes id x.stamp
      = (e, [.record r])) :
    ∃ path, exec (.wordGapTimerExpiry id) s = .next { s with
        dec := { s.dec with
          contexts := s.dec.contexts.set id (({ c with clockedEngine := e } : Context).counted r)
          path := path }
        cmd := s.countedCmd id { c with clockedEngine := e } r }
      ∧ s.offers c (({ c with clockedEngine := e } : Context).mark r) path := by
  subst get
  rw [exec_eq_after, after_wordGapTimerExpiry]
  obtain ⟨path, left, offers⟩ := expireContext_record next running bound
    (c' := { s.dec.contexts[id] with clockedEngine := e })
    (expire := fun c stamp => ({ c with clockedEngine := (c.clockedEngine.expireGap c.clockedSettings c.lanes id stamp).1 },
      (c.clockedEngine.expireGap c.clockedSettings c.lanes id stamp).2)) (by rw [fires]) own rfl rfl
  exact ⟨path, congrArg _ left, offers⟩

theorem exec_stuckExpiry {e : TwoWireEngine} (bound : c.protocol = some .twoWire) (own : r.context = id)
    (fires : c.twoWireEngine.expireStuck c.twoWireSettings id x.stamp = (e, [.record r])) :
    ∃ path, exec (.stuckTimerExpiry id) s = .next { s with
        dec := { s.dec with
          contexts := s.dec.contexts.set id (({ c with twoWireEngine := e } : Context).counted r)
          path := path }
        cmd := s.countedCmd id { c with twoWireEngine := e } r }
      ∧ s.offers c (({ c with twoWireEngine := e } : Context).mark r) path := by
  subst get
  rw [exec_eq_after, after_stuckTimerExpiry]
  obtain ⟨path, left, offers⟩ := expireContext_record next running bound
    (c' := { s.dec.contexts[id] with twoWireEngine := e })
    (expire := fun c stamp => ({ c with twoWireEngine := (c.twoWireEngine.expireStuck c.twoWireSettings id stamp).1 },
      (c.twoWireEngine.expireStuck c.twoWireSettings id stamp).2)) (by rw [fires]) own rfl rfl
  exact ⟨path, congrArg _ left, offers⟩

theorem exec_stuckExpiry_suppressed {e : TwoWireEngine} (bound : c.protocol = some .twoWire)
    (fires : c.twoWireEngine.expireStuck c.twoWireSettings id x.stamp = (e, [.suppressed])) :
    exec (.stuckTimerExpiry id) s = .next { s with dec := { s.dec with contexts := (s.dec.contexts.set id
      { c with twoWireEngine := e, suppressed := min (c.suppressed + 1) 65535 }) } } := by
  subst get
  rw [exec_eq_after, after_stuckTimerExpiry, expireContext_suppressed next running bound
    (c' := { s.dec.contexts[id] with twoWireEngine := e }) (by rw [fires])]

end Events

/-- Settles O51. -/
theorem protocolTimersExpire : Obligations.ProtocolTimersExpire := by
  intro s r id c run formed get running
  obtain ⟨x, next, stamp⟩ : ∃ x, s.pfe.nextSample = some x ∧ x.stamp = r.nextStamp := by
    unfold Pfe.nextSample
    rw [run]
    exact ⟨_, if_pos formed, rfl⟩
  rw [← stamp]
  refine ⟨fun m origin bound hunts mark armed tracks from_ begun due => ?_, fun expiry bound timer due open_ => ?_,
    fun bound held due => ⟨fun free => ?_, fun open_ => ?_⟩, fun origin bound waits free due => ?_⟩
  · have fires := expireIdle_due id hunts mark armed tracks from_ begun due
    have record := recordOf_eq id .idle origin x.stamp 0#32 []
    rw [if_neg (by simp)] at record
    have good : (recordOf id .idle origin x.stamp 0#32 []).isError = false :=
      (Record.not_isError_iff _).mpr fun k _ => by rw [record]; exact BitVec.getLsbD_zero
    obtain ⟨path, left, offers⟩ := exec_idleExpiry next get running bound (by rw [record]) fires
    obtain ⟨d, is⟩ : ∃ d, ({ c with asyncEngine := { c.asyncEngine with idleArmed := false } } : Context) = d := ⟨_, rfl⟩
    have counts := counts_record s id d (recordOf id .idle origin x.stamp 0#32 [])
    rw [good] at counts
    obtain ⟨goods, errors, flag, cmd⟩ := counts
    rw [is, cmd] at left
    refine ⟨_, path, left, ?_, ?_⟩
    · rw [counted_eq, goods, errors, flag, ← is]
    · rw [Context.mark_eq, record, BitVec.zero_or] at offers
      exact offers
  · obtain ⟨w, is⟩ : ∃ w, c.clockedEngine.word c.clockedSettings c.lanes id x.stamp true = w := ⟨_, rfl⟩
    have fires := expireGap_due (set := c.clockedSettings) c.lanes id timer due open_
    have error := word_isError c.clockedEngine c.clockedSettings c.lanes id x.stamp true
    have fields := word_fields c.clockedEngine c.clockedSettings c.lanes id x.stamp true
    have flag (k : Nat) := word_flag c.clockedEngine c.clockedSettings c.lanes id x.stamp true (k := k)
    have bits (j k : Nat) := word_head c.clockedEngine c.clockedSettings c.lanes id x.stamp true (j := j) (k := k)
    have inBits (v : BitVec 32) (k : Nat) := word_in c.clockedEngine c.clockedSettings c.lanes id x.stamp true (v := v) (k := k)
    rw [is] at fires error fields
    simp only [is] at flag bits inBits
    obtain ⟨context, kind, start, end_, length, -, inWord⟩ := fields
    obtain ⟨path, left, offers⟩ := exec_wordGapExpiry next get running bound context fires
    obtain ⟨d, isD⟩ : ∃ d, ({ c with clockedEngine := c.clockedEngine.ended } : Context) = d := ⟨_, rfl⟩
    rw [isD] at left offers
    have counts := counts_record s id d w
    have gap := Context.mark_afterGap d w
    have marked {k : Nat} (named : k ≠ 24) (other : k ≠ 3) := (Context.mark_flag d w other).trans (flag k named)
    rw [flag 3 (by decide)] at gap
    rw [error] at counts
    rw [Context.mark_eq] at gap marked offers
    have ended := counted_eq d w
    subst isD
    refine ⟨_, path, { w with flags := if c.afterGap then w.flags ||| BitVec.twoPow 32 3 else w.flags }, _, left, ended, counts,
      context, kind, start, end_, length, fun few j k below bit => bits j k few below bit,
      fun none => ?_, fun some_ => ?_, marked (by decide) (by decide), marked (by decide) (by decide),
      marked (by decide) (by decide), gap.trans (Bool.false_or _), offers⟩
    · exact inWord.trans (by rw [none]; rfl)
    · obtain ⟨lane, bound⟩ := Option.ne_none_iff_exists'.mp some_
      rw [bound] at inWord
      exact ⟨_, inWord, fun k bit => inBits _ k inWord bit⟩
  · have fires := expireStuck_idle id held due free
    have record := recordOf_eq id .message c.twoWireEngine.holdOrigin x.stamp (flagWord [(.busStuck, true)]) []
    have stuck : (recordOf id .message c.twoWireEngine.holdOrigin x.stamp (flagWord [(.busStuck, true)]) []).flags.getLsbD 19
        = true := (recordOf_flag _ _ _ _ _ _ (by decide)).trans ((flagWord_getLsbD _ _).trans rfl)
    generalize recordOf id .message c.twoWireEngine.holdOrigin x.stamp (flagWord [(.busStuck, true)]) [] = w at fires record stuck
    obtain ⟨path, left, offers⟩ := exec_stuckExpiry next get running bound (by rw [record]) fires
    obtain ⟨d, isD⟩ : ∃ d, ({ c with
      twoWireEngine := { c.twoWireEngine with state := .waitFree, hold := .none, freeOrigin := none } } : Context) = d := ⟨_, rfl⟩
    rw [isD] at left offers
    have counts := counts_record s id d w
    rw [isError_of_stuck stuck] at counts
    have marked := (Context.mark_flag d w (k := 19) (by decide)).trans stuck
    have ended := counted_eq d w
    rw [counts.1] at ended
    rw [Context.mark_eq] at marked offers
    subst isD
    refine ⟨_, path, { w with flags := if c.afterGap then w.flags ||| BitVec.twoPow 32 3 else w.flags }, _, left, ended, counts,
      ?_, ?_, ?_, ?_, ?_, ?_, marked, offers⟩
    all_goals rw [record]
    all_goals rfl
  · have fires := expireStuck_message id held due open_
    obtain ⟨e, isE⟩ : ∃ e, ({ c.twoWireEngine.closeMessage .waitFree with
      lastStretch := c.twoWireEngine.stretch, state := .waitFree, hold := .none, freeOrigin := none } : TwoWireEngine) = e :=
        ⟨_, rfl⟩
    have shape : e.state = .waitFree ∧ e.hold = .none ∧ e.freeOrigin = none ∧ e.bytes = []
        ∧ e.lastStretch = c.twoWireEngine.stretch := by
      rw [← isE]
      exact ⟨rfl, rfl, rfl, rfl, rfl⟩
    obtain ⟨state, hold, origin, bytes, stretch⟩ := shape
    rw [isE] at fires
    cases passes : passesFilter c.twoWireSettings.filter c.twoWireEngine.address with
    | false =>
      rw [passes] at fires
      exact ⟨{ c with twoWireEngine := e, suppressed := min (c.suppressed + 1) 65535 }, state, hold, origin, bytes, stretch,
        fun _ => ⟨exec_stuckExpiry_suppressed next get running bound fires, rfl⟩, nofun⟩
    | true =>
      have fields := message_fields c.twoWireEngine c.twoWireSettings id x.stamp false true
      have stuck := message_stuck c.twoWireEngine c.twoWireSettings id x.stamp false true
      have whole := message_aborted c.twoWireEngine c.twoWireSettings id x.stamp false true
      rw [passes, if_pos rfl] at fires
      generalize c.twoWireEngine.message c.twoWireSettings id x.stamp false true = w at fires fields stuck whole
      obtain ⟨context, kind, start, end_, length, -, address⟩ := fields
      obtain ⟨path, left, offers⟩ := exec_stuckExpiry next get running bound context fires
      obtain ⟨d, isD⟩ : ∃ d, ({ c with twoWireEngine := e } : Context) = d := ⟨_, rfl⟩
      rw [isD] at left offers
      have counts := counts_record s id d w
      rw [isError_of_stuck stuck] at counts
      have marked := (Context.mark_flag d w (k := 19) (by decide)).trans stuck
      have unmarked := (Context.mark_flag d w (k := 20) (by decide)).trans whole
      have ended := counted_eq d w
      rw [counts.1] at ended
      rw [Context.mark_eq] at marked unmarked offers
      subst isD
      have engine : ((({ c with twoWireEngine := e } : Context)).counted w).twoWireEngine = e := by rw [ended]
      refine ⟨_, by rw [engine]; exact state, by rw [engine]; exact hold, by rw [engine]; exact origin,
        by rw [engine]; exact bytes, by rw [engine]; exact stretch, nofun, fun _ =>
        ⟨path, { w with flags := if c.afterGap then w.flags ||| BitVec.twoPow 32 3 else w.flags }, _, left, ?_, counts,
          context, kind, start, end_, length, address, marked, unmarked, offers⟩⟩
      rw [engine]
      exact ended
  · subst get
    rw [exec_eq_after, after_busFreeTimerExpiry, expireContext_none next running bound rfl, expireFree_due waits free due]

end Sys2Proof.Machine
end

section
/-! PROOFS. The clocked engine (O53). -/

namespace Sys2Proof.Machine

variable {e : ClockedEngine} {s : ClockedSettings} {lanes : Lanes} {ctx : CtxId} {x : Reading}

/-! ## What a lane reads -/

theorem value_bound {lane : Option Chan} {c : Chan} (bound : lane = some c) : x.value lane = x.lines.getLsbD c.val := by
  subst bound
  rfl

theorem changes_bound {lane : Option Chan} {c : Chan} (bound : lane = some c) :
    x.changes lane = x.changed.getLsbD c.val := by
  subst bound
  rfl

theorem samplingEdge_iff {c : Chan} (bound : lanes.clock = some c) : s.samplingEdge lanes x = true
    ↔ x.changed.getLsbD c.val = true ∧ (x.lines.getLsbD c.val = true ↔ s.edge = .rising) := by
  unfold ClockedSettings.samplingEdge
  rw [changes_bound bound, value_bound bound, Bool.and_eq_true, beq_iff_eq]
  refine and_congr_right fun _ => ?_
  rw [Bool.eq_iff_iff, beq_iff_eq]

/-! ## One bit (R121, R123, R124) -/

/-- R121: the word with the bit of one admitted edge. -/
def ClockedEngine.withBit (e : ClockedEngine) (s : ClockedSettings) (lanes : Lanes) (x : Reading) (moved bit inBit : Bool) :
    ClockedEngine := { e with
  phase := .word, startTick := if e.outBits = [] then x.stamp else e.startTick, skew := e.skew || moved
  outBits := e.outBits ++ [bit], inBits := e.inBits ++ [inBit]
  gapTimer := if lanes.select = none then some (x.stamp + s.gapTimeout) else none }

theorem takeBit_eq (e : ClockedEngine) (s : ClockedSettings) (lanes : Lanes) (ctx : CtxId) (x : Reading) {d : ClockedEngine}
    (bit : d = e.withBit s lanes x (x.changes lanes.out || x.changes lanes.inn) (x.value lanes.out) (x.value lanes.inn)) :
    e.takeBit s lanes ctx x = if s.wordLength ≤ e.outBits.length + 1
      then (d.ended, [.record (d.word s lanes ctx x.stamp false)]) else (d, []) := by
  have same : d = { e with
      phase := .word, startTick := if e.outBits = [] then x.stamp else e.startTick
      skew := e.skew || x.changes lanes.out || x.changes lanes.inn
      outBits := e.outBits ++ [x.value lanes.out], inBits := e.inBits ++ [x.value lanes.inn]
      gapTimer := if lanes.select = none then some (x.stamp + s.gapTimeout) else none } := by
    rw [bit, ClockedEngine.withBit, Bool.or_assoc]
  have length : d.outBits.length = e.outBits.length + 1 := by rw [same, List.length_append, List.length_singleton]
  unfold ClockedEngine.takeBit
  rw [← same, ← length]

/-! ## Samples (R122, R124, R125) -/

theorem endEarly_eq (e : ClockedEngine) (stamp : Nat) : e.endEarly s lanes ctx stamp
    = (e.ended, if e.outBits = [] then [] else [.record (e.word s lanes ctx stamp true)]) := by
  unfold ClockedEngine.endEarly
  split <;> rfl

theorem withSelected_same (e : ClockedEngine) : { e with selected := e.selected } = e := rfl

theorem takeSelect_on (was : e.selected = false) : e.takeSelect s lanes ctx x true
    = ({ e.ended with phasePending := x.value lanes.clock != s.idleLevel }, []) := if_pos (by rw [was]; rfl)

theorem takeSelect_off (was : e.selected = true) :
    e.takeSelect s lanes ctx x false = e.endEarly s lanes ctx x.stamp :=
  (if_neg (by simp)).trans (if_pos (by rw [was]; rfl))

theorem takeSelect_same : e.takeSelect s lanes ctx x e.selected = (e, []) := by
  unfold ClockedEngine.takeSelect
  cases e.selected <;> rfl

section Selected

variable {c : Chan} {asserted : Bool} (select : lanes.select = some c)
  (level : s.asserted (x.value lanes.select) = asserted)

include select level

theorem sample_selectFresh (fresh : x.fresh = true) : e.sample s lanes ctx x
    = ({ phase := if asserted then .resync else .ready, selected := asserted }, []) := by
  unfold ClockedEngine.sample
  rw [select] at level ⊢
  dsimp only
  rw [level, if_pos fresh]

theorem sample_selectOf (later : x.fresh = false) : e.sample s lanes ctx x
    = if asserted && e.selected && (e.takeSelect s lanes ctx x asserted).1.phase != .resync && s.samplingEdge lanes x then
        ((({ (e.takeSelect s lanes ctx x asserted).1 with selected := asserted } : ClockedEngine).takeBit s lanes ctx x).1,
          (e.takeSelect s lanes ctx x asserted).2
            ++ (({ (e.takeSelect s lanes ctx x asserted).1 with selected := asserted } : ClockedEngine).takeBit s lanes ctx x).2)
      else ({ (e.takeSelect s lanes ctx x asserted).1 with selected := asserted }, (e.takeSelect s lanes ctx x asserted).2) := by
  unfold ClockedEngine.sample
  rw [select] at level ⊢
  dsimp only
  rw [level, if_neg (by rw [later]; decide)]

end Selected

theorem sample_unselectedOf (select : lanes.select = none) (later : x.fresh = false) : e.sample s lanes ctx x
    = if s.samplingEdge lanes x then
        (((e.expireGap s lanes ctx x.stamp).1.takeBit s lanes ctx x).1,
          (e.expireGap s lanes ctx x.stamp).2 ++ ((e.expireGap s lanes ctx x.stamp).1.takeBit s lanes ctx x).2)
      else e.expireGap s lanes ctx x.stamp := by
  unfold ClockedEngine.sample
  rw [select]
  dsimp only
  rw [if_neg (by rw [later]; decide)]

/-- R124: no expiry is due. -/
theorem expireGap_early (stamp : Nat) (early : ∀ expiry, e.gapTimer = some expiry → stamp < expiry) :
    e.expireGap s lanes ctx stamp = (e, []) := by
  unfold ClockedEngine.expireGap
  split
  · rename_i expiry timer
    exact if_neg (Nat.not_le.mpr (early expiry timer))
  · rfl

/-- Settles O53. -/
theorem clockedEngineFollowsItsRules : Obligations.ClockedEngineFollowsItsRules := by
  intro e s lanes ctx x clock out clock_ out_ edge ended
  have rises := samplingEdge_iff (s := s) (x := x) clock_
  refine ⟨fun moved bit inBit d bit_ in_ noIn moved_ d_ => ?_, rfl, fun c asserted select level => ?_,
    fun select => ⟨fun fresh => ?_, fun later early => ?_, fun expiry later timer due open_ => ?_⟩,
    fun endTick early w w_ few same => ?_⟩
  · have inBit_ : x.value lanes.inn = inBit := by
      cases lane : lanes.inn with
      | none => exact (noIn lane).symm
      | some c => exact (in_ c lane).symm
    have moves : (x.changes lanes.out || x.changes lanes.inn) = moved := by
      rw [Bool.eq_iff_iff, moved_, Bool.or_eq_true, changes_bound out_]
      refine or_congr_right ?_
      cases lane : lanes.inn with
      | none => simp [Reading.changes]
      | some c => simp [Reading.changes, inSet]
    have taken := takeBit_eq e s lanes ctx x (d := d) (by rw [moves, inBit_, value_bound out_, ← bit_]; exact d_)
    rw [taken]
    exact ⟨fun short => if_neg (Nat.not_le.mpr short), fun full => if_pos full⟩
  · have level : s.asserted (x.value lanes.select) = asserted := by
      unfold ClockedSettings.asserted
      rw [Bool.eq_iff_iff, beq_iff_eq, value_bound select, ← level]
      rfl
    have selectOf := sample_selectOf (e := e) (ctx := ctx) select level
    refine ⟨sample_selectFresh select level, fun later on was => ?_, fun later off was => ?_, fun later off was => ?_,
      fun later on was => ⟨fun quiet => ?_, fun open_ here => ?_⟩⟩
    · rw [selectOf later, on, takeSelect_on was, value_bound clock_, was, if_neg (by simp)]
      have bne (a b : Bool) : (a != b) = decide (a ≠ b) := by cases a <;> cases b <;> rfl
      rw [bne]
      rfl
    · rw [selectOf later, off, takeSelect_off was, endEarly_eq, if_neg (by simp)]
      rfl
    · rw [selectOf later, off.trans was.symm, takeSelect_same, was, if_neg (by simp)]
      exact congrArg (·, []) (by rw [← was])
    · rw [selectOf later, on.trans was.symm, takeSelect_same, if_neg]
      intro both
      simp only [Bool.and_eq_true, bne_iff_ne, rises] at both
      exact quiet.elim both.1.2 (· both.2)
    · rw [selectOf later, on.trans was.symm, takeSelect_same, if_pos]
      · rfl
      · simp only [Bool.and_eq_true, bne_iff_ne, rises]
        exact ⟨⟨⟨was, was⟩, open_⟩, here⟩
  · unfold ClockedEngine.sample
    rw [select]
    exact if_pos fresh
  · rw [sample_unselectedOf select later, expireGap_early _ early, List.nil_append]
    refine if_congr ?_ rfl rfl
    rw [rises, Bool.eq_iff_iff (b := decide _), decide_eq_true_iff]
  · have due := expireGap_due (set := s) lanes ctx timer due open_
    rw [sample_unselectedOf select later, due]
    exact ⟨fun quiet => if_neg (mt rises.mp quiet), fun here => if_pos (rises.mpr here)⟩
  · obtain ⟨context, kind, start, end_, length, head, inWord⟩ := word_fields e s lanes ctx endTick early
    have flag (k : Nat) := word_flag e s lanes ctx endTick early (k := k)
    have bits (j k : Nat) := word_head e s lanes ctx endTick early (j := j) (k := k)
    have inBits (v : BitVec 32) (k : Nat) := word_in e s lanes ctx endTick early (v := v) (k := k)
    subst w_
    have short : (leBytes (ceilDiv e.outBits.length 8) (s.number e.outBits)).length ≤ 65535 := by
      rw [leBytes_length]
      unfold ceilDiv
      omega
    refine ⟨context, kind, start, end_, length.trans (Nat.min_eq_left (by omega)), ?_, fun k below => ?_,
      fun j k below bit => bits j k few below bit, fun none => inWord.trans (by rw [none]; rfl), fun some_ => ?_⟩
    · rw [head, length, List.length_take, leBytes_length]
      omega
    · by_cases trimmed : k = 24
      · have flags : (e.word s lanes ctx endTick early).flags
            = flagWord [(.skew, e.skew), (.phase, e.phasePending), (.partialWord, early)] := recordOf_flags short
        rw [flags, flagWord_getLsbD, trimmed]
        simp [RecordFlag.position]
      · exact flag k trimmed
    · obtain ⟨lane, bound⟩ := Option.ne_none_iff_exists'.mp some_
      rw [bound] at inWord
      exact ⟨_, inWord, fun k bit => inBits _ k inWord bit⟩

end Sys2Proof.Machine
end

section
/-! PROOFS. The two-wire engine (O55). -/

namespace Sys2Proof.Machine

variable {e q : TwoWireEngine} {s : TwoWireSettings} {lanes : Lanes} {ctx : CtxId} {x : Reading} {clock data : Bool}

/-! ## Bytes (R143) -/

theorem reverse_getD {l : List Bool} {k : Nat} (below : k < l.length) :
    l.reverse.getD k false = l.getD (l.length - 1 - k) false := by
  rw [List.getD_eq_getElem?_getD, List.getD_eq_getElem?_getD, List.getElem?_reverse below]

theorem bitsMsb_bit {l : List Bool} {k : Nat} (below : k < l.length) :
    (bitsMsb l).testBit k = l.getD (l.length - 1 - k) false := by
  rw [bitsMsb_testBit, reverse_getD below]

theorem byte_bit {l : List Bool} (whole : l.length = 8) {k : Nat} (below : k < 8) :
    (BitVec.ofNat 8 (bitsMsb l)).getLsbD k = l.getD (7 - k) false := by
  rw [BitVec.getLsbD_ofNat, decide_eq_true below, Bool.true_and, bitsMsb_bit (by omega), whole]

theorem address_bit {l : List Bool} (whole : l.length = 8) {k : Nat} (below : k < 7) :
    (BitVec.ofNat 7 (bitsMsb l / 2)).getLsbD k = l.getD (6 - k) false := by
  rw [BitVec.getLsbD_ofNat, decide_eq_true below, Bool.true_and, Nat.testBit_div_two, bitsMsb_bit (by omega), whole]
  congr 1
  omega

theorem direction_bit {l : List Bool} (whole : l.length = 8) : decide (bitsMsb l % 2 = 1) = l.getD 7 false := by
  rw [← Nat.testBit_zero, bitsMsb_bit (by omega), whole]

/-! ## Hold classes (R148) -/

/-- R148: the hold class after a sample, case by case. -/
theorem updateHold_eq (q : TwoWireEngine) (clock data : Bool) (stamp : Nat) : q.updateHold clock data stamp
    = if clock = false ∧ q.hold ≠ .clockLow then { q with hold := .clockLow, holdOrigin := stamp }
      else if clock = true ∧ data = false ∧ q.hold ≠ .dataLowClockHigh then
        { q with hold := .dataLowClockHigh, holdOrigin := stamp }
      else if clock = true ∧ data = true ∧ q.hold ≠ .none then { q with hold := .none, holdOrigin := stamp }
      else q := by
  unfold TwoWireEngine.updateHold holdOf
  cases clock with
  | false =>
    by_cases same : q.hold = .clockLow
    · simp [same]
    · simp [same]
  | true =>
    cases data with
    | false =>
      by_cases same : q.hold = .dataLowClockHigh
      · simp [same]
      · simp [same]
    | true =>
      by_cases same : q.hold = .none
      · simp [same]
      · simp [same]

/-! ## Timers that do not expire -/

theorem expireStuck_early (stamp : Nat)
    (early : e.state = .waitFree ∨ e.hold = .none ∨ stamp < e.holdOrigin + s.stuckLimit) :
    e.expireStuck s ctx stamp = (e, []) := by
  refine if_neg fun due => ?_
  unfold TwoWireEngine.stuckDue at due
  rw [Bool.and_eq_true, Bool.and_eq_true, bne_iff_ne, bne_iff_ne, decide_eq_true_iff] at due
  obtain ⟨⟨open_, held⟩, late⟩ := due
  exact early.elim open_ fun early => early.elim held fun early => Nat.not_le.mpr early late

theorem expireFree_early (stamp : Nat)
    (early : e.state ≠ .waitFree ∨ ∀ o, e.freeOrigin = some o → stamp < o + s.busFree) : e.expireFree s stamp = e := by
  unfold TwoWireEngine.expireFree
  split
  · rename_i o waits free
    exact if_neg (Nat.not_le.mpr (early.resolve_left (· waits) o free))
  · rfl

/-! ## A sample (R141, R148, R149) -/

section Sample

variable (clock_ : x.value lanes.clock = clock) (data_ : x.value lanes.data = data)

include clock_ data_

theorem twoWire_fresh (fresh : x.fresh = true) : e.sample s lanes ctx x = ({ e with
    state := if clock = true ∧ data = true then .busFree else .waitFree, hold := .none, freeOrigin := none, clock
    data }, []) := by
  unfold TwoWireEngine.sample
  dsimp only
  rw [clock_, data_, if_pos fresh]
  simp only [Bool.and_eq_true]

/-- A sample that leaves the bus out of WAIT_FREE, after the timers have made `t` of the engine. -/
theorem twoWire_awake {t : TwoWireEngine} {stuck out : List Emission} (later : x.fresh = false)
    (timer : e.expireStuck s ctx x.stamp = (q, stuck)) (free : q.expireFree s x.stamp = t) {u : TwoWireEngine}
    (took : t.take s ctx x data (lineEvent t.clock t.data clock data) = (u, out)) (awake : u.state ≠ .waitFree) :
    e.sample s lanes ctx x = ({ u.updateHold clock data x.stamp with clock, data }, stuck ++ out) := by
  unfold TwoWireEngine.sample
  dsimp only
  rw [clock_, data_, if_neg (by rw [later]; decide), timer]
  dsimp only
  rw [free, took]
  dsimp only
  rw [if_neg awake]

theorem twoWire_waits {stuck : List Emission} (later : x.fresh = false)
    (timer : e.expireStuck s ctx x.stamp = (q, stuck)) (free : q.expireFree s x.stamp = q) (waits : q.state = .waitFree) :
    e.sample s lanes ctx x = ({ q with
      freeOrigin := if clock = true ∧ data = true then some (q.freeOrigin.getD x.stamp) else none, clock, data }, stuck) := by
  have took (event : LineEvent) : q.take s ctx x data event = (q, []) := by
    unfold TwoWireEngine.take
    rw [waits]
  unfold TwoWireEngine.sample
  dsimp only
  rw [clock_, data_, if_neg (by rw [later]; decide), timer]
  dsimp only
  rw [free, took]
  dsimp only
  rw [if_pos waits, List.append_nil]
  unfold TwoWireEngine.updateFree
  simp only [Bool.and_eq_true]
  split <;> rfl

end Sample

/-! ## Line events (Table 9-4) -/

theorem lineEvent_quiet {clockBefore dataBefore : Bool} (same : clockBefore = clock)
    (still : dataBefore = data ∨ clock = false) : lineEvent clockBefore dataBefore clock data = .quiet := by
  subst same
  unfold lineEvent
  cases clockBefore with
  | false => rfl
  | true => simp [still.resolve_right]

theorem lineEvent_start_iff {clockBefore dataBefore : Bool} : lineEvent clockBefore dataBefore clock data = .start
    ↔ clockBefore = true ∧ clock = true ∧ dataBefore = true ∧ data = false := by
  revert clockBefore dataBefore clock data
  decide

theorem take_idle (free : q.state = .busFree) {event : LineEvent} (other : event ≠ .start) :
    q.take s ctx x data event = (q, []) := by
  unfold TwoWireEngine.take
  rw [free]
  cases event with
  | start => exact absurd rfl other
  | stop | rise | fall | quiet => rfl

theorem take_open (free : q.state = .busFree) : q.take s ctx x data .start = (q.openMessage x.stamp, []) := by
  unfold TwoWireEngine.take
  rw [free]

theorem take_quiet (open_ : q.state ≠ .waitFree) : q.take s ctx x data .quiet = (q, []) := by
  unfold TwoWireEngine.take
  cases state : q.state with
  | waitFree => exact absurd state open_
  | busFree | address | data => rfl

section InMessage

variable (inMessage : q.state = .address ∨ q.state = .data)

include inMessage

theorem take_start : q.take s ctx x data .start = (({ q.closeMessage .busFree with
    lastStretch := q.stretch } : TwoWireEngine).openMessage x.stamp,
      if passesFilter s.filter q.address then [.record (q.message s ctx x.stamp (!q.assembly.isEmpty) false)]
        else [.suppressed]) := by
  unfold TwoWireEngine.take
  obtain address | data := inMessage
  · rw [address]
    rfl
  · rw [data]
    rfl

theorem take_stop : q.take s ctx x data .stop = ({ q.closeMessage .busFree with lastStretch := q.stretch },
      if passesFilter s.filter q.address then [.record (q.message s ctx x.stamp (!q.assembly.isEmpty) false)]
        else [.suppressed]) := by
  unfold TwoWireEngine.take
  obtain address | data := inMessage
  · rw [address]
    rfl
  · rw [data]
    rfl

theorem take_rise : q.take s ctx x data .rise = ({ q.addStretch s x.step x.stamp with provisional := some data }, []) := by
  unfold TwoWireEngine.take
  obtain address | data := inMessage
  · rw [address]
  · rw [data]

theorem take_fall : q.take s ctx x data .fall = ({ q.confirm with lastFall := some x.stamp }, []) := by
  unfold TwoWireEngine.take
  obtain address | data := inMessage
  · rw [address]
  · rw [data]

end InMessage

theorem addStretch_none {step stamp : Nat} (none_ : q.lastFall = none) : q.addStretch s step stamp = q := by
  unfold TwoWireEngine.addStretch
  rw [none_]

theorem addStretch_some {step stamp fall : Nat} (some_ : q.lastFall = some fall) : q.addStretch s step stamp = { q with
    stretch := min (q.stretch + (stamp - fall - max s.clockLow step)) (2 ^ 32 - 1), lastFall := none } := by
  unfold TwoWireEngine.addStretch
  rw [some_]

theorem confirm_none (none_ : q.provisional = none) : q.confirm = q := by
  unfold TwoWireEngine.confirm
  rw [none_]

theorem confirm_bit {b : Bool} (bit : q.provisional = some b) (short : q.assembly.length ≠ 8) :
    q.confirm = { q with provisional := none, assembly := q.assembly ++ [b] } := by
  unfold TwoWireEngine.confirm
  rw [bit]
  exact if_neg short

theorem confirm_address {b : Bool} (bit : q.provisional = some b) (whole : q.assembly.length = 8)
    (address : q.state = .address) : q.confirm = { q with
      provisional := none, assembly := [], state := .data, address := some (BitVec.ofNat 7 (bitsMsb q.assembly / 2))
      isRead := decide (bitsMsb q.assembly % 2 = 1), addressAck := !b } := by
  unfold TwoWireEngine.confirm
  rw [bit]
  dsimp only
  rw [if_pos whole]
  unfold TwoWireEngine.byteComplete
  dsimp only
  rw [address]

theorem confirm_data {b : Bool} (bit : q.provisional = some b) (whole : q.assembly.length = 8)
    (data : q.state = .data) : q.confirm = { q with
      provisional := none, assembly := [], bytes := q.bytes ++ [(BitVec.ofNat 8 (bitsMsb q.assembly), !b)] } := by
  unfold TwoWireEngine.confirm
  rw [bit]
  dsimp only
  rw [if_pos whole]
  unfold TwoWireEngine.byteComplete
  dsimp only
  rw [data]

/-! ## The record (R145) -/

theorem nakData_write (acks : List Bool) : nakData false acks = true ↔ ∃ b ∈ acks, b = false := by
  unfold nakData
  simp

theorem nakData_read (acks : List Bool) (last : Bool) : nakData true (acks ++ [last]) = true ↔ ∃ b ∈ acks, b = false := by
  unfold nakData
  simp

/-- R145: the acknowledges of the data bytes. -/
def acksOf (bytes : List (Byte × Bool)) : List Bool := bytes.map (·.2)

theorem firstNak_none {bytes : List (Byte × Bool)} (all : ∀ b ∈ bytes, b.2 = true) : firstNakOf (acksOf bytes) = none := by
  refine List.findIdx?_eq_none_iff.mpr fun ack mem => ?_
  obtain ⟨b, at_, rfl⟩ := List.mem_map.mp mem
  rw [all b at_]
  rfl

theorem firstNak_iff (bytes : List (Byte × Bool)) (n : Nat) : firstNakOf (acksOf bytes) = some n
    ↔ (∃ v, bytes[n]? = some (v, false)) ∧ ∀ k, k < n → ∃ v, bytes[k]? = some (v, true) := by
  have get (k : Nat) (below : k < (acksOf bytes).length) (ack : Bool) :
      (acksOf bytes)[k] = ack ↔ ∃ v, bytes[k]? = some (v, ack) := by
    have within : k < bytes.length := by rwa [acksOf, List.length_map] at below
    rw [List.getElem?_eq_getElem within, show (acksOf bytes)[k] = bytes[k].2 from List.getElem_map _]
    refine ⟨fun same => ⟨bytes[k].1, congrArg some (Prod.ext rfl same)⟩, ?_⟩
    rintro ⟨v, same⟩
    rw [Option.some.inj same]
  have inside (k : Nat) (ack : Bool) (at_ : ∃ v, bytes[k]? = some (v, ack)) : k < (acksOf bytes).length := by
    obtain ⟨v, at_⟩ := at_
    rw [acksOf, List.length_map]
    exact (List.getElem?_eq_some_iff.mp at_).1
  unfold firstNakOf
  rw [List.findIdx?_eq_some_iff_getElem]
  constructor
  · rintro ⟨below, nak, before⟩
    refine ⟨(get n below false).mp (by simpa using nak), fun k early => (get k (Nat.lt_trans early below) true).mp ?_⟩
    simpa using before k early
  · rintro ⟨nak, before⟩
    refine ⟨inside n false nak, ?_, fun k early => ?_⟩
    · rw [(get n _ false).mpr nak]
      rfl
    · rw [(get k _ true).mpr (before k early)]
      decide

section Flags

variable (e : TwoWireEngine) (s : TwoWireSettings) (ctx : CtxId) (endTick : Nat) (aborted stuck : Bool)

theorem message_detail : (e.message s ctx endTick aborted stuck).isRead = (e.address.map fun _ => e.isRead)
    ∧ (e.message s ctx endTick aborted stuck).ack = e.address.map fun _ =>
      ⟨e.addressAck, firstNakOf (acksOf e.bytes), (acksOf e.bytes).getLast?⟩ := ⟨rfl, rfl⟩

theorem message_nakAddress : (e.message s ctx endTick aborted stuck).flags.getLsbD 16
    = (e.address.isSome && !e.addressAck) := by
  rw [message_flag _ _ _ _ _ _ (by decide), flagWord_getLsbD]
  simp [RecordFlag.position]

theorem message_nakData : (e.message s ctx endTick aborted stuck).flags.getLsbD 17
    = nakData e.isRead (e.bytes.map (·.2)) := by
  rw [message_flag _ _ _ _ _ _ (by decide), flagWord_getLsbD]
  simp [RecordFlag.position]

theorem message_stretch : (e.message s ctx endTick aborted stuck).flags.getLsbD 18 = decide (s.stretchLimit < e.stretch) := by
  rw [message_flag _ _ _ _ _ _ (by decide), flagWord_getLsbD]
  simp [RecordFlag.position]

end Flags

/-! ## The filter (R146) -/

theorem passesFilter_some {filter : List (BitVec 7 × BitVec 7)} (some_ : filter ≠ []) (a : BitVec 7) :
    passesFilter filter (some a) = true
      ↔ ∃ f ∈ filter, ∀ k, k < 7 → f.2.getLsbD k = true → a.getLsbD k = f.1.getLsbD k := by
  obtain ⟨f, rest, rfl⟩ := List.exists_cons_of_ne_nil some_
  unfold passesFilter
  rw [List.any_eq_true]
  refine exists_congr fun f => and_congr_right fun _ => ?_
  rw [beq_iff_eq]
  constructor
  · intro same k _ masked
    have bit := congrArg (·.getLsbD k) same
    simpa [masked] using bit
  · intro same
    refine BitVec.eq_of_getLsbD_eq fun k below => ?_
    rw [BitVec.getLsbD_and, BitVec.getLsbD_and]
    cases masked : f.2.getLsbD k with
    | true => rw [same k below masked]
    | false => rw [Bool.and_false, Bool.and_false]

/-- Settles O55. -/
theorem twoWireEngineFollowsItsRules : Obligations.TwoWireEngineFollowsItsRules := by
  intro e s lanes ctx x c d clock data clock_ data_ clockIs dataIs opened closed aborted out held inMessage after
  have clock_ : x.value lanes.clock = clock := (value_bound clock_).trans clockIs.symm
  have data_ : x.value lanes.data = data := (value_bound data_).trans dataIs.symm
  have holds (q : TwoWireEngine) : q.updateHold clock data x.stamp = held q := updateHold_eq q clock data x.stamp
  refine ⟨twoWire_fresh clock_ data_, fun later open_ early => ?_, fun later waits early => ?_,
    fun later open_ hold due origin origin_ => ?_, fun o later waits free due => ?_,
    fun endTick aborted stuck r r_ => ?_, fun filter a => ?_⟩
  · -- line events
    have timer := expireStuck_early (ctx := ctx) (s := s) x.stamp (.inr early)
    have free := expireFree_early (s := s) (e := e) x.stamp (.inl open_)
    have event {u : TwoWireEngine} {o : List Emission}
        (took : e.take s ctx x data (lineEvent e.clock e.data clock data) = (u, o)) (awake : u.state ≠ .waitFree) :
        after u o := by
      refine (twoWire_awake clock_ data_ later timer free took awake).trans ?_
      rw [holds]
      rfl
    have rise (was : e.clock = false) (now : clock = true) : lineEvent e.clock e.data clock data = .rise := by
      rw [was, now]
      rfl
    have falls (was : e.clock = true) (now : clock = false) : lineEvent e.clock e.data clock data = .fall := by
      rw [was, now]
      rfl
    refine ⟨fun was now high low => ⟨fun idle => ?_, fun inMessage => ?_⟩, fun was now low high => ⟨fun idle => ?_, fun inMessage => ?_⟩,
      fun same still => ?_, fun moved idle => ?_, fun was now inMessage => ⟨fun fall => ?_, fun fall at_ => ?_⟩,
      fun was now inMessage => ⟨fun none => ?_, fun b bit => ⟨fun short => ?_, fun whole address => ?_, fun whole within => ?_⟩⟩⟩
    · refine event ?_ (nofun : BusState.address ≠ .waitFree)
      rw [lineEvent_start_iff.mpr ⟨was, now, high, low⟩]
      exact take_open idle
    · refine event ?_ (nofun : BusState.address ≠ .waitFree)
      rw [lineEvent_start_iff.mpr ⟨was, now, high, low⟩]
      exact take_start inMessage
    · refine event ?_ open_
      rw [was, now, low, high]
      exact take_idle idle (by decide)
    · refine event ?_ (nofun : BusState.busFree ≠ .waitFree)
      rw [was, now, low, high]
      exact take_stop inMessage
    · refine event ?_ open_
      rw [lineEvent_quiet same still]
      exact take_quiet open_
    · exact event (take_idle idle fun start => moved ((lineEvent_start_iff.mp start).1.trans
        (lineEvent_start_iff.mp start).2.1.symm)) open_
    · refine event (u := { e with provisional := some data }) ?_ open_
      rw [rise was now, take_rise inMessage, addStretch_none fall]
    · refine event (u := { e with provisional := some data, lastFall := none, stretch := _ }) ?_ open_
      rw [rise was now, take_rise inMessage, addStretch_some at_]
    · refine event (u := { e with lastFall := some x.stamp }) ?_ open_
      rw [falls was now, take_fall inMessage, confirm_none none]
    · refine event (u := { e with provisional := _, assembly := _, lastFall := _ }) ?_ open_
      rw [falls was now, take_fall inMessage, confirm_bit bit short]
    · refine ⟨BitVec.ofNat 7 (bitsMsb e.assembly / 2), fun k below => address_bit whole below, ?_⟩
      refine event ?_ (nofun : BusState.data ≠ .waitFree)
      rw [falls was now, take_fall inMessage,
        confirm_address bit whole address, direction_bit whole]
    · refine ⟨BitVec.ofNat 8 (bitsMsb e.assembly), fun k below => byte_bit whole below, ?_⟩
      refine event (u := { e with provisional := _, assembly := _, bytes := _, lastFall := _ }) ?_ open_
      rw [falls was now, take_fall inMessage, confirm_data bit whole within]
  · have timer := expireStuck_early (ctx := ctx) (s := s) (e := e) x.stamp (.inl waits)
    exact twoWire_waits clock_ data_ later timer (expireFree_early x.stamp (.inr early)) waits
  · refine ⟨fun inMessage => ?_, fun idle => ?_⟩
    · have timer := expireStuck_message ctx hold due inMessage
      rw [twoWire_waits clock_ data_ later timer (expireFree_early x.stamp (.inr nofun)) rfl, origin_]
      rfl
    · have timer := expireStuck_idle ctx hold due idle
      have record := recordOf_eq ctx .message e.holdOrigin x.stamp (flagWord [(.busStuck, true)]) []
      rw [if_neg (by simp)] at record
      refine ⟨recordOf ctx .message e.holdOrigin x.stamp (flagWord [(.busStuck, true)]) [], ?_, ?_⟩
      · rw [twoWire_waits clock_ data_ later timer (expireFree_early x.stamp (.inr nofun)) rfl, origin_]
        rfl
      · rw [record]
        refine ⟨rfl, rfl, rfl, rfl, rfl, rfl, rfl, rfl, rfl, fun k _ => ?_⟩
        rw [flagWord_getLsbD]
        simp [RecordFlag.position, eq_comm]
  · have timer := expireStuck_early (ctx := ctx) (s := s) (e := e) x.stamp (.inl waits)
    have freed := expireFree_due (set := s) waits free due
    have event {u : TwoWireEngine} (took : ({ e with state := .busFree, hold := .none, freeOrigin := none } : TwoWireEngine).take
        s ctx x data (lineEvent e.clock e.data clock data) = (u, [])) (awake : u.state ≠ .waitFree) : after u [] := by
      refine (twoWire_awake clock_ data_ later timer freed took awake).trans ?_
      rw [holds]
      rfl
    refine ⟨fun start => ?_, fun other => ?_⟩
    · refine event ?_ (nofun : BusState.address ≠ .waitFree)
      rw [lineEvent_start_iff.mpr start]
      exact take_open rfl
    · exact event (take_idle rfl fun start => other (lineEvent_start_iff.mp start)) nofun
  · obtain ⟨context, kind, start, end_, length, head, address⟩ := message_fields e s ctx endTick aborted stuck
    have flag (k : Nat) (named : k ≠ 24) := message_flag e s ctx endTick aborted stuck (k := k) named
    obtain ⟨isRead, ack⟩ := message_detail e s ctx endTick aborted stuck
    subst r_
    refine ⟨context, kind, start, end_, length, head, address, fun none => ⟨isRead.trans (by rw [none]; rfl), ack.trans (by rw [none]; rfl),
      ?_⟩, fun some_ => ?_, fun write => ?_, fun read b before last => ?_, ?_, message_stuck e s ctx endTick aborted stuck,
      message_aborted e s ctx endTick aborted stuck⟩
    · rw [message_nakAddress, none]
      rfl
    · obtain ⟨a, at_⟩ := Option.ne_none_iff_exists'.mp some_
      refine ⟨isRead.trans (by rw [at_]; rfl), ?_, _, _, ack.trans (by rw [at_]; rfl), firstNak_none, firstNak_iff e.bytes, fun none => ?_,
        fun b before last => ?_⟩
      · rw [message_nakAddress, at_]
        rfl
      · rw [none]
        rfl
      · rw [last, acksOf, List.map_append]
        exact List.getLast?_concat
    · rw [message_nakData, write, nakData_write]
      simp
    · rw [message_nakData, read, last, List.map_append, List.map_singleton, nakData_read]
      simp
    · rw [message_stretch, decide_eq_true_iff]
  · exact ⟨by cases filter <;> rfl, rfl, fun some_ => passesFilter_some some_ a⟩

end Sys2Proof.Machine
end

section
/-! PROOFS. The asynchronous engine (O52). -/

namespace Sys2Proof.Machine

variable {e : AsyncEngine} {s : AsyncSettings} {ctx : CtxId} {level : Level} {t : Nat} {mark : Bool} {f : AsyncFrame}

/-! ## The effective window and the estimate (R103, R105) -/

/-- R103: the lower bound of the effective window, as a condition on the level. -/
theorem windowLow_eq (s : AsyncSettings) (level : Level) :
    s.windowLow level = if level = .economy then max s.lower 4096 else s.lower := by
  cases level <;> rfl

theorem foldl_min_le (l : List Nat) (a : Nat) : l.foldl min a ≤ a ∧ ∀ i ∈ l, l.foldl min a ≤ i := by
  induction l generalizing a with
  | nil => exact ⟨Nat.le_refl a, nofun⟩
  | cons b l ih =>
    obtain ⟨first, rest⟩ := ih (min a b)
    refine ⟨Nat.le_trans first (Nat.min_le_left a b), fun i hi => ?_⟩
    rcases List.mem_cons.mp hi with rfl | hi
    · exact Nat.le_trans first (Nat.min_le_right a i)
    · exact rest i hi

theorem foldl_min_mem (l : List Nat) (a : Nat) : l.foldl min a = a ∨ l.foldl min a ∈ l := by
  induction l generalizing a with
  | nil => exact .inl rfl
  | cons b l ih =>
    rcases ih (min a b) with same | inside
    · rw [List.foldl_cons, same]
      rcases Nat.le_total a b with le | le
      · exact .inl (Nat.min_eq_left le)
      · exact .inr (by rw [Nat.min_eq_right le]; exact List.mem_cons_self)
    · exact .inr (List.mem_cons_of_mem b inside)

/-- R105: the smallest of the kept intervals. -/
theorem foldl_min_eq {l : List Nat} {m : Nat} (here : m ∈ l) (least : ∀ i ∈ l, m ≤ i) : l.foldl min (l.headD 0) = m := by
  refine Nat.le_antisymm ((foldl_min_le l _).2 m here) ?_
  rcases foldl_min_mem l (l.headD 0) with first | inside
  · rw [first]
    cases l with
    | nil => cases here
    | cons b l => exact least b List.mem_cons_self
  · exact least _ inside

theorem estimatePeriod_eq {l : List Nat} {m bits : Nat} (here : m ∈ l) (least : ∀ i ∈ l, m ≤ i)
    (sum : bits = (l.map fun i => (2 * i + m) / (2 * m)).sum) : estimatePeriod l = (512 * l.sum + bits) / (2 * bits) := by
  unfold estimatePeriod
  rw [foldl_min_eq here least]
  dsimp only
  rw [← sum]

/-! ## Changes of the lane by phase -/

theorem takeChange_acquire (acquires : e.tracker = .acquire) :
    e.takeChange s ctx level t mark = (e.acquireChange s level t mark, []) := if_pos acquires

theorem takeChange_huntSync (holds : e.tracker ≠ .acquire) (phase : e.phase = .huntSync) :
    e.takeChange s ctx level t mark = if mark then ({ e with markSince := some t }, [])
      else if e.syncReached s t then (e.startEdge t, []) else ({ e with markSince := none }, []) := by
  unfold AsyncEngine.takeChange
  rw [if_neg holds, phase]

theorem takeChange_huntNext (holds : e.tracker ≠ .acquire) (phase : e.phase = .huntNext) :
    e.takeChange s ctx level t mark
      = if mark then ({ e with markSince := some t }, []) else (e.startEdge t, []) := by
  unfold AsyncEngine.takeChange
  rw [if_neg holds, phase]

theorem takeChange_frame (holds : e.tracker ≠ .acquire) (phase : e.phase = .frame) (frame : e.frame = some f) :
    e.takeChange s ctx level t mark = ({ (e.trackEdge s level f t).1 with frame := some { (e.trackEdge s level f t).2 with
      changes := (e.trackEdge s level f t).2.changes ++ [(t, mark)] } }, []) := by
  unfold AsyncEngine.takeChange
  rw [if_neg holds, phase, frame]

theorem takeChange_breakWait (holds : e.tracker ≠ .acquire) (phase : e.phase = .breakWait) :
    e.takeChange s ctx level t mark = if mark
      then ({ e with phase := .huntSync, markSince := some t, frame := none },
        [.record (recordOf ctx .brk ((e.frame.map (·.start)).getD t) t 0#32 [])])
      else (e, []) := by
  unfold AsyncEngine.takeChange
  rw [if_neg holds, phase]

/-! ## Acquisition (R105) -/

/-- R105: the intervals kept with a change at `t`. -/
def AsyncEngine.kept (e : AsyncEngine) (s : AsyncSettings) (level : Level) (t : Nat) : List Nat :=
  match e.lastChange with
  | some t0 =>
    if s.upper < 256 * (t - t0) ∨ 256 * (t - t0) < s.windowLow level then e.intervals else e.intervals ++ [t - t0]
  | none => e.intervals

theorem acquireChange_few (few : (e.kept s level t).length < 16) :
    e.acquireChange s level t mark = { e with intervals := e.kept s level t, lastChange := some t } :=
  if_neg (Nat.not_le.mpr few)

theorem acquireChange_full (full : 16 ≤ (e.kept s level t).length) : e.acquireChange s level t mark = { e with
    tracker := .wide, period := s.clampPeriod level (estimatePeriod (e.kept s level t)), goodRun := 0, badRun := 0
    intervals := [], lastChange := none, phase := .huntSync, markSince := if mark then some t else none } :=
  if_pos full

/-! ## Tracking edges (R114) -/

theorem trackEdge_outside (outside : centre f.start e.period (s.frameLength - 1) ≤ 256 * t
    ∨ boundaryIndex f.start e.period t = 0 ∨ s.frameLength ≤ boundaryIndex f.start e.period t) :
    e.trackEdge s level f t = (e, f) := if_pos outside

theorem trackEdge_inside (inside : ¬ (centre f.start e.period (s.frameLength - 1) ≤ 256 * t
    ∨ boundaryIndex f.start e.period t = 0 ∨ s.frameLength ≤ boundaryIndex f.start e.period t)) :
    e.trackEdge s level f t = ({ e with period := if s.mode = .fixed then e.period
        else (s.clampPeriod level
          (e.period + correction e.tracker (boundaryIndex f.start e.period t) (edgeError f.start e.period t)).toNat) },
      { f with edgesGood := f.edgesGood && decide (4 * (edgeError f.start e.period t).natAbs ≤ e.period) }) :=
  if_neg inside

theorem correction_eq (tracker : Tracker) (j : Nat) (err : Int) :
    correction tracker j err = Int.tdiv err (j * (if tracker = .narrow then 64 else 8)) := by
  unfold correction
  split <;> rfl

/-! ## Bits (R108, R109) -/

theorem majority_iff (a b c : Bool) :
    (majority a b c).1 = true ↔ a = true ∧ b = true ∨ a = true ∧ c = true ∨ b = true ∧ c = true := by
  rw [majority, Bool.or_eq_true, Bool.or_eq_true, Bool.and_eq_true, Bool.and_eq_true, Bool.and_eq_true, or_assoc]

theorem beq_decide (a b : Bool) : (a == b) = decide (a = b) := by
  cases a <;> cases b <;> rfl

theorem majority_noise (a b c : Bool) : (majority a b c).2 = !(decide (a = b) && decide (b = c)) := by
  rw [majority, beq_decide, beq_decide]

/-- R108: the frame with its next bit. -/
def AsyncFrame.withBit (f : AsyncFrame) (value noise : Bool) : AsyncFrame :=
  { f with bits := f.bits ++ [value], noise := f.noise || noise }

section Bits

variable {step stamp : Nat} (phase : e.phase = .frame) (frame : e.frame = some f)

include phase frame

theorem nextBit_early (early : stamp < centre f.start e.period f.bits.length / 256 + spread e.period step) :
    e.nextBit s ctx level step stamp = none := by
  unfold AsyncEngine.nextBit
  rw [phase, frame]
  exact if_neg (Nat.not_le.mpr early)

theorem nextBit_due {tick d : Nat} {a b c value : Bool} (tick_ : tick = centre f.start e.period f.bits.length / 256)
    (d_ : d = spread e.period step) (a_ : a = f.valueAt (tick - d)) (b_ : b = f.valueAt tick)
    (c_ : c = f.valueAt (tick + d)) (value_ : (majority a b c).1 = value) (due : tick + d ≤ stamp) :
    e.nextBit s ctx level step stamp = some (
      if f.bits = [] ∧ value = true then e.falseStart s ctx level (f.withBit value (majority a b c).2)
      else if f.bits.length + 1 = s.frameLength then e.endFrame s ctx level (f.withBit value (majority a b c).2)
      else ({ e with frame := some (f.withBit value (majority a b c).2) }, [])) := by
  have length : ({ f with bits := f.bits ++ [value], noise := f.noise || (majority a b c).2 } : AsyncFrame).bits.length
      = f.bits.length + 1 := List.length_append
  have first : f.bits.length + 1 = 1 ↔ f.bits = [] := by
    rw [Nat.add_eq_right, List.length_eq_zero_iff]
  unfold AsyncEngine.nextBit
  rw [phase, frame]
  dsimp only
  rw [← tick_, ← d_, if_pos due, ← a_, ← b_, ← c_, value_, length, AsyncFrame.withBit]
  simp only [first]
  split
  · rfl
  · split <;> rfl

end Bits

/-! ## Frame ends (R102, R109, R111, R112) -/

/-- R112: a frame whose bits are all space begins a BREAK. -/
theorem endFrame_break (space : ∀ b ∈ f.bits, b = false) : e.endFrame s ctx level f
    = ({ e with phase := .breakWait, frame := some f } : AsyncEngine).takeChanges s ctx level
        (f.changes.filter fun c => decide (centre f.start e.period (s.frameLength - 1) ≤ 256 * c.1)) :=
  if_pos (List.all_eq_true.mpr fun b hb => by rw [space b hb]; rfl)

/-- R109: the engine with a character judged by the filter, hunting. -/
def AsyncEngine.hunting (e : AsyncEngine) (last : Nat) (pass emitted : Bool) (since : Option Nat) : AsyncEngine := { e with
  phase := .huntNext, frame := none, pass, markSince := since, idleArmed := e.idleArmed || emitted
  lastCharacter := if emitted then some (last / 256) else e.lastCharacter }

theorem endFrame_character {last : Nat} (last_ : last = centre f.start e.period (s.frameLength - 1))
    (some_ : ∃ b ∈ f.bits, b = true) {c : Character} (c_ : c = f.character s) {pass emitted : Bool}
    (judged : multidrop s.filterAddress e.pass c = (pass, emitted)) {q : AsyncEngine} {moved out : List Emission}
    (verdict : (e.hunting last pass emitted
      (markBefore (f.changes.filter fun c => decide (256 * c.1 < last)))).verdict s (!c.errored && f.edgesGood) = (q, moved))
    (out_ : out = if emitted
      then [.record (recordOf ctx .character f.start (last / 256) c.flags (characterPayload s.dataBits c.value))]
      else [.suppressed]) :
    e.endFrame s ctx level f = if q.tracker = .acquire then (q, out ++ moved)
      else ((q.takeChanges s ctx level (f.changes.filter fun c => decide (last ≤ 256 * c.1))).1,
        out ++ moved ++ (q.takeChanges s ctx level (f.changes.filter fun c => decide (last ≤ 256 * c.1))).2) := by
  have some_ : ¬ (f.bits.all (!·)) = true := by
    intro all
    obtain ⟨b, hb, set⟩ := some_
    have space := List.all_eq_true.mp all b hb
    rw [set] at space
    cases space
  unfold AsyncEngine.hunting at verdict
  unfold AsyncEngine.endFrame
  dsimp only
  rw [if_neg some_, ← last_, ← c_, judged]
  dsimp only
  rw [verdict, ← out_]

theorem markBefore_nil : markBefore [] = none := rfl

theorem markBefore_last (cs : List (Nat × Bool)) (u : Nat) (m : Bool) :
    markBefore (cs ++ [(u, m)]) = if m then some u else none := by
  unfold markBefore
  rw [List.getLast?_concat]
  cases m <;> rfl

/-! ## The character (R102, R111) -/

theorem dataBits_getD (bits : List Bool) (n k : Nat) :
    ((bits.drop 1).take n).getD k false = (decide (k < n) && bits.getD (1 + k) false) := by
  rw [List.getD_eq_getElem?_getD, List.getD_eq_getElem?_getD, List.getElem?_take]
  by_cases below : k < n
  · rw [if_pos below, List.getElem?_drop, decide_eq_true below, Bool.true_and]
  · rw [if_neg below, decide_eq_false below, Bool.false_and, Option.getD_none]

/-- R102: the bits of the character's value are the data bits. -/
theorem character_value_testBit (k : Nat) :
    (f.character s).value.testBit k = (decide (k < s.dataBits) && f.bits.getD (1 + k) false) := by
  unfold AsyncFrame.character
  dsimp only
  rw [bitsLsb_testBit, dataBits_getD]

theorem parityMismatch_iff (p : Parity) (bits : List Bool) : parityMismatch p bits = true
    ↔ (p = .even ∧ bits.count true % 2 = 1) ∨ (p = .odd ∧ bits.count true % 2 = 0) := by
  cases p <;> simp [parityMismatch]

theorem character_flag {k : Nat} (noise framing parity markBit : Bool) :
    (flagWord [(.noise, noise), (.framing, framing), (.parity, parity), (.addressMark, markBit)]).getLsbD k
      = (if k = 0 then noise else if k = 1 then framing else if k = 2 then parity
          else if k = 22 then markBit else false) := by
  rw [flagWord_getLsbD]
  simp only [List.any_cons, List.any_nil, RecordFlag.position, Bool.or_false]
  by_cases noise_ : k = 0
  · subst noise_
    simp
  by_cases framing_ : k = 1
  · subst framing_
    simp
  by_cases parity_ : k = 2
  · subst parity_
    simp
  by_cases mark_ : k = 22
  · subst mark_
    simp
  simp [noise_, framing_, parity_, mark_, Ne.symm noise_, Ne.symm framing_, Ne.symm parity_, Ne.symm mark_]

theorem characterPayload_length (dataBits value : Nat) :
    (characterPayload dataBits value).length = if dataBits = 9 then 2 else 1 := by
  unfold characterPayload
  split <;> rfl

/-- R102: the low byte of the payload. -/
theorem characterPayload_low {dataBits value k : Nat} (bit : k < 8) :
    (((characterPayload dataBits value).take 4).getD 0 0#8).getLsbD k = value.testBit k := by
  unfold characterPayload
  split
  · exact (leBytes_getLsbD (n := 2) value (by decide) bit).trans (by rw [Nat.mul_zero, Nat.zero_add])
  · exact (leBytes_getLsbD (n := 1) value (by decide) bit).trans (by rw [Nat.mul_zero, Nat.zero_add])

/-- R102: the second byte of the payload, of nine data bits alone. -/
theorem characterPayload_high {dataBits value k : Nat} (bit : k < 8) :
    (((characterPayload dataBits value).take 4).getD 1 0#8).getLsbD k
      = (decide (dataBits = 9) && value.testBit (8 + k)) := by
  unfold characterPayload
  split
  · rename_i nine
    rw [decide_eq_true nine, Bool.true_and]
    exact leBytes_getLsbD (n := 2) (j := 1) value (by decide) bit
  · rename_i other
    rw [decide_eq_false other, Bool.false_and]
    exact BitVec.getLsbD_zero

/-! ## The multidrop filter (R112) -/

theorem multidrop_none (pass : Bool) (c : Character) : multidrop none pass c = (pass, true) := rfl

theorem multidrop_errored {c : Character} (address : Nat) (pass : Bool) (errored : c.errored = true) :
    multidrop (some address) pass c = (if c.markBit then false else pass, true) := if_pos errored

theorem multidrop_address {c : Character} (address : Nat) (pass : Bool) (good : c.errored = false)
    (marked : c.markBit = true) :
    multidrop (some address) pass c = (decide (c.value = address), decide (c.value = address)) :=
  (if_neg (by rw [good]; decide)).trans (if_pos marked)

theorem multidrop_data {c : Character} (address : Nat) (pass : Bool) (good : c.errored = false)
    (unmarked : c.markBit = false) : multidrop (some address) pass c = (pass, pass) :=
  (if_neg (by rw [good]; decide)).trans (if_neg (by rw [unmarked]; decide))

/-! ## Verdicts (R115 to R117) -/

theorem verdict_stays (good : Bool)
    (stays : e.tracker = .acquire ∨ (e.tracker = .wide ∧ good = true ∧ e.goodRun < 7)
      ∨ (e.tracker = .wide ∧ good = false ∧ (e.badRun < 15 ∨ s.mode ≠ .auto)) ∨ (e.tracker = .narrow ∧ good = true)
      ∨ (e.tracker = .narrow ∧ good = false ∧ e.badRun < 3)) :
    e.verdict s good = ({ e with
      goodRun := if good then min (e.goodRun + 1) 8 else 0, badRun := if good then 0 else min (e.badRun + 1) 16 }, []) := by
  unfold AsyncEngine.verdict bump
  rcases stays with tracker | ⟨tracker, rfl, few⟩ | ⟨tracker, rfl, few⟩ | ⟨tracker, rfl⟩ | ⟨tracker, rfl, few⟩
  · cases good <;> simp [tracker]
  · have below : ¬ min (e.goodRun + 1) 8 = 8 := by omega
    simp [tracker, below]
  · simp only [tracker, Bool.false_eq_true, reduceIte]
    refine (if_neg (by omega)).trans (if_neg ?_)
    rintro ⟨full, auto⟩
    exact few.elim (fun few => by omega) fun other => other auto
  · simp [tracker]
  · simp only [tracker, Bool.false_eq_true, reduceIte]
    exact if_neg (by omega)

theorem verdict_locks (tracker : e.tracker = .wide) (many : 7 ≤ e.goodRun) :
    e.verdict s true = ({ e with tracker := .narrow, goodRun := 0, badRun := 0 }, [.lockChange]) := by
  have full : min (e.goodRun + 1) 8 = 8 := by omega
  unfold AsyncEngine.verdict bump
  simp [tracker, full]

theorem verdict_unlocks (tracker : e.tracker = .narrow) (many : 3 ≤ e.badRun) :
    e.verdict s false = ({ e with tracker := .wide, goodRun := 0, badRun := 0 }, [.lockChange]) := by
  have full : 4 ≤ min (e.badRun + 1) 16 := by omega
  unfold AsyncEngine.verdict bump
  simp [tracker, full]

theorem verdict_loses (tracker : e.tracker = .wide) (many : 15 ≤ e.badRun) (auto : s.mode = .auto) :
    e.verdict s false = ({ e with
      tracker := .acquire, goodRun := 0, badRun := 0, intervals := [], lastChange := none, phase := .huntSync
      markSince := none, idleArmed := false }, []) := by
  have full : min (e.badRun + 1) 16 = 16 := by omega
  unfold AsyncEngine.verdict bump
  simp [tracker, full, auto]

/-! ## Samples (R107 to R109) -/

theorem evaluateBits_none {step stamp n : Nat} (none_ : e.nextBit s ctx level step stamp = none) :
    AsyncEngine.evaluateBits s ctx level step stamp n e = (e, []) := by
  cases n with
  | zero => rfl
  | succ n =>
    unfold AsyncEngine.evaluateBits
    rw [none_]

theorem evaluateBits_one {step stamp n : Nat} {b : AsyncEngine} {out : List Emission}
    (one : e.nextBit s ctx level step stamp = some (b, out)) (last : b.nextBit s ctx level step stamp = none) :
    AsyncEngine.evaluateBits s ctx level step stamp (n + 1) e = (b, out) := by
  unfold AsyncEngine.evaluateBits
  rw [one]
  dsimp only
  rw [evaluateBits_none last, List.append_nil]

section Samples

variable {lanes : Lanes} {x : Reading}

theorem sample_fresh (mark_ : (x.value lanes.data == (s.polarity == .normal)) = mark) (fresh : x.fresh = true) :
    e.sample s lanes ctx level x = ({ e with markSince := if mark then some x.stamp else none }, []) := by
  unfold AsyncEngine.sample
  rw [mark_]
  exact if_pos fresh

theorem sample_later (mark_ : (x.value lanes.data == (s.polarity == .normal)) = mark) (later : x.fresh = false)
    {i c b : AsyncEngine} {idle out more : List Emission} (idle_ : e.expireIdle s ctx x.stamp = (i, idle))
    (change : (if x.changes lanes.data then i.takeChange s ctx level x.stamp mark else (i, [])) = (c, out))
    (bits : AsyncEngine.evaluateBits s ctx level x.step x.stamp 64 c = (b, more)) :
    e.sample s lanes ctx level x = (b, idle ++ out ++ more) := by
  unfold AsyncEngine.sample
  rw [mark_]
  dsimp only
  rw [if_neg (by rw [later]; decide), idle_]
  dsimp only
  rw [change]
  dsimp only
  rw [bits]

end Samples

/-- Settles O52. -/
theorem asyncEngineFollowsItsRules : Obligations.AsyncEngineFollowsItsRules := by
  intro e s ctx level t mark low clamped
  have clamps (p : Nat) : s.clampPeriod level p = clamped p := by
    unfold AsyncSettings.clampPeriod
    rw [windowLow_eq]
  refine ⟨fun lanes x d bound mark_ stamp => ?_, fun acquires kept kept_ => ?_, fun holds phase => ?_, fun holds phase => ?_,
    fun f holds phase frame => ?_, fun f j err holds phase frame _ j_ err_ => ?_,
    fun f step tick d a b c v phase frame tick_ d_ a_ b_ c_ v_ => ?_, fun f q moved verdict => ?_,
    fun f last later whole last_ later_ => ?_,
    fun good => ⟨verdict_stays good, fun tracker good_ many => ?_, fun tracker bad many => ?_,
      fun tracker bad many auto => ?_⟩⟩
  · have mark_ : (x.value lanes.data == (s.polarity == .normal)) = mark := by
      rw [value_bound bound, Bool.eq_iff_iff, beq_iff_eq, ← mark_]
      rfl
    subst stamp
    refine ⟨sample_fresh mark_, fun later => ?_⟩
    obtain ⟨i, idle, idle_⟩ : ∃ i idle, e.expireIdle s ctx x.stamp = (i, idle) := ⟨_, _, rfl⟩
    obtain ⟨c, out, change⟩ : ∃ c out,
      (if x.changes lanes.data then i.takeChange s ctx level x.stamp mark else (i, [])) = (c, out) := ⟨_, _, rfl⟩
    obtain ⟨b, more, bits⟩ : ∃ b more, AsyncEngine.evaluateBits s ctx level x.step x.stamp 64 c = (b, more) := ⟨_, _, rfl⟩
    refine ⟨i, c, b, idle, out, more, idle_, fun quiet => ?_, fun changed => ?_, fun none_ => ?_, fun b1 o1 one last => ?_,
      bits, sample_later mark_ later idle_ change bits⟩
    · rw [changes_bound bound, if_neg (by rw [quiet]; decide)] at change
      exact ⟨(congrArg Prod.fst change).symm, (congrArg Prod.snd change).symm⟩
    · rwa [changes_bound bound, if_pos changed] at change
    · rw [evaluateBits_none none_] at bits
      exact ⟨(congrArg Prod.fst bits).symm, (congrArg Prod.snd bits).symm⟩
    · rw [evaluateBits_one one last] at bits
      exact ⟨(congrArg Prod.fst bits).symm, (congrArg Prod.snd bits).symm⟩
  · have kept_ : e.kept s level t = kept := by
      unfold AsyncEngine.kept
      rw [windowLow_eq]
      exact kept_.symm
    rw [takeChange_acquire acquires]
    refine ⟨fun few => ?_, fun m bits full here least sum => ?_⟩
    · rw [acquireChange_few (by rw [kept_]; exact few), kept_]
    · rw [acquireChange_full (by rw [kept_, full]), kept_, estimatePeriod_eq here least sum, clamps]
  · rw [takeChange_huntSync holds phase]
    refine ⟨fun marks => if_pos marks, fun m space since long => ?_, fun space short => ?_⟩
    · rw [if_neg (by rw [space]; decide), if_pos]
      · rfl
      · unfold AsyncEngine.syncReached
        rw [since]
        exact decide_eq_true long
    · rw [if_neg (by rw [space]; decide), if_neg]
      unfold AsyncEngine.syncReached
      split
      · rename_i m since
        rw [decide_eq_true_eq]
        exact Nat.not_le.mpr (short m since)
      · decide
  · rw [takeChange_huntNext holds phase]
    cases mark <;> rfl
  · rw [takeChange_breakWait holds phase, frame]
    refine ⟨fun space => if_neg (by rw [space]; decide), fun marks => ⟨_, if_pos marks, ?_⟩⟩
    rw [recordOf_eq]
    exact ⟨rfl, rfl, rfl, rfl, rfl, rfl⟩
  · have boundary : boundaryIndex f.start e.period t = j := j_.symm
    have error : edgeError f.start e.period t = err := by
      unfold edgeError
      rw [boundary, err_]
    rw [takeChange_frame holds phase frame]
    refine ⟨fun outside => ?_, fun early later inside => ?_⟩
    · rw [trackEdge_outside (by rw [boundary]; exact outside)]
    · rw [trackEdge_inside (by
        rw [boundary]
        rintro (late | zero | past)
        · exact Nat.not_le.mpr early late
        · exact later zero
        · exact Nat.not_le.mpr inside past)]
      rw [boundary, error, correction_eq, clamps]
  · refine ⟨fun early => nextBit_early phase frame (by rw [d_, tick_] at early; exact early), fun f' f'_ due => ?_⟩
    have value_ : (majority a b c).1 = v := by
      rw [Bool.eq_iff_iff, majority_iff, v_]
    have bit : f.withBit v (majority a b c).2 = f' := by
      rw [majority_noise, f'_]
      rfl
    rw [nextBit_due phase frame tick_ d_ a_ b_ c_ value_ due, bit]
    refine ⟨fun first marks => ?_, fun other short => ?_, fun other full => ?_⟩
    · rw [if_pos ⟨first, marks⟩]
    · rw [if_neg (fun h => other.elim (· h.1) fun space => by rw [space] at h; cases h.2), if_neg (Nat.ne_of_lt short)]
    · rw [if_neg (fun h => other.elim (· h.1) fun space => by rw [space] at h; cases h.2), if_pos full]
  · unfold AsyncEngine.falseStart
    rw [verdict]
    exact ⟨fun lost => if_pos lost, fun holds => if_neg holds⟩
  · have last_ : last = centre f.start e.period (s.frameLength - 1) := last_
    subst later_
    refine ⟨fun space => by rw [endFrame_break space, ← last_], fun some_ => ?_⟩
    obtain ⟨c, c_⟩ : ∃ c, c = f.character s := ⟨_, rfl⟩
    obtain ⟨pass, emitted, judged⟩ : ∃ pass emitted, multidrop s.filterAddress e.pass c = (pass, emitted) := ⟨_, _, rfl⟩
    obtain ⟨q, moved, verdict⟩ : ∃ q moved, (e.hunting last pass emitted
      (markBefore (f.changes.filter fun c => decide (256 * c.1 < last)))).verdict s (!c.errored && f.edgesGood)
        = (q, moved) := ⟨_, _, rfl⟩
    have ended := endFrame_character (ctx := ctx) (level := level) last_ some_ c_ judged verdict rfl
    have valued (k : Nat) : c.value.testBit k = (decide (k < s.dataBits) && f.bits.getD (1 + k) false) := by
      rw [c_, character_value_testBit]
    refine ⟨recordOf ctx .character f.start (last / 256) c.flags (characterPayload s.dataBits c.value),
      (f.bits.drop (s.frameLength - s.stopBits)).any (!·),
      parityMismatch s.parity ((f.bits.drop 1).take (s.frameLength - 1 - s.stopBits)), c.markBit, c.errored, pass, emitted,
      markBefore (f.changes.filter fun c => decide (256 * c.1 < last)), q, moved, by rw [recordOf_eq], by rw [recordOf_eq],
      by rw [recordOf_eq], by rw [recordOf_eq], ?_, parityMismatch_iff _ _, by rw [c_]; rfl, by rw [c_]; rfl,
      fun k _ => ?_, ?_, fun nine k bit => ⟨?_, ?_⟩, fun none_ => ?_, fun address value filter bits => ?_, verdict,
      fun none_ => by rw [none_, markBefore_nil], fun cs u m some_ => by rw [some_, markBefore_last],
      fun lost => by rw [ended, if_pos lost], fun holds => by rw [ended, if_neg holds]⟩
    · rw [List.any_eq_true]
      simp only [Bool.not_eq_true']
    · have short : (characterPayload s.dataBits c.value).length ≤ 65535 := by
        rw [characterPayload_length]
        split <;> decide
      rw [recordOf_flags short, c_]
      exact character_flag _ _ _ _
    · rw [recordOf_eq]
      dsimp only
      rw [characterPayload_length]
      split <;> rfl
    · rw [recordOf_eq]
      dsimp only
      rw [characterPayload_low bit, valued]
    · rw [recordOf_eq]
      dsimp only
      rw [characterPayload_high bit, valued]
      by_cases wide : s.dataBits = 9
      · rw [wide]
        cases k with
        | zero => rfl
        | succ k => simp [show ¬ 8 + (k + 1) < 9 by omega]
      · simp [wide]
    · rw [none_, multidrop_none] at judged
      exact ⟨(congrArg Prod.snd judged).symm, (congrArg Prod.fst judged).symm⟩
    · have same : c.value = value := Nat.eq_of_testBit_eq fun k => by rw [valued, bits]
      rw [filter] at judged
      refine ⟨fun errored => ?_, fun good marked => ?_, fun good unmarked => ?_⟩
      · rw [multidrop_errored address _ errored] at judged
        exact ⟨(congrArg Prod.snd judged).symm, (congrArg Prod.fst judged).symm⟩
      · rw [multidrop_address address _ good marked, same] at judged
        obtain ⟨passed, out⟩ := Prod.mk.inj judged
        exact ⟨out.symm, passed.symm.trans out⟩
      · rw [multidrop_data address _ good unmarked] at judged
        exact ⟨(congrArg Prod.snd judged).symm, (congrArg Prod.fst judged).symm⟩
  · rw [good_, verdict_locks tracker many]
  · rw [bad, verdict_unlocks tracker many]
  · rw [bad, verdict_loses tracker many auto]

end Sys2Proof.Machine
end

section
/-! PROOFS. Flash transfers, clock by clock (R128 to R131). -/

namespace Sys2Proof.Machine

variable {t : Transfer} {wide : Bool} {lanes : Lanes} {set : List Descriptor} {x : Reading} {d : Descriptor}

/-! ## The order of the phases (Table 8-7) -/

theorem afterDummy_eq (d : Descriptor) :
    d.afterDummy = if d.direction = .none then TransferPhase.surplus else .data := rfl

theorem afterMode_eq (d : Descriptor) : d.afterMode = if d.dummy ≠ 0 then TransferPhase.dummy
    else if d.direction = .none then .surplus else .data := by
  unfold Descriptor.afterMode
  rw [afterDummy_eq, ite_not]

theorem afterAddress_eq (d : Descriptor) : d.afterAddress = if d.hasMode then TransferPhase.mode
    else if d.dummy ≠ 0 then .dummy else if d.direction = .none then .surplus else .data := by
  unfold Descriptor.afterAddress
  rw [afterMode_eq]

theorem afterCommand_eq (d : Descriptor) : d.afterCommand = if d.addressBytes ≠ 0 then TransferPhase.address
    else if d.hasMode then .mode else if d.dummy ≠ 0 then .dummy
    else if d.direction = .none then .surplus else .data := by
  unfold Descriptor.afterCommand
  rw [afterAddress_eq, ite_not (p := d.addressBytes = 0)]

theorem afterDummy_cases (d : Descriptor) : d.afterDummy = .surplus ∨ d.afterDummy = .data := by
  rw [afterDummy_eq]
  exact ite_eq_or_eq _ _ _

theorem afterMode_cases (d : Descriptor) : d.afterMode = .dummy ∨ d.afterMode = .surplus ∨ d.afterMode = .data := by
  unfold Descriptor.afterMode
  split
  · exact .inr (afterDummy_cases d)
  · exact .inl rfl

theorem afterAddress_cases (d : Descriptor) : d.afterAddress = .mode ∨ d.afterAddress = d.afterMode := by
  unfold Descriptor.afterAddress
  split
  · exact .inl rfl
  · exact .inr rfl

theorem afterCommand_cases (d : Descriptor) : d.afterCommand = .address ∨ d.afterCommand = d.afterAddress := by
  unfold Descriptor.afterCommand
  split
  · exact .inr rfl
  · exact .inl rfl

/-! ## Lane widths and clocks (Table 8-6) -/

/-- The phases of a descriptor that read four lanes. -/
theorem laneWidth_four {p : TransferPhase} (governed : p ≠ .command) : laneWidthOf wide (some d) p = 4
    ↔ ((p = .address ∨ p = .mode) ∧ d.addressWidth = 4) ∨ (p = .data ∧ d.dataWidth = 4) := by
  cases p <;> simp [laneWidthOf] at governed ⊢

theorem afterCommand_ne (d : Descriptor) : d.afterCommand ≠ .command := by
  rcases afterCommand_cases d with h | h
  · rw [h]
    decide
  · rw [h]
    rcases afterAddress_cases d with h | h
    · rw [h]
      decide
    · rw [h]
      rcases afterMode_cases d with h | h | h <;> (rw [h]; decide)

/-- After the address a phase reads four lanes as the mode byte or as data. -/
theorem laneWidth_afterAddress (d : Descriptor) : laneWidthOf wide (some d) d.afterAddress = 4
    ↔ (d.afterAddress = .mode ∧ d.addressWidth = 4) ∨ (d.afterAddress = .data ∧ d.dataWidth = 4) := by
  have later : d.afterAddress ≠ .command ∧ d.afterAddress ≠ .address := by
    rcases afterAddress_cases d with h | h
    · rw [h]
      decide
    · rw [h]
      rcases afterMode_cases d with h | h | h <;> (rw [h]; decide)
  obtain ⟨governed, past⟩ := later
  rw [laneWidth_four governed, or_iff_right past]

/-- After the mode byte a phase reads four lanes as data alone. -/
theorem laneWidth_afterMode (d : Descriptor) :
    laneWidthOf wide (some d) d.afterMode = 4 ↔ d.afterMode = .data ∧ d.dataWidth = 4 := by
  rcases afterMode_cases d with h | h | h <;> (rw [h]; simp [laneWidthOf])

theorem laneWidth_afterDummy (d : Descriptor) :
    laneWidthOf wide (some d) d.afterDummy = 4 ↔ d.direction ≠ .none ∧ d.dataWidth = 4 := by
  rw [afterDummy_eq]
  split
  · rename_i none_
    simp [laneWidthOf, none_]
  · rename_i some_
    simp [laneWidthOf, some_]

section Widths

variable {width : Nat} (listed : width = 1 ∨ width = 2 ∨ width = 4)

include listed

theorem clocksPerByte_mul : width * clocksPerByte width = 8 := by
  rcases listed with rfl | rfl | rfl <;> rfl

theorem width_pos : 0 < width := by
  rcases listed with rfl | rfl | rfl <;> decide

theorem eight_div_width : 8 / width = clocksPerByte width := by
  rcases listed with rfl | rfl | rfl <;> rfl

/-- The clocks of `n` bytes are those whose lane bits fill them. -/
theorem clocks_of_bytes {clocks n : Nat} : clocks = n * clocksPerByte width ↔ width * clocks = 8 * n := by
  have whole := clocksPerByte_mul listed
  rw [← Nat.mul_right_inj (Nat.pos_iff_ne_zero.mp (width_pos listed)), Nat.mul_left_comm, whole, Nat.mul_comm n 8]

theorem clocks_of_byte {clocks : Nat} : clocks = clocksPerByte width ↔ width * clocks = 8 := by
  rw [← Nat.one_mul (clocksPerByte width), clocks_of_bytes listed]

theorem clocks_mod_byte {clocks : Nat} : clocks % clocksPerByte width = 0 ↔ width * clocks % 8 = 0 := by
  rw [← clocksPerByte_mul listed, Nat.mul_mod_mul_left, Nat.mul_eq_zero,
    or_iff_right (Nat.pos_iff_ne_zero.mp (width_pos listed))]

end Widths

theorem laneBits_eq {d0 : Chan} {b : Bool} (bound : lanes.d0 = some d0) (b_ : b = x.lines.getLsbD d0.val) (width : Nat)
    (fromTarget : Bool) : laneBits lanes x width fromTarget
      = if width = 4 then [x.value lanes.d3, x.value lanes.d2, x.value lanes.d1, b]
        else if width = 2 then [x.value lanes.d1, b] else if fromTarget then [x.value lanes.d1] else [b] := by
  unfold laneBits
  rw [value_bound bound, ← b_]

/-! ## The beginning of a phase (R130) -/

theorem enter_missing (p : TransferPhase) : (t.enter wide lanes p).lanesMissing = true
    ↔ t.lanesMissing = true ∨ (laneWidthOf wide t.descriptor p = 4 ∧ (lanes.d2 = none ∨ lanes.d3 = none)) := by
  unfold Transfer.enter
  simp

theorem enter_missing_of {p : TransferPhase} (known : t.lanesMissing = false) :
    (t.enter wide lanes p).lanesMissing = true
      ↔ laneWidthOf wide t.descriptor p = 4 ∧ (lanes.d2 = none ∨ lanes.d3 = none) := by
  rw [enter_missing, known]
  simp

theorem enter_eq (p : TransferPhase) : t.enter wide lanes p
    = { t with phase := p, clocks := 0, bits := [], lanesMissing := (t.enter wide lanes p).lanesMissing } := rfl

theorem enter_of_missing {p : TransferPhase} (missing : t.lanesMissing = true) :
    t.enter wide lanes p = { t with phase := p, clocks := 0, bits := [] } := by
  rw [enter_eq, (enter_missing p).mpr (.inl missing), ← missing]

theorem enter_of_narrow {p : TransferPhase} (narrow : laneWidthOf wide t.descriptor p ≠ 4) :
    t.enter wide lanes p = { t with phase := p, clocks := 0, bits := [] } := by
  have same : (t.enter wide lanes p).lanesMissing = t.lanesMissing := by
    rw [Bool.eq_iff_iff, enter_missing]
    exact or_iff_left fun h => narrow h.1
  rw [enter_eq, same]

/-! ## One clock (R128, R129) -/

/-- Table 8-6: the bits of the unit with those that one clock reads. -/
def Transfer.nextBits (t : Transfer) (wide : Bool) (lanes : Lanes) (x : Reading) : List Bool :=
  if laneWidthOf wide t.descriptor t.phase = 0 ∨ t.lanesMissing then t.bits
  else t.bits ++ laneBits lanes x (laneWidthOf wide t.descriptor t.phase)
    (t.phase == .data && (t.descriptor.map (·.direction)) == some .fromTarget)

/-- The transfer with one clock more, before what the clock completes. -/
def Transfer.clocked (t : Transfer) (bits : List Bool) : Transfer :=
  { t with clocks := t.clocks + 1, total := t.total + 1, bits }

theorem nextBits_missing (missing : t.lanesMissing = true) : t.nextBits wide lanes x = t.bits := if_pos (.inr missing)

theorem nextBits_unread (unread : laneWidthOf wide t.descriptor t.phase = 0) : t.nextBits wide lanes x = t.bits :=
  if_pos (.inl unread)

theorem nextBits_read (read : laneWidthOf wide t.descriptor t.phase ≠ 0) (known : t.lanesMissing = false) :
    t.nextBits wide lanes x = t.bits ++ laneBits lanes x (laneWidthOf wide t.descriptor t.phase)
      (t.phase == .data && (t.descriptor.map (·.direction)) == some .fromTarget) :=
  if_neg (not_or.mpr ⟨read, by rw [known]; decide⟩)

theorem clock_command (phase : t.phase = .command) : t.clock wide lanes set x
    = if t.clocks + 1 = clocksPerByte (if wide then 4 else 1)
      then (t.clocked (t.nextBits wide lanes x)).commandDone wide lanes set else t.clocked (t.nextBits wide lanes x) := by
  unfold Transfer.clock Transfer.nextBits Transfer.clocked
  dsimp only
  rw [phase]
  rfl

theorem clock_address (phase : t.phase = .address) (governs : t.descriptor = some d) : t.clock wide lanes set x
    = if t.clocks + 1 = d.addressBytes * clocksPerByte d.addressWidth
      then ({ t.clocked (t.nextBits wide lanes x) with
          address := if t.lanesMissing then none else some (bitsMsb (t.nextBits wide lanes x)) } : Transfer).enter
          wide lanes d.afterAddress
      else t.clocked (t.nextBits wide lanes x) := by
  unfold Transfer.clock Transfer.nextBits Transfer.clocked
  dsimp only
  rw [phase, governs]
  rfl

theorem clock_mode (phase : t.phase = .mode) (governs : t.descriptor = some d) : t.clock wide lanes set x
    = if t.clocks + 1 = clocksPerByte d.addressWidth
      then ({ t.clocked (t.nextBits wide lanes x) with
          modeByte := if t.lanesMissing then none else some (byteOf (t.nextBits wide lanes x)) } : Transfer).enter
          wide lanes d.afterMode
      else t.clocked (t.nextBits wide lanes x) := by
  unfold Transfer.clock Transfer.nextBits Transfer.clocked
  dsimp only
  rw [phase, governs]
  rfl

theorem clock_dummy (phase : t.phase = .dummy) (governs : t.descriptor = some d) : t.clock wide lanes set x
    = if t.clocks + 1 = d.dummy then (t.clocked t.bits).enter wide lanes d.afterDummy else t.clocked t.bits := by
  unfold Transfer.clock Transfer.clocked
  dsimp only
  rw [phase, governs]
  rfl

theorem clock_data (phase : t.phase = .data) : t.clock wide lanes set x
    = (t.clocked (t.nextBits wide lanes x)).dataClock (laneWidthOf wide t.descriptor .data) x.stamp := by
  unfold Transfer.clock Transfer.nextBits Transfer.clocked
  dsimp only
  rw [phase]

theorem clock_generic (phase : t.phase = .generic) : t.clock wide lanes set x
    = (t.clocked (t.nextBits wide lanes x)).dataClock 1 x.stamp := by
  unfold Transfer.clock Transfer.nextBits Transfer.clocked
  dsimp only
  rw [phase]
  rfl

theorem clock_idle (phase : t.phase = .surplus ∨ t.phase = .undecoded) :
    t.clock wide lanes set x = t.clocked t.bits := by
  unfold Transfer.clock Transfer.clocked
  dsimp only
  rcases phase with phase | phase
  · rw [phase]
    rfl
  · rw [phase]
    rfl

/-- R129: a unit's byte is stored when its clocks are complete. -/
theorem dataClock_known (width stamp : Nat) (known : t.lanesMissing = false) : t.dataClock width stamp = { t with
    bits := if t.clocks % clocksPerByte width = 0 then [] else t.bits
    bytes := if t.clocks % clocksPerByte width = 0 then t.bytes ++ [(byteOf t.bits, stamp)] else t.bytes } := by
  unfold Transfer.dataClock
  rw [if_neg (by rw [known]; decide : ¬ t.lanesMissing = true)]
  by_cases whole : t.clocks % clocksPerByte width = 0
  · simp only [whole, reduceIte]
  · simp only [whole, reduceIte]

/-- R130: a unit that is not decoded stores no byte. -/
theorem dataClock_missing (width stamp : Nat) (missing : t.lanesMissing = true) : t.dataClock width stamp
    = { t with bits := if t.clocks % clocksPerByte width = 0 then [] else t.bits } := by
  unfold Transfer.dataClock
  rw [if_pos missing]
  by_cases whole : t.clocks % clocksPerByte width = 0
  · simp only [whole, reduceIte]
  · simp only [whole, reduceIte]

/-! ## The command byte (R129, R130) -/

theorem byteOf_eq {bits : List Bool} {opcode : Byte} (whole : bits.length = 8)
    (same : ∀ k, k < 8 → opcode.getLsbD k = bits.getD (7 - k) false) : byteOf bits = opcode :=
  BitVec.eq_of_getLsbD_eq fun k below => by
    unfold byteOf
    rw [byte_bit whole below, same k below]

theorem commandDone_missing (missing : t.lanesMissing = true) :
    t.commandDone wide lanes set = { t with phase := .undecoded, clocks := 0, bits := [] } :=
  (if_pos missing).trans (enter_of_missing missing)

theorem commandDone_unknown (known : t.lanesMissing = false) {opcode : Byte} (byte : byteOf t.bits = opcode)
    (unknown : ∀ d ∈ set, d.opcode ≠ opcode) : t.commandDone wide lanes set
      = { t with phase := .generic, clocks := 0, bits := [], opcode := some opcode, unknown := true } := by
  have none_ : set.find? (fun d => decide (d.opcode = opcode)) = none :=
    List.find?_eq_none.mpr fun d hd => by rw [decide_eq_true_eq]; exact unknown d hd
  unfold Transfer.commandDone
  rw [if_neg (by rw [known]; decide), byte, none_]
  exact enter_of_narrow (by simp [laneWidthOf])

theorem commandDone_known (known : t.lanesMissing = false) {opcode : Byte} (byte : byteOf t.bits = opcode)
    {before after : List Descriptor} (split_ : set = before ++ d :: after) (here : d.opcode = opcode)
    (first : ∀ c ∈ before, c.opcode ≠ opcode) : t.commandDone wide lanes set
      = ({ t with opcode := some opcode, descriptor := some d } : Transfer).enter wide lanes d.afterCommand := by
  have found : set.find? (fun d => decide (d.opcode = opcode)) = some d := by
    rw [split_, List.find?_append, List.find?_eq_none.mpr fun c hc => by rw [decide_eq_true_eq]; exact first c hc,
      List.find?_cons_of_pos (by rw [here]; exact decide_eq_true rfl)]
    rfl
  unfold Transfer.commandDone
  rw [if_neg (by rw [known]; decide), byte, found]

/-! ## The assertion (R128) -/

theorem newTransfer_fresh {m : FlashModel} (stamp : Nat) (none_ : m.continuation = none) : m.newTransfer lanes stamp
    = ({ startTick := stamp, elided := false, phase := .command } : Transfer).enter m.wide lanes .command := by
  unfold FlashModel.newTransfer
  rw [none_]

theorem newTransfer_armed {m : FlashModel} (stamp : Nat) (armed : m.continuation = some d) : m.newTransfer lanes stamp
    = ({ startTick := stamp, elided := true, phase := .address, opcode := some d.opcode, descriptor := some d }
      : Transfer).enter m.wide lanes d.afterCommand := by
  unfold FlashModel.newTransfer
  rw [armed]

/-! ## How a transfer ended (R131) -/

theorem ending_complete (ends : t.phase = .surplus
    ∨ (t.phase = .data ∧ ∃ d, t.descriptor = some d ∧ t.clocks % (8 / d.dataWidth) = 0
      ∧ (d.dataWidth = 1 ∨ d.dataWidth = 2 ∨ d.dataWidth = 4))
    ∨ (t.phase = .generic ∧ t.clocks % 8 = 0)) : t.ending wide = .complete := by
  unfold Transfer.ending
  rcases ends with phase | ⟨phase, d, governs, whole, listed⟩ | ⟨phase, whole⟩
  · rw [phase]
  · rw [eight_div_width listed] at whole
    rw [phase, governs]
    exact if_pos whole
  · rw [phase]
    exact if_pos whole

theorem ending_truncated (ends : t.phase = .address ∨ t.phase = .mode ∨ t.phase = .dummy
    ∨ (t.phase = .command ∧ t.lanesMissing = false)
    ∨ (t.phase = .data ∧ ∃ d, t.descriptor = some d ∧ t.clocks % (8 / d.dataWidth) ≠ 0
      ∧ (d.dataWidth = 1 ∨ d.dataWidth = 2 ∨ d.dataWidth = 4))
    ∨ (t.phase = .generic ∧ t.clocks % 8 ≠ 0)) : t.ending wide = .truncated := by
  unfold Transfer.ending
  rcases ends with phase | phase | phase | ⟨phase, known⟩ | ⟨phase, d, governs, part, listed⟩ | ⟨phase, part⟩
  · rw [phase]
  · rw [phase]
  · rw [phase]
  · rw [phase, known]
    rfl
  · rw [eight_div_width listed] at part
    rw [phase, governs]
    exact if_neg part
  · rw [phase]
    exact if_neg part

theorem ending_undecided (ends : t.phase = .undecoded ∨ (t.phase = .command ∧ t.lanesMissing = true)) :
    t.ending wide = .undecided := by
  unfold Transfer.ending
  rcases ends with phase | ⟨phase, missing⟩
  · rw [phase]
  · rw [phase, missing]
    rfl

end Sys2Proof.Machine
end

section
/-! PROOFS. The flash target model and the FLASH_OP record (R131 to R137), and the flash engine (O54). -/

namespace Sys2Proof.Machine

variable {m : FlashModel} {s : FlashSettings} {t : Transfer} {endTick : Nat} {d : Descriptor}

/-! ## The target model (R131, R133, R134) -/

theorem apply_truncated (ends : t.ending m.wide = .truncated) :
    m.apply s t endTick = { model := { m with continuation := none }, flags := [(.truncated, true)] } := by
  unfold FlashModel.apply
  rw [ends]

theorem apply_undecided (ends : t.ending m.wide = .undecided) : m.apply s t endTick = { model := m } := by
  unfold FlashModel.apply
  rw [ends]

theorem apply_complete (ends : t.ending m.wide = .complete) : m.apply s t endTick = m.submit s t endTick := by
  unfold FlashModel.apply
  rw [ends]

theorem submit_poweredDown (down : m.poweredDown = true) (other : ∀ d, t.descriptor = some d → d.effect ≠ .powerUp) :
    m.submit s t endTick = { model := m, flags := [(.ignoredPoweredDown, true)] } := by
  refine if_pos ⟨down, fun h => ?_⟩
  obtain ⟨d, governs, up⟩ := Option.map_eq_some_iff.mp h
  exact other d governs up

theorem submit_generic (up : m.poweredDown = false) (none_ : t.descriptor = none) :
    m.submit s t endTick = { model := m } := by
  unfold FlashModel.submit
  rw [if_neg (fun h => by rw [up] at h; cases h.1), none_]

theorem submit_governed (governs : t.descriptor = some d) (takes : m.poweredDown = false ∨ d.effect = .powerUp) :
    m.submit s t endTick = if m.busy ∧ d.effect ≠ .statusRead then { model := m, flags := [(.whileBusy, true)] }
      else (m.modeVerdict d t.modeByte).classEffect s d.effect t.bytes endTick := by
  have takes : ¬ (m.poweredDown = true ∧ t.descriptor.map (·.effect) ≠ some .powerUp) := by
    rintro ⟨down, other⟩
    rcases takes with up | up
    · rw [up] at down
      cases down
    · rw [governs, Option.map_some, up] at other
      exact other rfl
  unfold FlashModel.submit
  rw [if_neg takes, governs]

/-- R133: the mode verdict changes the continuation alone. -/
theorem modeVerdict_eq {v : FlashModel} (modeByte : Option Byte)
    (continues : ∀ b, modeByte = some b → d.hasMode = true → b.extractLsb' 4 4 = d.continueCode →
      v = { m with continuation := some d })
    (ends : modeByte = none ∨ d.hasMode = false ∨ (∃ b, modeByte = some b ∧ b.extractLsb' 4 4 ≠ d.continueCode) →
      v = { m with continuation := none }) : m.modeVerdict d modeByte = v := by
  unfold FlashModel.modeVerdict
  cases modeByte with
  | none => exact (ends (.inl rfl)).symm
  | some b =>
    dsimp only
    by_cases mode : d.hasMode = true
    · by_cases code : b.extractLsb' 4 4 = d.continueCode
      · rw [if_pos ⟨mode, code⟩, continues b rfl mode code]
      · rw [if_neg fun h => code h.2, ends (.inr (.inr ⟨b, rfl, code⟩))]
    · rw [if_neg fun h => mode h.1, ends (.inr (.inl (Bool.eq_false_iff.mpr mode)))]

theorem modeVerdict_enable (modeByte : Option Byte) : (m.modeVerdict d modeByte).enable = m.enable := by
  unfold FlashModel.modeVerdict
  split <;> rfl

/-! ## What the model answers (R131, R133 to R135) -/

/-- The flags and the busy duration that a transfer can get from the model. -/
def ModelEffect.answers (effect : ModelEffect) : Prop :=
  (effect.busyDuration = none ∧ (effect.flags = [] ∨ effect.flags = [(.ignoredPoweredDown, true)]
    ∨ effect.flags = [(.whileBusy, true)] ∨ effect.flags = [(.withoutEnable, true)]))
  ∨ effect.flags = [(.busyEnded, effect.busyDuration.isSome)]

theorem classEffect_answers (effect : EffectClass) (bytes : List (Byte × Nat)) :
    (m.classEffect s effect bytes endTick).answers := by
  cases effect with
  | statusRead => exact .inr rfl
  | programPage =>
    unfold FlashModel.classEffect
    dsimp only
    split
    · exact .inl ⟨rfl, .inl rfl⟩
    · exact .inl ⟨rfl, .inr (.inr (.inr rfl))⟩
  | modify =>
    unfold FlashModel.classEffect
    dsimp only
    split
    · exact .inl ⟨rfl, .inl rfl⟩
    · exact .inl ⟨rfl, .inr (.inr (.inr rfl))⟩
  | wrapSet => cases bytes <;> exact .inl ⟨rfl, .inl rfl⟩
  | _ => exact .inl ⟨rfl, .inl rfl⟩

theorem submit_answers : (m.submit s t endTick).answers := by
  unfold FlashModel.submit
  split
  · exact .inl ⟨rfl, .inr (.inl rfl)⟩
  · split
    · exact .inl ⟨rfl, .inl rfl⟩
    · split
      · exact .inl ⟨rfl, .inr (.inr (.inl rfl))⟩
      · exact classEffect_answers _ _

/-- R131: only a truncated transfer is flagged TRUNCATED; any other has what the model answers. -/
theorem apply_answers : (t.ending m.wide = .truncated ∧ (m.apply s t endTick).flags = [(.truncated, true)]
      ∧ (m.apply s t endTick).busyDuration = none)
    ∨ (t.ending m.wide ≠ .truncated ∧ (m.apply s t endTick).answers) := by
  cases ends : t.ending m.wide with
  | complete => exact .inr ⟨nofun, by rw [apply_complete ends]; exact submit_answers⟩
  | truncated => exact .inl ⟨rfl, by rw [apply_truncated ends], by rw [apply_truncated ends]⟩
  | undecided => exact .inr ⟨nofun, by rw [apply_undecided ends]; exact .inl ⟨rfl, .inl rfl⟩⟩

/-! ## Flags by their positions (R92) -/

/-- Table 6-10: the flags in the order of their positions. -/
def flagsInOrder : List RecordFlag :=
  [.noise, .framing, .parity, .afterGap, .truncated, .skew, .phase, .unknownOpcode, .elided, .withoutEnable, .whileBusy,
    .ignoredPoweredDown, .pageWrap, .wrappedRead, .lanesMissing, .busyEnded, .nakAddress, .nakData, .stretchExcess,
    .busStuck, .aborted, .clippedStart, .addressMark, .partialWord, .trimmed]

theorem flagsInOrder_position (f : RecordFlag) : flagsInOrder.getD f.position .noise = f := by
  cases f <;> rfl

theorem position_inj {f g : RecordFlag} (same : f.position = g.position) : f = g := by
  rw [← flagsInOrder_position f, same, flagsInOrder_position]

theorem flagWord_position (flags : List (RecordFlag × Bool)) (g : RecordFlag) :
    (flagWord flags).getLsbD g.position = true ↔ (g, true) ∈ flags := by
  rw [flagWord_getLsbD, List.any_eq_true]
  constructor
  · rintro ⟨⟨f, set⟩, inside, holds⟩
    obtain ⟨set, here⟩ := Bool.and_eq_true_iff.mp holds
    dsimp only at set here
    subst set
    rwa [← position_inj (of_decide_eq_true here)]
  · exact fun inside => ⟨_, inside, by rw [Bool.true_and]; exact decide_eq_true rfl⟩

/-! ## The FLASH_OP record (R137) -/

/-- R137: the flags of a FLASH_OP record. -/
def Transfer.recordFlags (t : Transfer) (s : FlashSettings) (m : FlashModel) (effect : ModelEffect) :
    List (RecordFlag × Bool) :=
  [(.elided, t.elided), (.unknownOpcode, t.unknown), (.lanesMissing, t.lanesMissing)] ++ effect.flags
    ++ ((t.endAddress s m.wrap).map (·.2)).getD []

section Record

variable {effect : ModelEffect} {ctx : CtxId}

theorem record_flag {k : Nat} (named : k ≠ 24) : (t.record s m effect ctx endTick).flags.getLsbD k
    = (flagWord (t.recordFlags s m effect)).getLsbD k :=
  recordOf_flag ctx .flashOp t.startTick endTick _ _ named

theorem record_flagged {g : RecordFlag} (named : g.position ≠ 24) :
    (t.record s m effect ctx endTick).flags.getLsbD g.position = true ↔ (g, true) ∈ t.recordFlags s m effect := by
  rw [record_flag named, flagWord_position]

theorem record_context : (t.record s m effect ctx endTick).context = ctx := by
  unfold Transfer.record
  dsimp only
  rw [recordOf_eq]

theorem record_kind : (t.record s m effect ctx endTick).kind = .flashOp := by
  unfold Transfer.record
  dsimp only
  rw [recordOf_eq]

theorem record_startTick : (t.record s m effect ctx endTick).startTick = t.startTick := by
  unfold Transfer.record
  dsimp only
  rw [recordOf_eq]

theorem record_endTick : (t.record s m effect ctx endTick).endTick = endTick := by
  unfold Transfer.record
  dsimp only
  rw [recordOf_eq]

theorem record_length : (t.record s m effect ctx endTick).length = min t.bytes.length 65535 := by
  unfold Transfer.record
  dsimp only
  rw [recordOf_eq]
  dsimp only
  rw [List.length_map]

theorem record_head : (t.record s m effect ctx endTick).head = (t.bytes.take 4).map (·.1) := by
  unfold Transfer.record
  dsimp only
  rw [recordOf_eq]
  exact List.map_take.symm

theorem record_trimmed : (t.record s m effect ctx endTick).flags.getLsbD 24 = true
    ↔ 65535 < t.bytes.length ∨ (.trimmed, true) ∈ t.recordFlags s m effect := by
  unfold Transfer.record
  dsimp only
  rw [recordOf_eq]
  dsimp only
  rw [List.length_map]
  split
  · rename_i long
    simp [long]
  · rename_i short
    rw [or_iff_right short]
    exact flagWord_position _ .trimmed

theorem recordFlags_mem {f : RecordFlag × Bool} : f ∈ t.recordFlags s m effect
    ↔ f = (.elided, t.elided) ∨ f = (.unknownOpcode, t.unknown) ∨ f = (.lanesMissing, t.lanesMissing)
      ∨ f ∈ effect.flags ∨ f ∈ ((t.endAddress s m.wrap).map (·.2)).getD [] := by
  unfold Transfer.recordFlags
  rw [List.append_assoc, List.mem_append, List.mem_append, List.mem_cons, List.mem_cons, List.mem_singleton]
  simp only [or_assoc]

end Record

/-- R131, R133 to R135: the flags that the model gives a transfer. -/
theorem apply_flag {f : RecordFlag × Bool} (inside : f ∈ (m.apply s t endTick).flags) :
    (f = (.truncated, true) ∧ t.ending m.wide = .truncated) ∨ f = (.ignoredPoweredDown, true) ∨ f = (.whileBusy, true)
      ∨ f = (.withoutEnable, true) ∨ f = (.busyEnded, (m.apply s t endTick).busyDuration.isSome) := by
  rcases apply_answers (m := m) (s := s) (t := t) (endTick := endTick) with
    ⟨ends, flags, _⟩ | ⟨_, ⟨_, flags | flags | flags | flags⟩ | flags⟩
  · rw [flags, List.mem_singleton] at inside
    exact .inl ⟨inside, ends⟩
  · rw [flags] at inside
    cases inside
  · rw [flags, List.mem_singleton] at inside
    exact .inr (.inl inside)
  · rw [flags, List.mem_singleton] at inside
    exact .inr (.inr (.inl inside))
  · rw [flags, List.mem_singleton] at inside
    exact .inr (.inr (.inr (.inl inside)))
  · rw [flags, List.mem_singleton] at inside
    exact .inr (.inr (.inr (.inr inside)))

/-- R135: a busy duration is reported with BUSY_ENDED. -/
theorem apply_busyEnded : (.busyEnded, true) ∈ (m.apply s t endTick).flags
    ↔ (m.apply s t endTick).busyDuration ≠ none := by
  rw [Option.ne_none_iff_isSome]
  rcases apply_answers (m := m) (s := s) (t := t) (endTick := endTick) with
    ⟨_, flags, none_⟩ | ⟨_, ⟨none_, flags | flags | flags | flags⟩ | flags⟩
  · simp [flags, none_]
  · simp [flags, none_]
  · simp [flags, none_]
  · simp [flags, none_]
  · simp [flags, none_]
  · simp [flags]

/-! ## The end address (R136) -/

theorem endAddress_none (wrap : Option Nat) (none_ : t.bytes = [] ∨ t.address = none ∨ t.descriptor = none) :
    t.endAddress s wrap = none := by
  unfold Transfer.endAddress
  split
  · rename_i d a governs address
    rcases none_ with empty | none_ | none_
    · exact if_pos empty
    · rw [address] at none_
      cases none_
    · rw [governs] at none_
      cases none_
  · rfl

theorem endAddress_some {a : Nat} (wrap : Option Nat) (governs : t.descriptor = some d) (address : t.address = some a)
    (some_ : t.bytes.length ≠ 0) : t.endAddress s wrap = some (endAddressOf s wrap d a t.bytes.length) := by
  unfold Transfer.endAddress
  rw [governs, address]
  exact if_neg fun empty => some_ (List.length_eq_zero_iff.mpr empty)

theorem endAddressOf_read {wrap : Option Nat} {w : Nat} (a n : Nat) (read : d.effect = .read) (wraps : wrap = some w) :
    endAddressOf s wrap d a n = (wrappedEnd a n w, [(.wrappedRead, decide (w < a % w + n))]) := by
  unfold endAddressOf
  rw [read, wraps]

theorem endAddressOf_program (wrap : Option Nat) (a n : Nat) (program : d.effect = .programPage) :
    endAddressOf s wrap d a n = (wrappedEnd a n (2 ^ s.pageExponent),
      [(.pageWrap, decide (2 ^ s.pageExponent < a % 2 ^ s.pageExponent + n))]) := by
  unfold endAddressOf
  rw [program]

theorem endAddressOf_plain {wrap : Option Nat} (a n : Nat)
    (plain : (d.effect = .read ∧ wrap = none) ∨ (d.effect ≠ .read ∧ d.effect ≠ .programPage)) :
    endAddressOf s wrap d a n = ((a + n - 1) % 2 ^ (8 * d.addressBytes), []) := by
  unfold endAddressOf
  rcases plain with ⟨read, none_⟩ | ⟨other, another⟩
  · rw [read, none_]
  · split
    · rename_i read
      exact absurd read other
    · rename_i program
      exact absurd program another
    · rfl

theorem endAddressOf_flag {wrap : Option Nat} {a n : Nat} {f : RecordFlag × Bool}
    (inside : f ∈ (endAddressOf s wrap d a n).2) : f.1 = .pageWrap ∨ f.1 = .wrappedRead := by
  unfold endAddressOf at inside
  dsimp only at inside
  split at inside
  · rw [List.mem_singleton.mp inside]
    exact .inr rfl
  · rw [List.mem_singleton.mp inside]
    exact .inl rfl
  · cases inside

theorem endAddress_flag {wrap : Option Nat} {f : RecordFlag × Bool}
    (inside : f ∈ ((t.endAddress s wrap).map (·.2)).getD []) : f.1 = .pageWrap ∨ f.1 = .wrappedRead := by
  unfold Transfer.endAddress at inside
  split at inside
  · split at inside
    · cases inside
    · exact endAddressOf_flag inside
  · cases inside

/-! ## The flags of a FLASH_OP record (R137) -/

section Applied

variable {ctx : CtxId}

theorem applied_elided : (.elided, true) ∈ t.recordFlags s m (m.apply s t endTick) ↔ t.elided = true := by
  rw [recordFlags_mem]
  refine ⟨?_, fun set => .inl (by rw [set])⟩
  rintro (h | h | h | h | h)
  · exact (Prod.mk.inj h).2.symm
  · cases h
  · cases h
  · rcases apply_flag h with ⟨h, _⟩ | h | h | h | h <;> cases h
  · rcases endAddress_flag h with h | h <;> cases h

theorem applied_unknown : (.unknownOpcode, true) ∈ t.recordFlags s m (m.apply s t endTick) ↔ t.unknown = true := by
  rw [recordFlags_mem]
  refine ⟨?_, fun set => .inr (.inl (by rw [set]))⟩
  rintro (h | h | h | h | h)
  · cases h
  · exact (Prod.mk.inj h).2.symm
  · cases h
  · rcases apply_flag h with ⟨h, _⟩ | h | h | h | h <;> cases h
  · rcases endAddress_flag h with h | h <;> cases h

theorem applied_missing :
    (.lanesMissing, true) ∈ t.recordFlags s m (m.apply s t endTick) ↔ t.lanesMissing = true := by
  rw [recordFlags_mem]
  refine ⟨?_, fun set => .inr (.inr (.inl (by rw [set])))⟩
  rintro (h | h | h | h | h)
  · cases h
  · cases h
  · exact (Prod.mk.inj h).2.symm
  · rcases apply_flag h with ⟨h, _⟩ | h | h | h | h <;> cases h
  · rcases endAddress_flag h with h | h <;> cases h

/-- R137: the flags that the model gives a transfer stand in its record as they are. -/
theorem applied_effect {g : RecordFlag}
    (given : g = .truncated ∨ g = .withoutEnable ∨ g = .whileBusy ∨ g = .ignoredPoweredDown ∨ g = .busyEnded) :
    (g, true) ∈ t.recordFlags s m (m.apply s t endTick) ↔ (g, true) ∈ (m.apply s t endTick).flags := by
  rw [recordFlags_mem]
  refine ⟨?_, fun h => .inr (.inr (.inr (.inl h)))⟩
  rintro (h | h | h | h | h)
  · rw [(Prod.mk.inj h).1] at given
    simp at given
  · rw [(Prod.mk.inj h).1] at given
    simp at given
  · rw [(Prod.mk.inj h).1] at given
    simp at given
  · exact h
  · rcases endAddress_flag h with h | h
    · rw [show g = .pageWrap from h] at given
      simp at given
    · rw [show g = .wrappedRead from h] at given
      simp at given

theorem applied_truncated :
    (.truncated, true) ∈ t.recordFlags s m (m.apply s t endTick) ↔ t.ending m.wide = .truncated := by
  rw [applied_effect (.inl rfl)]
  constructor
  · intro h
    rcases apply_flag h with ⟨_, ends⟩ | h | h | h | h
    · exact ends
    all_goals cases h
  · intro ends
    rw [apply_truncated ends]
    exact List.mem_singleton_self _

/-- R136: the flags of the end address stand in the record as they are. -/
theorem applied_ending {g : RecordFlag} (given : g = .pageWrap ∨ g = .wrappedRead) :
    (g, true) ∈ t.recordFlags s m (m.apply s t endTick)
      ↔ (g, true) ∈ ((t.endAddress s m.wrap).map (·.2)).getD [] := by
  rw [recordFlags_mem]
  refine ⟨?_, fun h => .inr (.inr (.inr (.inr h)))⟩
  rintro (h | h | h | h | h)
  · rw [(Prod.mk.inj h).1] at given
    simp at given
  · rw [(Prod.mk.inj h).1] at given
    simp at given
  · rw [(Prod.mk.inj h).1] at given
    simp at given
  · rcases given with rfl | rfl
    · rcases apply_flag h with ⟨h, _⟩ | h | h | h | h <;> cases h
    · rcases apply_flag h with ⟨h, _⟩ | h | h | h | h <;> cases h
  · exact h

/-- Table 6-10: the positions of the flags that a FLASH_OP record can have. -/
theorem applied_position {f : RecordFlag × Bool} (inside : f ∈ t.recordFlags s m (m.apply s t endTick)) :
    f.1.position = 4 ∨ (7 ≤ f.1.position ∧ f.1.position ≤ 15) := by
  rcases recordFlags_mem.mp inside with rfl | rfl | rfl | h | h
  · simp [RecordFlag.position]
  · simp [RecordFlag.position]
  · simp [RecordFlag.position]
  · rcases apply_flag h with ⟨rfl, _⟩ | rfl | rfl | rfl | rfl <;> simp [RecordFlag.position]
  · rcases endAddress_flag h with h | h <;> (rw [h]; decide)

theorem applied_unflagged {k : Nat} (other : k < 4 ∨ k = 5 ∨ k = 6 ∨ (15 < k ∧ k ≠ 24)) :
    (t.record s m (m.apply s t endTick) ctx endTick).flags.getLsbD k = false := by
  rw [record_flag (by omega), flagWord_getLsbD, List.any_eq_false]
  intro f inside set
  have here := of_decide_eq_true (Bool.and_eq_true_iff.mp set).2
  have placed := applied_position inside
  omega

end Applied

end Sys2Proof.Machine
end

section
/-! PROOFS. The flash engine, sample by sample (R128 to R138, O54). -/

namespace Sys2Proof.Machine

variable {e : FlashEngine} {s : FlashSettings} {lanes : Lanes} {set : List Descriptor} {ctx : CtxId} {x : Reading}
  {t : Transfer} {wide : Bool} {d : Descriptor}

/-! ## Samples by the select -/

section Samples

variable {select : Chan} (bound : lanes.select = some select)

include bound

theorem flashSample_fresh (fresh : x.fresh = true) : e.sample s lanes set ctx x = ({ e with
    phase := if x.lines.getLsbD select.val then .waiting else .resync, selected := !x.lines.getLsbD select.val }, []) := by
  unfold FlashEngine.sample
  rw [value_bound bound]
  dsimp only
  rw [if_pos fresh]
  cases x.lines.getLsbD select.val <;> rfl

section Later

variable (later : x.fresh = false)

include later

theorem flashSample_idle (high : x.lines.getLsbD select.val = true) (was : e.selected = false) :
    e.sample s lanes set ctx x = (e, []) := by
  unfold FlashEngine.sample
  rw [value_bound bound, high, was, later]
  rfl

theorem flashSample_assert (low : x.lines.getLsbD select.val = false) (was : e.selected = false) :
    e.sample s lanes set ctx x
      = ({ e with phase := .transfer (e.model.newTransfer lanes x.stamp), selected := true }, []) := by
  unfold FlashEngine.sample
  rw [value_bound bound, low, was, later]
  rfl

theorem flashSample_deassert (high : x.lines.getLsbD select.val = true) (was : e.selected = true) :
    e.sample s lanes set ctx x
      = ({ (e.deassert s ctx x.stamp).1 with selected := false }, (e.deassert s ctx x.stamp).2) := by
  unfold FlashEngine.sample
  rw [value_bound bound, high, was, later]
  rfl

theorem flashSample_selected (low : x.lines.getLsbD select.val = false) (was : e.selected = true) :
    e.sample s lanes set ctx x = (e.takeClock lanes set x, []) := by
  unfold FlashEngine.sample
  rw [value_bound bound, low, was, later]
  rfl

end Later

end Samples

/-! ## Clocks and the deassertion, by the phase -/

theorem takeClock_keeps {clock : Chan} (bound : lanes.clock = some clock)
    (none_ : ¬ (x.changed.getLsbD clock.val = true ∧ x.lines.getLsbD clock.val = true) ∨ e.phase = .waiting
      ∨ e.phase = .resync) : e.takeClock lanes set x = e := by
  unfold FlashEngine.takeClock
  split
  · rename_i t phase
    rcases none_ with quiet | waits | resyncs
    · refine if_neg ?_
      rwa [changes_bound bound, value_bound bound, Bool.and_eq_true]
    · rw [phase] at waits
      cases waits
    · rw [phase] at resyncs
      cases resyncs
  · rfl
  · rfl

theorem takeClock_rises {clock : Chan} (bound : lanes.clock = some clock)
    (rises : x.changed.getLsbD clock.val = true ∧ x.lines.getLsbD clock.val = true) (phase : e.phase = .transfer t) :
    e.takeClock lanes set x = { e with phase := .transfer (t.clock e.model.wide lanes set x) } := by
  unfold FlashEngine.takeClock
  rw [phase]
  refine if_pos ?_
  rwa [changes_bound bound, value_bound bound, Bool.and_eq_true]

theorem deassert_empty {stamp : Nat} (empty : e.phase = .waiting ∨ e.phase = .resync
    ∨ ∃ t, e.phase = .transfer t ∧ t.total = 0) : e.deassert s ctx stamp = ({ e with phase := .waiting }, []) := by
  unfold FlashEngine.deassert
  rcases empty with phase | phase | ⟨t, phase, none_⟩
  · rw [phase]
  · rw [phase]
  · rw [phase]
    exact if_pos none_

theorem deassert_transfer {stamp : Nat} (phase : e.phase = .transfer t) (some_ : t.total ≠ 0) :
    e.deassert s ctx stamp = ({ e with phase := .waiting, model := (e.model.apply s t stamp).model },
      [.record (t.record s e.model (e.model.apply s t stamp) ctx stamp)]) := by
  unfold FlashEngine.deassert
  rw [phase]
  exact if_neg some_

/-! ## The clocks of one phase -/

/-- A phase ends with the clock that completes its units, and otherwise counts it. -/
theorem clock_ends {clocks last : Nat} {more next : Transfer} {whole : Prop} (split_ : clocks = last ↔ whole) :
    (¬ whole → (if clocks = last then next else more) = more) ∧ (whole → (if clocks = last then next else more) = next) :=
  ⟨fun short => if_neg fun h => short (split_.mp h), fun full => if_pos (split_.mpr full)⟩

section Clocks

variable {width : Nat} {bits : List Bool} (governs : t.descriptor = some d)
  (listed : width = 1 ∨ width = 2 ∨ width = 4)

include governs listed

theorem clock_addressed (phase : t.phase = .address) (width_ : width = d.addressWidth)
    (bits_ : t.nextBits wide lanes x = bits) {address : Option Nat}
    (address_ : (if t.lanesMissing then none else some (bitsMsb bits)) = address) :
    (width * (t.clocks + 1) < 8 * d.addressBytes → t.clock wide lanes set x = t.clocked bits)
    ∧ (width * (t.clocks + 1) = 8 * d.addressBytes → t.clock wide lanes set x
      = ({ t.clocked bits with address } : Transfer).enter wide lanes d.afterAddress) := by
  subst width_
  obtain ⟨more, ends⟩ := clock_ends (clocks_of_bytes listed (clocks := t.clocks + 1) (n := d.addressBytes))
    (more := t.clocked bits) (next := ({ t.clocked bits with address } : Transfer).enter wide lanes d.afterAddress)
  rw [clock_address phase governs, bits_, address_]
  exact ⟨fun short => more (Nat.ne_of_lt short), ends⟩

theorem clock_moded (phase : t.phase = .mode) (width_ : width = d.addressWidth)
    (bits_ : t.nextBits wide lanes x = bits) {modeByte : Option Byte}
    (modeByte_ : (if t.lanesMissing then none else some (byteOf bits)) = modeByte) :
    (width * (t.clocks + 1) < 8 → t.clock wide lanes set x = t.clocked bits)
    ∧ (width * (t.clocks + 1) = 8 → t.clock wide lanes set x
      = ({ t.clocked bits with modeByte } : Transfer).enter wide lanes d.afterMode) := by
  subst width_
  obtain ⟨more, ends⟩ := clock_ends (clocks_of_byte listed (clocks := t.clocks + 1)) (more := t.clocked bits)
    (next := ({ t.clocked bits with modeByte } : Transfer).enter wide lanes d.afterMode)
  rw [clock_mode phase governs, bits_, modeByte_]
  exact ⟨fun short => more (Nat.ne_of_lt short), ends⟩

theorem clock_datum (phase : t.phase = .data) (width_ : width = d.dataWidth) (bits_ : t.nextBits wide lanes x = bits)
    (known : t.lanesMissing = false) : t.clock wide lanes set x = { t.clocked bits with
      bits := if width * (t.clocks + 1) % 8 = 0 then [] else bits
      bytes := if width * (t.clocks + 1) % 8 = 0 then t.bytes ++ [(byteOf bits, x.stamp)] else t.bytes } := by
  subst width_
  rw [clock_data phase, governs, bits_, dataClock_known _ _ (by exact known)]
  simp only [← clocks_mod_byte listed]
  rfl

/-- Table 8-6: what a decoded phase reads with one clock. -/
theorem nextBits_decoded {d0 : Chan} {b : Bool} (bound : lanes.d0 = some d0) (b_ : b = x.lines.getLsbD d0.val)
    (known : t.lanesMissing = false) (width_ : laneWidthOf wide (some d) t.phase = width) :
    t.nextBits wide lanes x = t.bits ++ (if width = 4 then [x.value lanes.d3, x.value lanes.d2, x.value lanes.d1, b]
      else if width = 2 then [x.value lanes.d1, b]
      else if t.phase = .data ∧ d.direction = .fromTarget then [x.value lanes.d1] else [b]) := by
  have from_ : (t.phase == .data && t.descriptor.map (·.direction) == some .fromTarget) = true
      ↔ t.phase = .data ∧ d.direction = .fromTarget := by
    rw [governs, Bool.and_eq_true, beq_iff_eq, beq_iff_eq, Option.map_some, Option.some_inj]
  rw [nextBits_read (by rw [governs, width_]; exact Nat.pos_iff_ne_zero.mp (width_pos listed)) known, governs, width_,
    laneBits_eq bound b_]
  rw [governs] at from_
  simp only [from_]

end Clocks

/-! ## The record of a transfer (R136, R137) -/

theorem record_end_none {m : FlashModel} {stamp : Nat} (none_ : t.bytes = [] ∨ t.address = none ∨ t.descriptor = none) :
    (t.record s m (m.apply s t stamp) ctx stamp).endAddress = none
    ∧ (t.record s m (m.apply s t stamp) ctx stamp).flags.getLsbD 12 = false
    ∧ (t.record s m (m.apply s t stamp) ctx stamp).flags.getLsbD 13 = false := by
  have ending := endAddress_none (s := s) m.wrap none_
  refine ⟨by unfold Transfer.record; rw [ending]; rfl, ?_, ?_⟩
  · refine Bool.eq_false_iff.mpr fun h => ?_
    have inside := (applied_ending (.inl rfl)).mp ((record_flagged (g := .pageWrap) (by decide)).mp h)
    rw [ending] at inside
    cases inside
  · refine Bool.eq_false_iff.mpr fun h => ?_
    have inside := (applied_ending (.inr rfl)).mp ((record_flagged (g := .wrappedRead) (by decide)).mp h)
    rw [ending] at inside
    cases inside

section Ending

variable {m : FlashModel} {stamp a n : Nat} (address : t.address = some a) (governs : t.descriptor = some d)
  (length : t.bytes.length = n) (some_ : n ≠ 0)

include address governs length some_

theorem record_end_eq : (t.record s m (m.apply s t stamp) ctx stamp).endAddress = some (endAddressOf s m.wrap d a n).1 := by
  unfold Transfer.record
  rw [endAddress_some m.wrap governs address (by rw [length]; exact some_), length]
  rfl

theorem record_end_flag {g : RecordFlag} (given : g = .pageWrap ∨ g = .wrappedRead) :
    (t.record s m (m.apply s t stamp) ctx stamp).flags.getLsbD g.position = true
      ↔ (g, true) ∈ (endAddressOf s m.wrap d a n).2 := by
  have named : g.position ≠ 24 := by rcases given with rfl | rfl <;> decide
  rw [record_flagged named, applied_ending given, endAddress_some m.wrap governs address (by rw [length]; exact some_), length]
  rfl

/-- R136: the end address of a transfer with an address and data bytes, by its class. -/
theorem record_ends : (∀ w, d.effect = .read → m.wrap = some w →
      (t.record s m (m.apply s t stamp) ctx stamp).endAddress = some (a - a % w + (a % w + n - 1) % w)
      ∧ ((t.record s m (m.apply s t stamp) ctx stamp).flags.getLsbD 13 = true ↔ w < a % w + n))
    ∧ (d.effect = .programPage → (t.record s m (m.apply s t stamp) ctx stamp).endAddress
        = some (a - a % 2 ^ s.pageExponent + (a % 2 ^ s.pageExponent + n - 1) % 2 ^ s.pageExponent)
      ∧ ((t.record s m (m.apply s t stamp) ctx stamp).flags.getLsbD 12 = true
        ↔ 2 ^ s.pageExponent < a % 2 ^ s.pageExponent + n))
    ∧ ((d.effect = .read ∧ m.wrap = none) ∨ (d.effect ≠ .read ∧ d.effect ≠ .programPage) →
      (t.record s m (m.apply s t stamp) ctx stamp).endAddress = some ((a + n - 1) % 2 ^ (8 * d.addressBytes))) := by
  have ends := record_end_eq (s := s) (ctx := ctx) (m := m) (stamp := stamp) address governs length some_
  have paged := record_end_flag (s := s) (ctx := ctx) (m := m) (stamp := stamp) address governs length some_
    (g := .pageWrap) (.inl rfl)
  have wrapped := record_end_flag (s := s) (ctx := ctx) (m := m) (stamp := stamp) address governs length some_
    (g := .wrappedRead) (.inr rfl)
  refine ⟨fun w read wraps => ?_, fun program => ?_, fun plain => ?_⟩
  · rw [endAddressOf_read a n read wraps] at ends wrapped
    refine ⟨ends, wrapped.trans ?_⟩
    simp
  · rw [endAddressOf_program m.wrap a n program] at ends paged
    refine ⟨ends, paged.trans ?_⟩
    simp
  · rw [endAddressOf_plain a n plain] at ends
    exact ends

end Ending

/-- R135: one status byte, then the rest. -/
theorem statusRead_cons {m : FlashModel} (b : Byte) (tick : Nat) (rest : List (Byte × Nat)) (fixed : Option Nat) :
    m.statusRead s ((b, tick) :: rest) fixed = ({ m with
        enable := b.getLsbD s.enableBit, busy := b.getLsbD s.busyBit, lastStatus := some b
        busySince := if m.busy = false ∧ b.getLsbD s.busyBit = true then tick else m.busySince } : FlashModel).statusRead
      s rest (if m.busy = true ∧ b.getLsbD s.busyBit = false then some (fixed.getD (tick - m.busySince)) else fixed) := by
  rw [FlashModel.statusRead]
  unfold FlashModel.statusByte
  cases m.busy <;> cases b.getLsbD s.busyBit <;> rfl

/-- Settles O54. -/
theorem flashEngineFollowsItsRules : Obligations.FlashEngineFollowsItsRules := by
  refine ⟨fun e s lanes set ctx x clock select clock_ select_ => ?_,
    fun t wide lanes set x d0 b d0_ b_ => ?_, fun m s t endTick => ⟨apply_truncated, apply_undecided, fun ends => ?_, rfl,
      statusRead_cons⟩⟩
  · refine ⟨fun fresh low => ?_, fun fresh high => ?_, flashSample_idle select_, fun later low was => ?_,
      fun later low was => ⟨fun none_ => ?_, fun t rises phase => ?_⟩,
      fun later high was => ⟨fun empty => ?_, fun t phase some_ => ?_⟩⟩
    · rw [flashSample_fresh select_ fresh, low]
      rfl
    · rw [flashSample_fresh select_ fresh, high]
      rfl
    · refine ⟨e.model.newTransfer lanes x.stamp, flashSample_assert select_ later low was, ?_⟩
      cases continues : e.model.continuation with
      | none =>
        rw [newTransfer_fresh x.stamp continues]
        refine ⟨rfl, rfl, rfl, rfl, rfl, rfl, rfl, rfl, fun _ => ⟨rfl, rfl, rfl, rfl, ?_⟩, nofun⟩
        rw [enter_missing_of rfl]
        exact and_congr_left' (by cases e.model.wide <;> simp [laneWidthOf])
      | some d =>
        rw [newTransfer_armed x.stamp continues]
        refine ⟨rfl, rfl, rfl, rfl, rfl, rfl, rfl, rfl, nofun, fun d' same => ?_⟩
        cases same
        refine ⟨rfl, rfl, rfl, afterCommand_eq d, ?_⟩
        rw [enter_missing_of rfl]
        exact and_congr_left' (laneWidth_four (afterCommand_ne d))
    · rw [flashSample_selected select_ later low was, takeClock_keeps clock_ none_]
    · rw [flashSample_selected select_ later low was, takeClock_rises clock_ rises phase]
    · rw [flashSample_deassert select_ later high was, deassert_empty empty]
    · refine ⟨e.model.apply s t x.stamp, t.record s e.model (e.model.apply s t x.stamp) ctx x.stamp, rfl, ?_,
        record_context, record_kind, record_startTick, record_endTick, rfl, rfl, rfl, rfl, rfl, record_length, record_head,
        (record_flagged (g := .elided) (by decide)).trans applied_elided,
        (record_flagged (g := .unknownOpcode) (by decide)).trans applied_unknown,
        (record_flagged (g := .lanesMissing) (by decide)).trans applied_missing,
        (record_flagged (g := .truncated) (by decide)).trans applied_truncated,
        (record_flagged (g := .withoutEnable) (by decide)).trans (applied_effect (.inr (.inl rfl))),
        (record_flagged (g := .whileBusy) (by decide)).trans (applied_effect (.inr (.inr (.inl rfl)))),
        (record_flagged (g := .ignoredPoweredDown) (by decide)).trans (applied_effect (.inr (.inr (.inr (.inl rfl))))),
        (record_flagged (g := .busyEnded) (by decide)).trans
          ((applied_effect (.inr (.inr (.inr (.inr rfl))))).trans apply_busyEnded),
        fun k _ other => applied_unflagged other, ?_, record_end_none,
        fun a n d address governs length some_ => record_ends address governs length some_⟩
      · rw [flashSample_deassert select_ later high was, deassert_transfer phase some_]
      · rw [record_trimmed]
        refine or_iff_left fun inside => ?_
        have placed := applied_position inside
        simp [RecordFlag.position] at placed
  · refine ⟨fun clocks bits phase known widths => ?_, fun phase wide_ missing => ?_,
      fun d width governs missing width_ listed => ⟨fun phase => ?_, fun phase => ?_, fun phase => ?_⟩,
      fun d width bits governs known width_ listed bits_ => ⟨fun phase => ?_, fun phase => ?_, fun phase => ?_⟩,
      fun d phase governs => ?_, fun phase => clock_idle phase, fun phase known => ?_, ending_complete, ending_truncated,
      ending_undecided⟩
    · have byte : clocksPerByte (if wide then 4 else 1) = clocks ∧ t.nextBits wide lanes x = bits := by
        have width_ : laneWidthOf wide t.descriptor t.phase = if wide then 4 else 1 := by rw [phase]; rfl
        have read := nextBits_read (t := t) (wide := wide) (lanes := lanes) (x := x)
          (by rw [width_]; cases wide <;> decide) known
        rw [width_, phase, laneBits_eq d0_ b_] at read
        rcases widths with ⟨rfl, rfl, rfl⟩ | ⟨rfl, rfl, rfl⟩
        · exact ⟨rfl, read⟩
        · exact ⟨rfl, read⟩
      obtain ⟨byte, read⟩ := byte
      rw [clock_command phase, byte, read]
      refine ⟨fun short => if_neg (Nat.ne_of_lt short), fun opcode full whole opcode_ => ⟨fun unknown => ?_,
        fun d before after split_ here first => ?_⟩⟩
      · rw [if_pos full, commandDone_unknown (t := t.clocked bits) known (byteOf_eq whole opcode_) unknown]
        rfl
      · refine ⟨(({ t.clocked bits with opcode := some opcode, descriptor := some d } : Transfer).enter wide lanes
          d.afterCommand).lanesMissing, d.afterCommand, ?_, afterCommand_eq d, ?_⟩
        · rw [if_pos full, commandDone_known (t := t.clocked bits) known (byteOf_eq whole opcode_) split_ here first,
            enter_eq]
          rfl
        · rw [enter_missing_of (t := { t.clocked bits with opcode := some opcode, descriptor := some d }) known]
          exact and_congr_left' (laneWidth_four (afterCommand_ne d))
    · rw [clock_command phase, nextBits_missing missing, wide_,
        show clocksPerByte (if true = true then 4 else 1) = 2 from rfl]
      refine ⟨fun short => if_neg (Nat.ne_of_lt short), fun full => ?_⟩
      rw [if_pos full, commandDone_missing (t := t.clocked t.bits) missing]
      rfl
    · rw [phase] at width_
      obtain ⟨more, done⟩ := clock_addressed (wide := wide) (lanes := lanes) (set := set) (x := x) governs listed phase
        width_ (nextBits_missing missing) (if_pos missing)
      refine ⟨more, fun full => ?_⟩
      rw [done full, enter_of_missing (by exact missing), afterAddress_eq]
      rfl
    · rw [phase] at width_
      obtain ⟨more, done⟩ := clock_moded (wide := wide) (lanes := lanes) (set := set) (x := x) governs listed phase
        width_ (nextBits_missing missing) (if_pos missing)
      refine ⟨more, fun full => ?_⟩
      rw [done full, enter_of_missing (by exact missing), afterMode_eq]
      rfl
    · rw [if_pos phase] at width_
      refine ⟨if (t.clocks + 1) % clocksPerByte (laneWidthOf wide t.descriptor .data) = 0 then [] else t.bits, ?_⟩
      rw [clock_data phase, nextBits_missing missing, dataClock_missing _ _ (by exact missing)]
      rfl
    · rw [phase] at width_
      have read := nextBits_decoded (wide := wide) governs listed d0_ b_ known (by rw [phase]; exact width_.symm)
      obtain ⟨more, done⟩ := clock_addressed (wide := wide) (lanes := lanes) (set := set) (x := x) governs listed phase
        width_ (read.trans bits_.symm) (if_neg (by rw [known]; decide))
      refine ⟨more, fun full => ⟨_, (({ t.clocked bits with address := some (bitsMsb bits) } : Transfer).enter wide lanes
        d.afterAddress).lanesMissing, ?_, afterAddress_eq d, ?_⟩⟩
      · rw [done full, enter_eq]
        rfl
      · rw [enter_missing_of (by exact known)]
        refine and_congr_left' ?_
        rw [show ({ t.clocked bits with address := some (bitsMsb bits) } : Transfer).descriptor = some d from governs]
        exact laneWidth_afterAddress d
    · rw [phase] at width_
      have read := nextBits_decoded (wide := wide) governs listed d0_ b_ known (by rw [phase]; exact width_.symm)
      obtain ⟨more, done⟩ := clock_moded (wide := wide) (lanes := lanes) (set := set) (x := x) governs listed phase
        width_ (read.trans bits_.symm) (if_neg (by rw [known]; decide))
      refine ⟨more, fun full => ⟨_, (({ t.clocked bits with modeByte := some (byteOf bits) } : Transfer).enter wide lanes
        d.afterMode).lanesMissing, ?_, afterMode_eq d, ?_⟩⟩
      · rw [done full, enter_eq]
        rfl
      · rw [enter_missing_of (by exact known),
          show ({ t.clocked bits with modeByte := some (byteOf bits) } : Transfer).descriptor = some d from governs,
          laneWidth_afterMode, and_assoc]
    · rw [if_pos phase] at width_
      have read := nextBits_decoded (wide := wide) governs listed d0_ b_ known (by rw [phase]; exact width_.symm)
      rw [clock_datum governs listed phase width_ (read.trans bits_.symm) known]
      rfl
    · rw [clock_dummy phase governs]
      refine ⟨fun short => if_neg (Nat.ne_of_lt short), fun full =>
        ⟨((t.clocked t.bits).enter wide lanes d.afterDummy).lanesMissing, ?_, ?_⟩⟩
      · rw [if_pos full, enter_eq]
        rfl
      · rw [enter_missing, show (t.clocked t.bits).descriptor = some d from governs, laneWidth_afterDummy, and_assoc]
        rfl
    · have read : t.nextBits wide lanes x = t.bits ++ [b] := by
        rw [nextBits_read (by rw [phase]; exact Nat.one_ne_zero) known, phase, laneBits_eq d0_ b_]
        rfl
      rw [clock_generic phase, read, dataClock_known _ _ (by exact known)]
      rfl
  · rw [apply_complete ends]
    refine ⟨submit_poweredDown, submit_generic, fun d governs takes => ?_⟩
    rw [submit_governed governs takes]
    refine ⟨fun busy other => if_pos ⟨busy, other⟩, fun v free continues stops => ?_⟩
    have verdict := modeVerdict_eq t.modeByte continues stops
    have enable : v.enable = m.enable := by rw [← verdict, modeVerdict_enable]
    rw [if_neg (fun h => free.elim (fun idle => by rw [idle] at h; cases h.1) h.2), verdict]
    refine ⟨fun h => ?_, fun h => ?_, fun h => ?_, fun h none_ => ?_, fun b rest h some_ => ?_, fun h => ?_, fun h => ?_,
      fun h => ?_, fun h => ?_, fun h => ?_, fun h => ?_⟩
    · rw [h]
      rfl
    · rw [h]
      rfl
    · rw [← enable]
      rcases h with h | h
      · rw [h]
        rfl
      · rw [h]
        rfl
    · rw [h, none_]
      rfl
    · rw [h, some_]
      rfl
    · rw [h]
      rfl
    · rw [h]
      rfl
    · rw [h]
      rfl
    · rw [h]
      rfl
    · rcases h with h | h
      · rw [h]
        rfl
      · rw [h]
        rfl
    · rw [h]
      rfl

end Sys2Proof.Machine
end

section
/-! PROOFS. Cells and labels of the display engine (R48, R172 to R174). -/

namespace Sys2Proof.Machine

variable {entries rest : List ReadEntry} {e : ReadEntry} {horizon tick u lo hi : Nat} {state before base : Lines} {p : Piece}
  {ch : Chan}

/-! ## Entries in order, and the state they set (R48) -/

/-- The entries that set a state lie between a tick and a horizon, in the order of their ticks. -/
def ordered (tick horizon : Nat) (entries : List ReadEntry) : Prop :=
  (∀ e ∈ entries, e.setsState → tick < e.tick ∧ e.tick ≤ horizon)
    ∧ entries.Pairwise (fun e f => e.setsState → f.setsState → e.tick < f.tick)

theorem ordered.tail (h : ordered tick horizon (e :: rest)) : ordered tick horizon rest :=
  ⟨fun f hf => h.1 f (List.mem_cons_of_mem e hf), (List.pairwise_cons.mp h.2).2⟩

theorem ordered.head (h : ordered tick horizon (e :: rest)) (sets : e.setsState) : tick < e.tick ∧ e.tick ≤ horizon :=
  h.1 e List.mem_cons_self sets

/-- After an entry that sets a state, the later ones follow its tick. -/
theorem ordered.after (h : ordered tick horizon (e :: rest)) (sets : e.setsState) : ordered e.tick horizon rest :=
  ⟨fun f hf sets' => ⟨(List.pairwise_cons.mp h.2).1 f hf sets sets', (h.tail.1 f hf sets').2⟩, h.tail.2⟩

theorem stateInForce_set (sets : e.setsState) (passed : e.tick ≤ u) :
    stateInForce base (e :: rest) u = stateInForce e.state rest u := by
  unfold stateInForce
  rw [List.filter_cons_of_pos (by exact decide_eq_true ⟨sets, passed⟩), List.getLast?_cons]
  cases (rest.filter fun e => decide ((e.kind = .change ∨ e.kind = .dropout) ∧ e.tick ≤ u)).getLast? <;> rfl

theorem stateInForce_skip (skips : ¬ e.setsState) : stateInForce base (e :: rest) u = stateInForce base rest u := by
  unfold stateInForce
  rw [List.filter_cons_of_neg (by rw [decide_eq_true_eq]; exact fun h => skips h.1)]

theorem stateInForce_early (early : ∀ f ∈ entries, f.setsState → u < f.tick) : stateInForce base entries u = base := by
  unfold stateInForce
  rw [List.filter_eq_nil_iff.mpr fun f hf => by
    rw [decide_eq_true_eq]
    exact fun h => Nat.not_le.mpr (early f hf h.1) h.2]
  rfl

theorem ordered.early (h : ordered tick horizon entries) (early : u ≤ tick) : stateInForce base entries u = base :=
  stateInForce_early fun f hf sets => Nat.lt_of_le_of_lt early (h.1 f hf sets).1

/-! ## Dropout intervals (R48, R53) -/

theorem inDropout_skip (skips : ¬ e.setsState) : inDropout tick (e :: rest) u ↔ inDropout tick rest u := by
  unfold inDropout
  refine and_congr_right fun _ => ⟨?_, ?_⟩
  · rintro ⟨d, mem, dropout, later, none_⟩
    rcases List.mem_cons.mp mem with rfl | mem
    · exact absurd (.inr dropout) skips
    · exact ⟨d, mem, dropout, later, fun f hf => none_ f (List.mem_cons_of_mem e hf)⟩
  · rintro ⟨d, mem, dropout, later, none_⟩
    refine ⟨d, List.mem_cons_of_mem e mem, dropout, later, fun f hf sets => ?_⟩
    rcases List.mem_cons.mp hf with rfl | hf
    · exact absurd sets skips
    · exact none_ f hf sets

/-- From an entry's tick on, what lies in a dropout is what lies in one after it. -/
theorem inDropout_passed (h : ordered tick horizon (e :: rest)) (sets : e.setsState) (passed : e.tick ≤ u) :
    inDropout tick (e :: rest) u ↔ inDropout e.tick rest u := by
  have here := (h.head sets).1
  constructor
  · rintro ⟨_, d, mem, dropout, later, none_⟩
    rcases List.mem_cons.mp mem with rfl | mem
    · exact absurd passed (Nat.not_le.mpr later)
    · exact ⟨none_ e List.mem_cons_self sets (Nat.lt_of_le_of_lt passed later), d, mem, dropout, later,
        fun f hf => none_ f (List.mem_cons_of_mem e hf)⟩
  · rintro ⟨past, d, mem, dropout, later, none_⟩
    refine ⟨Nat.lt_trans here past, d, List.mem_cons_of_mem e mem, dropout, later, fun f hf sets' before => ?_⟩
    rcases List.mem_cons.mp hf with rfl | hf
    · exact past
    · exact none_ f hf sets' before

/-- Before an entry that sets a state, only the interval of a DROPOUT, past the tick it begins with, is one. -/
theorem inDropout_before (h : ordered tick horizon (e :: rest)) (sets : e.setsState) (early : u < e.tick) :
    inDropout tick (e :: rest) u ↔ e.kind = .dropout ∧ tick < u := by
  constructor
  · rintro ⟨past, d, mem, dropout, later, none_⟩
    rcases List.mem_cons.mp mem with rfl | mem
    · exact ⟨dropout, past⟩
    · have after := ((h.after sets).1 d mem (.inr dropout)).1
      exact absurd (none_ e List.mem_cons_self sets after) (Nat.not_lt.mpr (Nat.le_of_lt early))
  · rintro ⟨dropout, past⟩
    refine ⟨past, e, List.mem_cons_self, dropout, early, fun f hf sets' before => ?_⟩
    rcases List.mem_cons.mp hf with rfl | hf
    · exact absurd before (Nat.lt_irrefl _)
    · exact absurd ((h.after sets).1 f hf sets').1 (Nat.not_lt.mpr (Nat.le_of_lt before))

/-! ## The known pieces (R48, R172) -/

/-- The last tick of the piece that an entry ends. -/
def ReadEntry.endsPiece (e : ReadEntry) (tick : Nat) : Nat := if e.kind = .dropout then tick else e.tick - 1

theorem knownPieces_skip (skips : ¬ e.setsState) :
    knownPieces horizon tick state before (e :: rest) = knownPieces horizon tick state before rest := by
  unfold ReadEntry.setsState at skips
  rw [knownPieces]
  split
  · rfl
  · rfl
  · exact absurd (.inl ‹_›) skips
  · exact absurd (.inr ‹_›) skips

theorem knownPieces_set (sets : e.setsState) : knownPieces horizon tick state before (e :: rest)
    = ⟨tick, e.endsPiece tick, state, before⟩ :: knownPieces horizon e.tick e.state state rest := by
  unfold ReadEntry.endsPiece
  rw [knownPieces]
  rcases sets with kind | kind
  · rw [kind]
    rfl
  · rw [kind]
    rfl

theorem knownPieces_first (h : ordered tick horizon entries) (mem : p ∈ knownPieces horizon tick state before entries) :
    tick ≤ p.first := by
  induction entries generalizing tick state before with
  | nil =>
    rw [List.mem_singleton.mp mem]
  | cons e rest ih =>
    by_cases sets : e.setsState
    · rw [knownPieces_set sets] at mem
      rcases List.mem_cons.mp mem with rfl | mem
      · exact Nat.le_refl _
      · exact Nat.le_trans (Nat.le_of_lt (h.head sets).1) (ih (h.after sets) mem)
    · rw [knownPieces_skip sets] at mem
      exact ih h.tail mem

/-- R48: a tick is known exactly outside the dropout intervals. -/
theorem knownPieces_covers (h : ordered tick horizon entries) (from_ : tick ≤ u) (within : u ≤ horizon) :
    (∃ p ∈ knownPieces horizon tick state before entries, p.first ≤ u ∧ u ≤ p.last) ↔ ¬ inDropout tick entries u := by
  induction entries generalizing tick state before with
  | nil =>
    refine ⟨fun _ => ?_, fun _ => ⟨⟨tick, horizon, state, before⟩, List.mem_singleton_self _, from_, within⟩⟩
    rintro ⟨_, d, mem, _⟩
    cases mem
  | cons e rest ih =>
    by_cases sets : e.setsState
    · rw [knownPieces_set sets]
      have ⟨here, _⟩ := h.head sets
      by_cases passed : e.tick ≤ u
      · rw [inDropout_passed h sets passed, ← ih (h.after sets) passed (state := e.state) (before := state)]
        refine ⟨?_, fun ⟨p, mem, covers⟩ => ⟨p, List.mem_cons_of_mem _ mem, covers⟩⟩
        rintro ⟨p, mem, covers⟩
        rcases List.mem_cons.mp mem with rfl | mem
        · have last : u ≤ e.endsPiece tick := covers.2
          unfold ReadEntry.endsPiece at last
          split at last <;> omega
        · exact ⟨p, mem, covers⟩
      · have early := Nat.not_le.mp passed
        rw [inDropout_before h sets early]
        constructor
        · rintro ⟨p, mem, first, last⟩ ⟨dropout, past⟩
          rcases List.mem_cons.mp mem with rfl | mem
          · unfold ReadEntry.endsPiece at last
            rw [if_pos dropout] at last
            exact Nat.not_le.mpr past last
          · exact passed (Nat.le_trans (knownPieces_first (h.after sets) mem) first)
        · intro known
          refine ⟨_, List.mem_cons_self, from_, ?_⟩
          show u ≤ e.endsPiece tick
          unfold ReadEntry.endsPiece
          split
          · rename_i dropout
            exact Nat.not_lt.mp fun past => known ⟨dropout, past⟩
          · omega
    · rw [knownPieces_skip sets, inDropout_skip sets]
      exact ih h.tail from_

/-- R48: over a known piece the state in force is the piece's. -/
theorem knownPieces_state (h : ordered tick horizon entries) (mem : p ∈ knownPieces horizon tick state before entries)
    (first : p.first ≤ u) (last : u ≤ p.last) : p.state = stateInForce state entries u := by
  induction entries generalizing tick state before with
  | nil =>
    rw [List.mem_singleton.mp mem]
    rfl
  | cons e rest ih =>
    by_cases sets : e.setsState
    · rw [knownPieces_set sets] at mem
      rcases List.mem_cons.mp mem with rfl | mem
      · have ⟨here, _⟩ := h.head sets
        have early : u < e.tick := by
          have last : u ≤ e.endsPiece tick := last
          unfold ReadEntry.endsPiece at last
          split at last <;> omega
        refine (stateInForce_early fun f hf sets' => ?_).symm
        rcases List.mem_cons.mp hf with rfl | hf
        · exact early
        · exact Nat.lt_trans early ((h.after sets).1 f hf sets').1
      · rw [stateInForce_set sets (Nat.le_trans (knownPieces_first (h.after sets) mem) first)]
        exact ih (h.after sets) mem
    · rw [knownPieces_skip sets] at mem
      rw [stateInForce_skip sets]
      exact ih h.tail mem

/-- R48: each piece begins with the first tick or with an entry that sets its state. -/
theorem knownPieces_begins (h : ordered tick horizon entries) (mem : p ∈ knownPieces horizon tick state before entries) :
    (p.first = tick ∧ p.state = state ∧ p.before = before)
    ∨ ∃ earlier e after, entries = earlier ++ e :: after ∧ e.setsState ∧ p.first = e.tick ∧ p.state = e.state
      ∧ p.before = stateInForce state earlier e.tick := by
  induction entries generalizing tick state before with
  | nil =>
    rw [List.mem_singleton.mp mem]
    exact .inl ⟨rfl, rfl, rfl⟩
  | cons e rest ih =>
    by_cases sets : e.setsState
    · rw [knownPieces_set sets] at mem
      rcases List.mem_cons.mp mem with rfl | mem
      · exact .inl ⟨rfl, rfl, rfl⟩
      · rcases ih (h.after sets) mem with ⟨first, same, was⟩ | ⟨earlier, f, after, split_, sets', begins, same, was⟩
        · exact .inr ⟨[], e, rest, rfl, sets, first, same, was⟩
        · have follows : e.tick ≤ f.tick := Nat.le_of_lt ((h.after sets).1 f (by rw [split_]; simp) sets').1
          exact .inr ⟨e :: earlier, f, after, by rw [split_]; rfl, sets', begins, same,
            was.trans (stateInForce_set sets follows).symm⟩
    · rw [knownPieces_skip sets] at mem
      rcases ih h.tail mem with first | ⟨earlier, f, after, split_, sets', begins, same, was⟩
      · exact .inl first
      · exact .inr ⟨e :: earlier, f, after, by rw [split_]; rfl, sets', begins, same,
          was.trans (stateInForce_skip sets).symm⟩

theorem knownPieces_head (h : ordered tick horizon entries) (below : tick ≤ horizon) :
    ∃ p ∈ knownPieces horizon tick state before entries,
      p.first = tick ∧ tick ≤ p.last ∧ p.state = state ∧ p.before = before := by
  induction entries with
  | nil => exact ⟨_, List.mem_singleton_self _, rfl, below, rfl, rfl⟩
  | cons e rest ih =>
    by_cases sets : e.setsState
    · rw [knownPieces_set sets]
      refine ⟨_, List.mem_cons_self, rfl, ?_, rfl, rfl⟩
      have ⟨here, _⟩ := h.head sets
      show tick ≤ e.endsPiece tick
      unfold ReadEntry.endsPiece
      split <;> omega
    · rw [knownPieces_skip sets]
      exact ih h.tail

/-- R48: an entry that sets a state begins a piece. -/
theorem knownPieces_begun {earlier after : List ReadEntry} (h : ordered tick horizon (earlier ++ e :: after))
    (sets : e.setsState) : ∃ p ∈ knownPieces horizon tick state before (earlier ++ e :: after),
      p.first = e.tick ∧ e.tick ≤ p.last ∧ p.state = e.state ∧ p.before = stateInForce state earlier e.tick := by
  induction earlier generalizing tick state before with
  | nil =>
    obtain ⟨p, mem, begins⟩ := knownPieces_head (h.after sets) (h.head sets).2 (state := e.state) (before := state)
    exact ⟨p, by rw [List.nil_append, knownPieces_set sets]; exact List.mem_cons_of_mem _ mem, begins⟩
  | cons f earlier ih =>
    rw [List.cons_append] at h ⊢
    by_cases sets' : f.setsState
    · have follows : f.tick ≤ e.tick := Nat.le_of_lt ((h.after sets').1 e (by simp) sets).1
      rw [knownPieces_set sets', stateInForce_set sets' follows]
      obtain ⟨p, mem, begins⟩ := ih (h.after sets') (state := f.state) (before := state)
      exact ⟨p, List.mem_cons_of_mem _ mem, begins⟩
    · rw [knownPieces_skip sets', stateInForce_skip sets']
      exact ih h.tail

/-! ## The kinds of a CHANNEL cell (R172) -/

theorem overlaps_iff : p.overlaps lo hi = true ↔ ∃ u, lo ≤ u ∧ u ≤ hi ∧ p.first ≤ u ∧ u ≤ p.last := by
  unfold Piece.overlaps
  rw [decide_eq_true_eq]
  constructor
  · rintro ⟨meets, _⟩
    exact ⟨max p.first lo, by omega, by omega, by omega, by omega⟩
  · rintro ⟨u, from_, within, first, last⟩
    omega

theorem edgeIn_iff : p.edgeIn lo ch = true
    ↔ lo ≤ p.first ∧ p.state.getLsbD ch.val ≠ p.before.getLsbD ch.val := by
  unfold Piece.edgeIn
  show (decide (lo ≤ p.first) && (p.state.getLsbD ch.val != p.before.getLsbD ch.val)) = true ↔ _
  rw [Bool.and_eq_true, decide_eq_true_eq, bne_iff_ne]

variable {pieces : List Piece}

theorem channelCell_noData (none_ : ∀ p ∈ pieces, p.overlaps lo hi = false) : channelCell pieces lo hi ch = .noData := by
  unfold channelCell
  rw [List.filter_eq_nil_iff.mpr fun p mem => by rw [none_ p mem]; decide]
  rfl

/-- R172: the edge of a cell, in its known pieces. -/
def edgeOf (pieces : List Piece) (lo hi : Nat) (ch : Chan) : Prop :=
  (∃ p ∈ pieces, p.overlaps lo hi = true ∧ p.edgeIn lo ch = true)
  ∨ (∃ p ∈ pieces, p.overlaps lo hi = true ∧ p.state.getLsbD ch.val = true)
    ∧ ∃ p ∈ pieces, p.overlaps lo hi = true ∧ p.state.getLsbD ch.val = false

theorem channelCell_of (some_ : ∃ p ∈ pieces, p.overlaps lo hi = true) : (edgeOf pieces lo hi ch →
      channelCell pieces lo hi ch = .edge)
    ∧ (¬ edgeOf pieces lo hi ch → (∃ p ∈ pieces, p.overlaps lo hi = true ∧ p.state.getLsbD ch.val = true) →
      channelCell pieces lo hi ch = .high)
    ∧ (¬ edgeOf pieces lo hi ch → (¬ ∃ p ∈ pieces, p.overlaps lo hi = true ∧ p.state.getLsbD ch.val = true) →
      channelCell pieces lo hi ch = .low) := by
  have any (test : Piece → Bool) : (pieces.filter fun p => p.overlaps lo hi).any test = true
      ↔ ∃ p ∈ pieces, p.overlaps lo hi = true ∧ test p = true := by
    rw [List.any_eq_true]
    simp only [List.mem_filter, and_assoc]
  have full : ¬ (pieces.filter fun p => p.overlaps lo hi).isEmpty = true := by
    obtain ⟨p, mem, overlaps⟩ := some_
    rw [List.isEmpty_iff]
    exact List.ne_nil_of_mem (List.mem_filter.mpr ⟨mem, overlaps⟩)
  have edge : ((pieces.filter fun p => p.overlaps lo hi).any (fun p => p.edgeIn lo ch)
      || ((pieces.filter fun p => p.overlaps lo hi).any (fun p => inSet p.state ch.val)
        && (pieces.filter fun p => p.overlaps lo hi).any fun p => !inSet p.state ch.val)) = true
      ↔ edgeOf pieces lo hi ch := by
    rw [Bool.or_eq_true, Bool.and_eq_true, any, any, any]
    unfold edgeOf inSet
    simp only [Bool.not_eq_true']
  have high : (pieces.filter fun p => p.overlaps lo hi).any (fun p => inSet p.state ch.val) = true
      ↔ ∃ p ∈ pieces, p.overlaps lo hi = true ∧ p.state.getLsbD ch.val = true := any _
  unfold channelCell
  dsimp only
  rw [if_neg full]
  exact ⟨fun is => if_pos (edge.mpr is), fun not_ set => (if_neg (mt edge.mp not_)).trans (if_pos (high.mpr set)),
    fun not_ clear => (if_neg (mt edge.mp not_)).trans (if_neg (mt high.mp clear))⟩

theorem channelCell_kinds (pieces : List Piece) (lo hi : Nat) (ch : Chan) : channelCell pieces lo hi ch = .noData
    ∨ channelCell pieces lo hi ch = .edge ∨ channelCell pieces lo hi ch = .low ∨ channelCell pieces lo hi ch = .high := by
  by_cases some_ : ∃ p ∈ pieces, p.overlaps lo hi = true
  · obtain ⟨edge, high, low⟩ := channelCell_of (ch := ch) some_
    by_cases is : edgeOf pieces lo hi ch
    · exact .inr (.inl (edge is))
    · by_cases set : ∃ p ∈ pieces, p.overlaps lo hi = true ∧ p.state.getLsbD ch.val = true
      · exact .inr (.inr (.inr (high is set)))
      · exact .inr (.inr (.inl (low is set)))
  · exact .inl (channelCell_noData fun p mem => Bool.eq_false_iff.mpr fun overlaps => some_ ⟨p, mem, overlaps⟩)

section Column

variable {first : Nat} (h : ordered first horizon entries) (from_ : first ≤ lo) (within : hi ≤ horizon)

include h from_ within

/-- R172: a tick of a column is known where a piece covers it, and has the state of the piece. -/
theorem column_known : (∃ p ∈ knownPieces horizon first state before entries, p.first ≤ u ∧ u ≤ p.last ∧ lo ≤ u ∧ u ≤ hi)
    ↔ lo ≤ u ∧ u ≤ hi ∧ ¬ inDropout first entries u := by
  constructor
  · rintro ⟨p, mem, begins, ends, after, upTo⟩
    exact ⟨after, upTo, (knownPieces_covers h (Nat.le_trans from_ after) (Nat.le_trans upTo within)).mp
      ⟨p, mem, begins, ends⟩⟩
  · rintro ⟨after, upTo, known⟩
    obtain ⟨p, mem, begins, ends⟩ :=
      (knownPieces_covers h (Nat.le_trans from_ after) (Nat.le_trans upTo within) (state := state) (before := before)).mpr
        known
    exact ⟨p, mem, begins, ends, after, upTo⟩

theorem column_some : (∃ p ∈ knownPieces horizon first state before entries, p.overlaps lo hi = true)
    ↔ ∃ u, lo ≤ u ∧ u ≤ hi ∧ ¬ inDropout first entries u := by
  constructor
  · rintro ⟨p, mem, overlaps⟩
    obtain ⟨u, after, upTo, begins, ends⟩ := overlaps_iff.mp overlaps
    exact ⟨u, (column_known h from_ within).mp ⟨p, mem, begins, ends, after, upTo⟩⟩
  · rintro ⟨u, known⟩
    obtain ⟨p, mem, begins, ends, after, upTo⟩ := (column_known h from_ within (state := state) (before := before)).mpr known
    exact ⟨p, mem, overlaps_iff.mpr ⟨u, after, upTo, begins, ends⟩⟩

/-- R172: the values of the known pieces of a column are those of its known ticks. -/
theorem column_value (v : Bool) : (∃ p ∈ knownPieces horizon first state before entries, p.overlaps lo hi = true
      ∧ p.state.getLsbD ch.val = v)
    ↔ ∃ u, (lo ≤ u ∧ u ≤ hi ∧ ¬ inDropout first entries u) ∧ (stateInForce state entries u).getLsbD ch.val = v := by
  constructor
  · rintro ⟨p, mem, overlaps, value⟩
    obtain ⟨u, after, upTo, begins, ends⟩ := overlaps_iff.mp overlaps
    exact ⟨u, (column_known h from_ within).mp ⟨p, mem, begins, ends, after, upTo⟩, by
      rw [← knownPieces_state h mem begins ends, value]⟩
  · rintro ⟨u, known, value⟩
    obtain ⟨p, mem, begins, ends, after, upTo⟩ := (column_known h from_ within (state := state) (before := before)).mpr known
    exact ⟨p, mem, overlaps_iff.mpr ⟨u, after, upTo, begins, ends⟩, by rw [knownPieces_state h mem begins ends, value]⟩

/-- R172: an edge is a change that an entry of the column brings, or two known ticks that differ. -/
theorem column_edge : edgeOf (knownPieces horizon first state state entries) lo hi ch
    ↔ (∃ u v, (lo ≤ u ∧ u ≤ hi ∧ ¬ inDropout first entries u) ∧ (lo ≤ v ∧ v ≤ hi ∧ ¬ inDropout first entries v)
        ∧ (stateInForce state entries u).getLsbD ch.val ≠ (stateInForce state entries v).getLsbD ch.val)
      ∨ ∃ before e after, entries = before ++ e :: after ∧ e.setsState
        ∧ (lo ≤ e.tick ∧ e.tick ≤ hi ∧ ¬ inDropout first entries e.tick)
        ∧ e.state.getLsbD ch.val ≠ (stateInForce state before e.tick).getLsbD ch.val := by
  unfold edgeOf
  rw [column_value h from_ within, column_value h from_ within, or_comm]
  refine or_congr ⟨?_, ?_⟩ ⟨?_, ?_⟩
  · rintro ⟨⟨u, known, set⟩, v, known', clear⟩
    exact ⟨u, v, known, known', by rw [set, clear]; decide⟩
  · rintro ⟨u, v, known, known', differ⟩
    cases value : (stateInForce state entries u).getLsbD ch.val with
    | true =>
      rw [value] at differ
      exact ⟨⟨u, known, value⟩, v, known', Bool.eq_false_iff.mpr (Ne.symm differ)⟩
    | false =>
      rw [value] at differ
      exact ⟨⟨v, known', by simpa using differ.symm⟩, u, known, value⟩
  · rintro ⟨p, mem, overlaps, edge⟩
    obtain ⟨after, differ⟩ := edgeIn_iff.mp edge
    rcases knownPieces_begins h mem with ⟨_, same, was⟩ | ⟨earlier, e, later, split_, sets, begins, same, was⟩
    · exact absurd (by rw [same, was]) differ
    · obtain ⟨u, _, upTo, first_, ends⟩ := overlaps_iff.mp overlaps
      refine ⟨earlier, e, later, split_, sets, ?_, by rw [← same, ← was]; exact differ⟩
      rw [← begins]
      exact (column_known h from_ within).mp
        ⟨p, mem, Nat.le_refl _, Nat.le_trans first_ ends, after, Nat.le_trans first_ upTo⟩
  · rintro ⟨earlier, e, later, rfl, sets, ⟨after, upTo, _⟩, differ⟩
    obtain ⟨p, mem, begins, ends, same, was⟩ := knownPieces_begun h sets (state := state) (before := state)
    refine ⟨p, mem, overlaps_iff.mpr ⟨e.tick, after, upTo, Nat.le_of_eq begins, ends⟩, edgeIn_iff.mpr ⟨?_, ?_⟩⟩
    · rw [begins]
      exact after
    · rw [same, was]
      exact differ

/-- R172: a CHANNEL cell by the known ticks of its column. -/
theorem channelCell_kind {edge : Prop} (edge_ : edge
    ↔ (∃ u v, (lo ≤ u ∧ u ≤ hi ∧ ¬ inDropout first entries u) ∧ (lo ≤ v ∧ v ≤ hi ∧ ¬ inDropout first entries v)
        ∧ (stateInForce state entries u).getLsbD ch.val ≠ (stateInForce state entries v).getLsbD ch.val)
      ∨ ∃ before e after, entries = before ++ e :: after ∧ e.setsState
        ∧ (lo ≤ e.tick ∧ e.tick ≤ hi ∧ ¬ inDropout first entries e.tick)
        ∧ e.state.getLsbD ch.val ≠ (stateInForce state before e.tick).getLsbD ch.val) :
    ((∀ u, ¬ (lo ≤ u ∧ u ≤ hi ∧ ¬ inDropout first entries u)) →
      channelCell (knownPieces horizon first state state entries) lo hi ch = .noData)
    ∧ (edge → channelCell (knownPieces horizon first state state entries) lo hi ch = .edge)
    ∧ (¬ edge → ∀ u, lo ≤ u ∧ u ≤ hi ∧ ¬ inDropout first entries u →
      channelCell (knownPieces horizon first state state entries) lo hi ch
        = if (stateInForce state entries u).getLsbD ch.val then .high else .low) := by
  have known (some_ : ∃ u, lo ≤ u ∧ u ≤ hi ∧ ¬ inDropout first entries u) :=
    channelCell_of (ch := ch) ((column_some h from_ within (state := state) (before := state)).mpr some_)
  rw [← column_edge h from_ within] at edge_
  rw [← edge_] at known
  refine ⟨fun none_ => channelCell_noData fun p mem => Bool.eq_false_iff.mpr fun overlaps => ?_, fun is => ?_,
    fun not_ u here => ?_⟩
  · obtain ⟨u, here⟩ := (column_some h from_ within).mp ⟨p, mem, overlaps⟩
    exact none_ u here
  · refine (known ?_).1 is
    rcases edge_.mp is with ⟨p, mem, overlaps, _⟩ | ⟨⟨p, mem, overlaps, _⟩, _⟩
    · exact (column_some h from_ within).mp ⟨p, mem, overlaps⟩
    · exact (column_some h from_ within).mp ⟨p, mem, overlaps⟩
  · obtain ⟨_, high, low⟩ := known ⟨u, here⟩
    rw [column_value h from_ within] at high low
    cases value : (stateInForce state entries u).getLsbD ch.val with
    | true => exact high not_ ⟨u, here, value⟩
    | false =>
      refine low not_ ?_
      rintro ⟨v, here', value'⟩
      exact not_ (edge_.mpr ((column_edge h from_ within).mpr (.inl ⟨u, v, here, here', by rw [value, value']; decide⟩)))

end Column

/-! ## The kinds of an ANNOTATION cell (R173) -/

theorem annotationCell_kind {annotations : List Annotation} {n : Nat} (n_ : n = annotations.countP fun a =>
    decide (a.startTick ≤ hi ∧ lo ≤ a.startTick + a.duration)) :
    (n = 0 → annotationCell annotations lo hi = .empty) ∧ (2 ≤ n → annotationCell annotations lo hi = .dense)
    ∧ (n = 1 → ∀ a ∈ annotations, a.startTick ≤ hi ∧ lo ≤ a.startTick + a.duration →
      annotationCell annotations lo hi = if lo ≤ a.startTick
        then (if a.startTick + a.duration ≤ hi then .boxOne else .boxStart)
        else (if a.startTick + a.duration ≤ hi then .boxEnd else .boxBody)) := by
  rw [List.countP_eq_length_filter] at n_
  have inside (a : Annotation) : a ∈ annotations → a.startTick ≤ hi ∧ lo ≤ a.startTick + a.duration →
      a ∈ annotations.filter fun a => decide (a.startTick ≤ hi ∧ lo ≤ a.startTick + a.duration) :=
    fun mem overlaps => List.mem_filter.mpr ⟨mem, decide_eq_true overlaps⟩
  unfold annotationCell Annotation.lastTick
  generalize annotations.filter (fun a => decide (a.startTick ≤ hi ∧ lo ≤ a.startTick + a.duration)) = drawn at *
  subst n_
  match drawn with
  | [] => exact ⟨fun _ => rfl, nofun, nofun⟩
  | [b] =>
    refine ⟨nofun, fun two => absurd two (by simp), fun _ a mem overlaps => ?_⟩
    rw [← List.mem_singleton.mp (inside a mem overlaps)]
    simp only [overlaps.1, overlaps.2, and_true, true_and]
    by_cases from_ : lo ≤ a.startTick
    · by_cases within : a.startTick + a.duration ≤ hi
      · simp only [from_, within, decide_true, reduceIte]
      · simp only [from_, within, decide_true, decide_false, reduceIte]
    · by_cases within : a.startTick + a.duration ≤ hi
      · simp only [from_, within, decide_true, decide_false, reduceIte]
      · simp only [from_, within, decide_false, reduceIte]
  | _ :: _ :: _ => exact ⟨nofun, fun _ => rfl, fun one => by simp at one⟩

theorem annotationCell_kinds (annotations : List Annotation) (lo hi : Nat) :
    annotationCell annotations lo hi = .empty ∨ annotationCell annotations lo hi = .boxOne
    ∨ annotationCell annotations lo hi = .boxStart ∨ annotationCell annotations lo hi = .boxEnd
    ∨ annotationCell annotations lo hi = .boxBody ∨ annotationCell annotations lo hi = .dense := by
  unfold annotationCell
  split
  · exact .inl rfl
  · split
    · exact .inr (.inl rfl)
    · exact .inr (.inr (.inl rfl))
    · exact .inr (.inr (.inr (.inl rfl)))
    · exact .inr (.inr (.inr (.inr (.inl rfl))))
  · exact .inr (.inr (.inr (.inr (.inr rfl))))

/-! ## Labels (R174) -/

/-- How many of the first `n` numbers lie between two bounds. -/
theorem countP_between (a b n : Nat) :
    (List.range n).countP (fun c => decide (a ≤ c ∧ c ≤ b)) = min (b + 1) n - a := by
  induction n with
  | zero => simp
  | succ n ih =>
    rw [List.range_succ, List.countP_append, ih, List.countP_singleton]
    simp only [decide_eq_true_eq]
    split <;> omega

/-- R168, R174: the columns that an annotation overlaps are those between its first and its last. -/
theorem overlaps_column {v : View} {a : Annotation} (wide : 1 ≤ v.ticksPerColumn) (shown : v.start ≤ a.lastTick) (c : Nat) :
    (a.startTick < v.start + (c + 1) * v.ticksPerColumn ∧ v.start + c * v.ticksPerColumn ≤ a.startTick + a.duration)
      ↔ (a.startTick - v.start) / v.ticksPerColumn ≤ c ∧ c ≤ (a.lastTick - v.start) / v.ticksPerColumn := by
  unfold Annotation.lastTick at *
  have column : 1 ≤ (c + 1) * v.ticksPerColumn := Nat.mul_pos (Nat.succ_pos c) wide
  have first : (a.startTick - v.start) / v.ticksPerColumn ≤ c ↔ a.startTick - v.start < (c + 1) * v.ticksPerColumn := by
    rw [← Nat.lt_succ_iff, Nat.div_lt_iff_lt_mul wide]
  rw [first, Nat.le_div_iff_mul_le wide]
  refine and_congr ?_ ?_ <;> omega

theorem labelOf_spec {v : View} {a : Annotation} {n : Nat} (wide : 1 ≤ v.ticksPerColumn) {overlaps : Nat → Prop}
    [DecidablePred overlaps] (is : ∀ c, overlaps c ↔ a.startTick < v.start + (c + 1) * v.ticksPerColumn
      ∧ v.start + c * v.ticksPerColumn ≤ a.startTick + a.duration)
    (n_ : n = (List.range 400).countP (fun c => decide (overlaps c))) :
    (n < 16 → v.labelOf a = none)
    ∧ (16 ≤ n → ∃ c, c < 400 ∧ overlaps c ∧ (∀ k, k < c → ¬ overlaps k)
      ∧ v.labelOf a = some ⟨c, a.kind, a.firstByte⟩) := by
  unfold View.labelOf
  by_cases shown : v.start ≤ a.lastTick
  · have between (c : Nat) := (is c).trans (overlaps_column wide shown c)
    have many : n = min ((a.lastTick - v.start) / v.ticksPerColumn + 1) 400 - (a.startTick - v.start) / v.ticksPerColumn := by
      rw [n_, ← countP_between]
      simp only [between]
    have ends : min ((a.lastTick - v.start) / v.ticksPerColumn + 1) 400
        = min ((a.lastTick - v.start) / v.ticksPerColumn) (Config.columns - 1) + 1 := by
      show _ = min _ 399 + 1
      omega
    rw [if_neg (Nat.not_lt.mpr shown)]
    dsimp only
    rw [ends] at many
    constructor
    · intro few
      rw [if_neg]
      show ¬ _ + 16 ≤ _
      omega
    · intro enough
      refine ⟨(a.startTick - v.start) / v.ticksPerColumn, ?_, ?_, fun k early here => ?_, if_pos ?_⟩
      · have top : min ((a.lastTick - v.start) / v.ticksPerColumn) (Config.columns - 1) ≤ 399 := Nat.min_le_right _ _
        omega
      · refine (between _).mpr ⟨Nat.le_refl _, ?_⟩
        have top : min ((a.lastTick - v.start) / v.ticksPerColumn) (Config.columns - 1)
          ≤ (a.lastTick - v.start) / v.ticksPerColumn := Nat.min_le_left _ _
        omega
      · exact Nat.not_lt.mpr ((between k).mp here).1 early
      · show _ + 16 ≤ _
        omega
  · rw [if_pos (Nat.not_le.mp shown)]
    refine ⟨fun _ => rfl, fun enough => ?_⟩
    have none_ : (List.range 400).countP (fun c => decide (overlaps c)) = 0 := by
      rw [List.countP_eq_zero]
      intro c _
      rw [decide_eq_true_eq, is]
      rintro ⟨_, reaches⟩
      exact shown (Nat.le_trans (Nat.le_add_right _ _) reaches)
    omega

end Sys2Proof.Machine
end

section
/-! PROOFS. A refresh: its columns, its send and the pending one (O60). -/

namespace Sys2Proof.Machine

variable {s : State} {id : SegId} {column : Nat}

/-! ## What a refresh reads (R171) -/

theorem refreshed_of (active : s.dsp.active.segment = some id) : s.refreshed
    = if s.cap.segments[id].discarded = none then some s.cap.segments[id] else none := by
  unfold State.refreshed
  rw [active]
  rfl

theorem refreshed_discarded (active : s.dsp.active.segment = some id) (discarded : s.cap.segments[id].discarded ≠ none) :
    s.refreshed = none := (refreshed_of active).trans (if_neg discarded)

theorem refreshed_live (active : s.dsp.active.segment = some id) (live : s.cap.segments[id].discarded = none) :
    s.refreshed = some s.cap.segments[id] := (refreshed_of active).trans (if_pos live)

/-! ## CHANNEL cells of a refresh (R172) -/

theorem cellOf_channel_kinds (s : State) (column : Nat) (ch : Chan) : s.cellOf column (.channel ch) = .noData
    ∨ s.cellOf column (.channel ch) = .edge ∨ s.cellOf column (.channel ch) = .low
    ∨ s.cellOf column (.channel ch) = .high := by
  unfold State.cellOf
  dsimp only
  split
  · exact .inl rfl
  · exact channelCell_kinds _ _ _ _

/-- R172: a column whose ticks all precede the first retained one has no data. -/
theorem cellOf_channel_early {ch : Chan} (active : s.dsp.active.segment = some id) (wide : 1 ≤ s.dsp.active.ticksPerColumn)
    (early : s.dsp.active.start + (column + 1) * s.dsp.active.ticksPerColumn ≤ s.cap.segments[id].firstRetainedTick) :
    s.cellOf column (.channel ch) = .noData := by
  unfold State.cellOf
  dsimp only
  rw [refreshed_of active]
  split
  · rfl
  · rename_i g read
    have is : g = s.cap.segments[id] := by
      split at read
      · exact (Option.some.inj read).symm
      · cases read
    subst is
    refine channelCell_noData fun p _ => Bool.eq_false_iff.mpr fun overlaps => ?_
    obtain ⟨u, after, upTo, _⟩ := overlaps_iff.mp overlaps
    have some_ : 1 ≤ (column + 1) * s.dsp.active.ticksPerColumn := Nat.mul_pos (Nat.succ_pos column) wide
    unfold View.columnEnd at upTo
    omega

theorem cellOf_channel_discarded {ch : Chan} (none_ : s.refreshed = none) : s.cellOf column (.channel ch) = .noData := by
  unfold State.cellOf
  dsimp only
  rw [none_]

theorem cellOf_channel {ch : Chan} {g : Segment} {horizon page : Nat} (read : s.refreshed = some g)
    (horizon_ : s.dsp.horizon = some horizon) (head : g.records.head = some page) : s.cellOf column (.channel ch)
      = channelCell (knownPieces horizon (servedHeader s.cap.served page).baseTick (servedHeader s.cap.served page).baseState
          (servedHeader s.cap.served page).baseState ((s.cap.retainedEntries g).filter fun e => decide (e.tick ≤ horizon)))
        (max (s.dsp.active.start + column * s.dsp.active.ticksPerColumn) g.firstRetainedTick)
        (min (s.dsp.active.start + (column + 1) * s.dsp.active.ticksPerColumn - 1) horizon) ch := by
  unfold State.cellOf Cap.pieces
  dsimp only
  rw [read]
  dsimp only
  rw [horizon_, head]
  rfl

/-! ## ANNOTATION cells of a refresh (R173) -/

theorem cellOf_annotation_kinds (s : State) (column : Nat) (ctx : CtxId) : s.cellOf column (.annotation ctx) = .empty
    ∨ s.cellOf column (.annotation ctx) = .boxOne ∨ s.cellOf column (.annotation ctx) = .boxStart
    ∨ s.cellOf column (.annotation ctx) = .boxEnd ∨ s.cellOf column (.annotation ctx) = .boxBody
    ∨ s.cellOf column (.annotation ctx) = .dense := by
  unfold State.cellOf
  dsimp only
  split
  · exact .inl rfl
  · exact annotationCell_kinds _ _ _

theorem cellOf_annotation_discarded {ctx : CtxId} (none_ : s.refreshed = none) :
    s.cellOf column (.annotation ctx) = .empty := by
  unfold State.cellOf
  dsimp only
  rw [none_]

theorem cellOf_annotation {ctx : CtxId} {g : Segment} {last : Nat} (read : s.refreshed = some g)
    (last_ : s.dsp.annotationHorizon = some last) : s.cellOf column (.annotation ctx)
      = annotationCell (((s.cap.retainedAnnotations g last).map (·.2)).filter fun a => decide (a.context = ctx))
        (s.dsp.active.start + column * s.dsp.active.ticksPerColumn)
        (s.dsp.active.start + (column + 1) * s.dsp.active.ticksPerColumn - 1) := by
  unfold State.cellOf
  dsimp only
  rw [read]
  dsimp only
  rw [last_]
  rfl

/-- R174: the labels of a row are those of the annotations it draws. -/
theorem labelsOf_annotation {ctx : CtxId} {g : Segment} {last : Nat} (read : s.refreshed = some g)
    (last_ : s.dsp.annotationHorizon = some last) : s.labelsOf (.annotation ctx)
      = (((s.cap.retainedAnnotations g last).map (·.2)).filter fun a => decide (a.context = ctx)).filterMap
        s.dsp.active.labelOf := by
  unfold State.labelsOf
  dsimp only
  rw [read]
  dsimp only
  rw [last_, List.filterMap_filter]
  simp only [decide_eq_true_eq]
  rfl

/-! ## One column (R171) -/

theorem extendRow_cells (s : State) (column : Nat) (row : Row) (old : CellRow) :
    (s.extendRow column row old).cells = old.cells ++ [s.cellOf column row] := by
  unfold State.extendRow
  dsimp only
  split <;> rfl

theorem extendRow_earlier {row : Row} {old : CellRow} (earlier : column ≠ 399) :
    (s.extendRow column row old).labels = old.labels ∧ (s.extendRow column row old).labelsDropped = old.labelsDropped := by
  have other : ¬ column + 1 = Config.columns := fun h => earlier (Nat.succ.inj h)
  unfold State.extendRow
  dsimp only
  rw [if_neg other]
  exact ⟨rfl, rfl⟩

theorem extendRow_last {row : Row} {old : CellRow} (last : column = 399) :
    (s.extendRow column row old).labels = (s.labelsOf row).take 32
    ∧ (s.extendRow column row old).labelsDropped = decide (32 < (s.labelsOf row).length) := by
  subst last
  exact ⟨rfl, rfl⟩

theorem readColumn_eq (s : State) : s.readColumn = { s with
    cap := { s.cap with port := if s.cap.port = .entering ∧ (s.cap.staged = [] ∧ s.cap.stagedAnnotations = []) ∧ s.cap.read = none
      ∧ 399 ≤ s.dsp.nextColumn then .selfRefresh else s.cap.port }
    dsp := { s.dsp with
      cellMap := List.zipWith (s.extendRow s.dsp.nextColumn) s.dsp.active.rows s.dsp.cellMap
      nextColumn := s.dsp.nextColumn + 1
      state := if 399 ≤ s.dsp.nextColumn then .sending else .reading } } := by
  have last : Config.columns ≤ s.dsp.nextColumn + 1 ↔ 399 ≤ s.dsp.nextColumn := Nat.succ_le_succ_iff
  unfold State.readColumn
  dsimp only
  rw [settlePort_eq]
  dsimp only [State.setDsp]
  simp only [last, and_assoc]
  by_cases sends : 399 ≤ s.dsp.nextColumn
  · simp [sends]
  · simp [sends]

/-! ## The end of a refresh (R175) -/

theorem startPendingRefresh_of (up : s.lvl.touchesStandby = false) {j : SegId} (staged : s.dsp.staged.segment = some j)
    (granted : (s.segment j).pinnable = true) : s.startPendingRefresh = s.startRefresh j := by
  unfold State.startPendingRefresh
  rw [if_neg (by rw [up]; decide), staged]
  exact if_pos granted

theorem startPendingRefresh_refused (refused : s.lvl.touchesStandby = true ∨ s.dsp.staged.segment = none
    ∨ ∃ j, s.dsp.staged.segment = some j ∧ ¬ (s.segment j).pinnable = true) : s.startPendingRefresh = s.notDrawn := by
  unfold State.startPendingRefresh
  split
  · rfl
  · rename_i up
    rcases refused with touches | none_ | ⟨j, staged, refused⟩
    · exact absurd touches up
    · rw [none_]
    · rw [staged]
      exact if_neg refused

/-- R175: a refresh that ends while the pending one is not drawn raises REFRESH_DONE once. -/
theorem drawn_notDrawn (s : State) : s.drawn.notDrawn = { s with
    dsp := { s.dsp with outcome := .notDrawn, state := .idle, pending := false }
    cmd := { s.cmd with pending := s.cmd.pending ||| BitVec.twoPow 14 13 } } := by
  have once : s.cmd.pending ||| BitVec.twoPow 14 13 ||| BitVec.twoPow 14 13 = s.cmd.pending ||| BitVec.twoPow 14 13 := by
    rw [BitVec.or_assoc, BitVec.or_self]
  exact congrArg (fun pending => ({ s with
    dsp := { s.dsp with outcome := .notDrawn, state := .idle, pending := false }
    cmd := { s.cmd with pending } } : State)) once

/-- A pin release leaves what grants a pin as it was. -/
theorem unpinned_pinnable (s : State) (i j : SegId) : ((s.unpinned i).segment j).pinnable = (s.segment j).pinnable := by
  have get := unpinned_get s i j
  show ((s.unpinned i).cap.segments[j]).pinnable = s.cap.segments[j].pinnable
  rw [get]
  split
  · rename_i same
    subst same
    rfl
  · rfl

/-- R170: what a refresh reads of its segment is not the pins. -/
theorem unpinned_fields (s : State) (i j : SegId) :
    (s.unpinned i).cap.segments[j].firstRetainedTick = s.cap.segments[j].firstRetainedTick
    ∧ (s.unpinned i).cap.segments[j].lastTick = s.cap.segments[j].lastTick
    ∧ (s.unpinned i).cap.segments[j].annotationsStored = s.cap.segments[j].annotationsStored := by
  rw [unpinned_get]
  split
  · rename_i same
    subst same
    exact ⟨rfl, rfl, rfl⟩
  · exact ⟨rfl, rfl, rfl⟩

/-- Settles O60. -/
theorem refreshReadsColumnsAndCompletes : Obligations.RefreshReadsColumnsAndCompletes := by
  refine ⟨fun s reading size => ?_, fun horizon base lo hi state entries ch cell edge cell_ from_ within bounds
      apart edge_ => ?_, fun annotations lo hi n cell n_ cell_ => ?_, fun v a n wide n_ => ?_,
    fun s id sending active stays => ?_⟩
  · refine ⟨_, _, (exec_eq_after _ _).trans (congrArg _ ((after_refreshColumnRead ..).trans
      ((if_pos reading).trans (readColumn_eq s)))), ?_, fun entering none_ unread last => if_pos ⟨entering, none_, unread, last⟩,
      fun other => if_neg other, fun k row old row_ old_ => ⟨s.cellOf s.dsp.nextColumn row,
        s.extendRow s.dsp.nextColumn row old, ?_, extendRow_cells _ _ _ _, extendRow_earlier, fun last => ?_, ?_, ?_⟩⟩
    · rw [List.length_zipWith, size, Nat.min_self]
    · rw [List.getElem?_zipWith, row_, old_]
    · rw [(extendRow_last last).1]
      exact List.length_take_le _ _
    · rintro ch rfl
      refine ⟨cellOf_channel_kinds _ _ _, fun last => extendRow_last last, fun id active wide => ⟨?_,
        fun horizon page header live horizon_ head header_ => ?_⟩⟩
      · rintro (discarded | early)
        · exact cellOf_channel_discarded (refreshed_discarded active discarded)
        · exact cellOf_channel_early active wide early
      · rw [header_]
        exact cellOf_channel (refreshed_live active live) horizon_ head
    · rintro ctx rfl
      refine ⟨cellOf_annotation_kinds _ _ _, fun id active =>
        ⟨fun discarded => cellOf_annotation_discarded (refreshed_discarded active discarded),
          fun last drawn live last_ drawn_ => ?_⟩⟩
      have read := refreshed_live active live
      rw [drawn_]
      refine ⟨cellOf_annotation read last_, fun final => ?_⟩
      obtain ⟨labels, dropped⟩ := extendRow_last (s := s) (row := .annotation ctx) (old := old) final
      rw [labels, dropped, labelsOf_annotation read last_]
      exact ⟨rfl, decide_eq_true_iff⟩
  · rw [cell_]
    exact channelCell_kind ⟨bounds, apart⟩ from_ within edge_
  · rw [cell_]
    exact annotationCell_kind n_
  · exact labelOf_spec wide (fun _ => Iff.rfl) n_
  · have done_ := (exec_refreshSendComplete sending).trans (congrArg _ (completeRefresh_eq active))
    rw [unpin_keeps stays] at done_
    refine ⟨(s.unpinned id).cap.segments, rfl, fun alone => ?_, fun pending => ⟨fun refused => ?_,
      fun up away j staged shown live => ?_⟩⟩
    · rw [if_neg (by rw [alone]; decide)] at done_
      rw [done_]
      unfold State.drawn
      rw [← alone]
      rfl
    · rw [if_pos pending, startPendingRefresh_refused] at done_
      · rw [done_]
        exact congrArg _ (drawn_notDrawn _)
      · rcases refused with level | switching | none_ | ⟨j, staged, refused⟩
        · exact .inl ((touchesStandby_iff _).mpr (.inl level))
        · exact .inl ((touchesStandby_iff _).mpr (.inr switching))
        · exact .inr (.inl none_)
        · refine .inr (.inr ⟨j, staged, ?_⟩)
          show ¬ ((s.unpinned id).segment j).pinnable = true
          rw [unpinned_pinnable, pinnable_iff]
          exact refused
    · rw [if_pos pending, startPendingRefresh_of (j := j)] at done_
      · obtain ⟨map, started, size, empty⟩ := startRefresh_eq (s.unpinned id).drawn j
        obtain ⟨first, last, stored⟩ := unpinned_fields s id j
        rw [started] at done_
        refine ⟨map, ?_, size, empty⟩
        rw [done_, ← first, ← last, ← stored]
        rfl
      · refine Bool.eq_false_iff.mpr fun touches => ?_
        exact ((touchesStandby_iff _).mp touches).elim up away
      · exact staged
      · show ((s.unpinned id).segment j).pinnable = true
        rw [unpinned_pinnable, pinnable_iff]
        exact ⟨shown, live⟩

end Sys2Proof.Machine
end

section
/-! PROOFS. Layouts in DRAM read back (13.2), and what CAP serves at a slot (R52). -/

namespace Sys2Proof.Machine

/-! ## Layouts read back (Tables 13-3, 13-4) -/

theorem ofLe_leBytes_of {n v : Nat} (fits : v < 256 ^ n) : ofLe (leBytes n v) = v := by
  rw [ofLe_leBytes, Nat.mod_eq_of_lt fits]

theorem EntryKind.ofCode_code (k : EntryKind) : EntryKind.ofCode k.code = k := by
  cases k <;> rfl

theorem recordKindOfCode_code (k : RecordKind) : recordKindOfCode (recordKindCode k) = k := by
  cases k <;> rfl

theorem recordKindCode_lt (k : RecordKind) : recordKindCode k < 7 := by
  cases k <;> decide

theorem Entry.encode_length (e : Entry) : e.encode.length = 8 := rfl

theorem Entry.decode_encode {e : Entry} (fits : e.delta < 2 ^ 24) : Entry.decode e.encode = e := by
  obtain ⟨kind, delta, state⟩ := e
  have code : EntryKind.ofCode kind.code = kind := EntryKind.ofCode_code kind
  have delta_ : ofLe (leBytes 3 delta) = delta := ofLe_leBytes_of fits
  have state_ : BitVec.ofNat 32 (ofLe (leBytes 4 state.toNat)) = state := by
    rw [ofLe_leBytes_of (by exact state.isLt), BitVec.ofNat_toNat, BitVec.setWidth_eq]
  show (⟨EntryKind.ofCode kind.code, ofLe (leBytes 3 delta), BitVec.ofNat 32 (ofLe (leBytes 4 state.toNat))⟩ : Entry) = _
  rw [code, delta_, state_]

theorem PageHeader.encode_length (h : PageHeader) : h.encode.length = 16 := rfl

theorem PageHeader.decode_encode {h : PageHeader} (fits : h.baseTick < 2 ^ 48) : PageHeader.decode h.encode = h := by
  obtain ⟨tick, state⟩ := h
  have tick_ : ofLe (leBytes 6 tick) = tick := ofLe_leBytes_of fits
  have state_ : BitVec.ofNat 32 (ofLe (leBytes 4 state.toNat)) = state := by
    rw [ofLe_leBytes_of (by exact state.isLt), BitVec.ofNat_toNat, BitVec.setWidth_eq]
  show (⟨ofLe (leBytes 6 tick), BitVec.ofNat 32 (ofLe (leBytes 4 state.toNat))⟩ : PageHeader) = _
  rw [tick_, state_]

theorem Annotation.encode_length (a : Annotation) : a.encode.length = 16 := rfl

theorem Annotation.decode_encode {a : Annotation} (start : a.startTick < 2 ^ 48) (duration : a.duration < 2 ^ 32)
    (length : a.length ≤ 255) : Annotation.decode a.encode = a := by
  obtain ⟨tick, ticks, ctx, kind, flags, clipped, first, bytes⟩ := a
  have tick_ : ofLe (leBytes 6 tick) = tick := ofLe_leBytes_of start
  have ticks_ : ofLe (leBytes 4 ticks) = ticks := ofLe_leBytes_of duration
  have flags_ : BitVec.ofNat 16 (ofLe (leBytes 2 flags.toNat)) = flags := by
    rw [ofLe_leBytes_of (by exact flags.isLt), BitVec.ofNat_toNat, BitVec.setWidth_eq]
  have code := recordKindCode_lt kind
  have named : (BitVec.ofNat 8 (ctx.val + 16 * recordKindCode kind)).toNat = ctx.val + 16 * recordKindCode kind := by
    rw [BitVec.toNat_ofNat, Nat.mod_eq_of_lt (by omega)]
  have bytes_ : (BitVec.ofNat 8 bytes).toNat = bytes := by
    rw [BitVec.toNat_ofNat, Nat.mod_eq_of_lt (Nat.lt_succ_of_le length)]
  have clip : (if clipped then 1#8 else 0#8).getLsbD 0 = clipped := by cases clipped <;> rfl
  have kind_ : recordKindOfCode ((BitVec.ofNat 8 (ctx.val + 16 * recordKindCode kind)).toNat / 16) = kind := by
    rw [named, show (ctx.val + 16 * recordKindCode kind) / 16 = recordKindCode kind by omega, recordKindOfCode_code]
  have ctx_ : (⟨(BitVec.ofNat 8 (ctx.val + 16 * recordKindCode kind)).toNat % 16, Nat.mod_lt _ (by decide)⟩ : CtxId) = ctx :=
    Fin.ext (by
      show (BitVec.ofNat 8 (ctx.val + 16 * recordKindCode kind)).toNat % 16 = ctx.val
      rw [named]
      omega)
  show (⟨ofLe (leBytes 6 tick), ofLe (leBytes 4 ticks),
    ⟨(BitVec.ofNat 8 (ctx.val + 16 * recordKindCode kind)).toNat % 16, Nat.mod_lt _ (by decide)⟩,
    recordKindOfCode ((BitVec.ofNat 8 (ctx.val + 16 * recordKindCode kind)).toNat / 16),
    BitVec.ofNat 16 (ofLe (leBytes 2 flags.toNat)), (if clipped then 1#8 else 0#8).getLsbD 0, first,
    (BitVec.ofNat 8 bytes).toNat⟩ : Annotation) = _
  rw [tick_, ticks_, ctx_, kind_, flags_, clip, bytes_]

/-! ## What CAP serves at a slot (R52) -/

/-- A staged entry over a region of another page. -/
theorem StagedEntry.read_writeTo_other (e : StagedEntry) {m : Memory} (wf : Memory.wf m) {page k : Nat}
    (inPage : e.slot < 510) (below : k < 4096) (apart : e.page ≠ page) :
    Memory.read (e.writeTo m) (page * 4096 + k) = Memory.read m (page * 4096 + k) := by
  have entry (m : Memory) (wf : Memory.wf m) :
      Memory.read (Memory.writeBytes m (entryAddress e.page e.slot) e.entry.encode) (page * 4096 + k)
        = Memory.read m (page * 4096 + k) := by
    rw [Memory.read_writeBytes wf, if_neg]
    simp only [entryAddress, Config.pageBytes, Entry.encode_length]
    omega
  unfold StagedEntry.writeTo
  cases e.header with
  | none => exact entry m wf
  | some h =>
    refine (entry _ (Memory.writeBytes_wf wf _ _)).trans ?_
    rw [Memory.read_writeBytes wf, if_neg]
    simp only [headerAddress, Config.pageBytes, PageHeader.encode_length]
    omega

/-- A staged annotation over a slot of an annotation page. -/
theorem StagedAnnotation.read_writeTo_slot (a : StagedAnnotation) {m : Memory} (wf : Memory.wf m) {page slot k : Nat}
    (inPage : a.slot < 256) (slotIn : slot < 256) (below : k < 16) :
    Memory.read (a.writeTo m) (annotationAddress page slot + k)
      = if a.page = page ∧ a.slot = slot then a.annotation.encode.getD k 0#8
        else Memory.read m (annotationAddress page slot + k) := by
  rw [StagedAnnotation.writeTo, Memory.read_writeBytes wf, Annotation.encode_length]
  by_cases here : a.page = page ∧ a.slot = slot
  · rw [if_pos here, here.1, here.2, if_pos (by omega), Nat.add_sub_cancel_left]
  · rw [if_neg here, if_neg]
    simp only [annotationAddress, Config.pageBytes]
    omega

/-- Bytes read one by one are the bytes that stand there. -/
theorem readBytes_of {m : Memory} {a n : Nat} {bytes : List Byte} (length : bytes.length = n)
    (each : ∀ k, k < n → Memory.read m (a + k) = bytes.getD k 0#8) : Memory.readBytes m a n = bytes := by
  refine List.ext_getElem (by simp [Memory.readBytes, length]) fun k _ below => ?_
  simp only [Memory.readBytes, List.getElem_map, List.getElem_range]
  rw [each k (by rw [← length]; exact below), List.getD_eq_getElem _ _ below]

/-- A byte of DRAM that is one of the bytes that stand there. -/
theorem byte_of {b : Byte} {bytes : List Byte} {k : Nat} (stands : some b = bytes[k]?) : b = bytes.getD k 0#8 := by
  rw [List.getD_eq_getElem?_getD, ← stands]
  rfl

section Served

variable {c : Cap} (wf : Memory.wf c.dram) (slots : ∀ e ∈ c.staged, e.slot < 510)
  (slots' : ∀ a ∈ c.stagedAnnotations, a.slot < 256)

include wf slots slots'

/-- R52: the header that stands on a page without staged annotations is served. -/
theorem servedHeader_of {page : Nat} (apart : ∀ a ∈ c.stagedAnnotations, a.page ≠ page) {h : PageHeader}
    (stands : c.standsHeader page h) (fits : h.baseTick < 2 ^ 48) : servedHeader c.served page = h := by
  have kept := StagedEntry.foldl_wf c.staged wf
  have bytes : Memory.readBytes c.served (headerAddress page) 16 = h.encode := by
    refine readBytes_of rfl fun k below => ?_
    have skip := foldl_region (fun m (a : StagedAnnotation) => a.writeTo m) (headerAddress page) 16 (fun _ => false)
      (fun _ => []) c.stagedAnnotations _ kept (fun a _ m h => a.writeTo_wf h) (fun a mem m h k below => by
        simpa [headerAddress, Config.pageBytes] using
          a.read_writeTo_other h (page := page) (k := k) (slots' a mem) (by omega) (apart a mem)) k below
    have take := foldl_region (fun m (e : StagedEntry) => e.writeTo m) (headerAddress page) 16
      (fun e => decide (e.page = page ∧ e.header ≠ none)) (fun e => (e.header.map PageHeader.encode).getD []) c.staged _ wf
      (fun e _ m h => e.writeTo_wf h) (fun e mem m h k below => by
        simpa using e.read_writeTo_header h (slots e mem) below) k below
    unfold Cap.served
    rw [skip]
    simp only [List.filter_false, List.getLast?_nil]
    rw [take]
    rw [Cap.standsHeader] at stands
    cases last : (c.staged.filter fun e => decide (e.page = page ∧ e.header ≠ none)).getLast? with
    | some e =>
      rw [last] at stands
      simp only at stands ⊢
      rw [stands]
      rfl
    | none =>
      rw [last] at stands
      exact byte_of (stands k below)
  unfold servedHeader
  rw [bytes, PageHeader.decode_encode fits]

/-- R52: the entry that stands at a slot of a page without staged annotations is served. -/
theorem servedEntry_of {page slot : Nat} (slotIn : slot < 510) (apart : ∀ a ∈ c.stagedAnnotations, a.page ≠ page)
    {x : Entry} (stands : c.standsEntry page slot x) (fits : x.delta < 2 ^ 24) : servedEntry c.served page slot = x := by
  unfold servedEntry
  rw [Cap.served_entry wf slots slots' slotIn apart stands, Entry.decode_encode fits]

/-- R52, R55: the annotation that stands at a slot of a page without staged entries is served. -/
theorem servedAnnotation_of {page slot : Nat} (slotIn : slot < 256) (apart : ∀ e ∈ c.staged, e.page ≠ page)
    {a : Annotation} (stands : c.standsAnnotation page slot a) (start : a.startTick < 2 ^ 48)
    (duration : a.duration < 2 ^ 32) (length : a.length ≤ 255) : servedAnnotation c.served page slot = a := by
  have kept := StagedEntry.foldl_wf c.staged wf
  have bytes : Memory.readBytes c.served (annotationAddress page slot) 16 = a.encode := by
    refine readBytes_of rfl fun k below => ?_
    have skip := foldl_region (fun m (e : StagedEntry) => e.writeTo m) (annotationAddress page slot) 16 (fun _ => false)
      (fun _ => []) c.staged _ wf (fun e _ m h => e.writeTo_wf h) (fun e mem m h k below => by
        simpa [annotationAddress, Config.pageBytes, Nat.add_assoc] using
          e.read_writeTo_other h (page := page) (k := 16 * slot + k) (slots e mem) (by omega) (apart e mem)) k below
    have take := foldl_region (fun m (a : StagedAnnotation) => a.writeTo m) (annotationAddress page slot) 16
      (fun a => decide (a.page = page ∧ a.slot = slot)) (fun a => a.annotation.encode) c.stagedAnnotations _ kept
      (fun a _ m h => a.writeTo_wf h) (fun a mem m h k below => by
        simpa using a.read_writeTo_slot h (slots' a mem) slotIn below) k below
    unfold Cap.served
    rw [take]
    rw [Cap.standsAnnotation] at stands
    cases last : (c.stagedAnnotations.filter fun e => decide (e.page = page ∧ e.slot = slot)).getLast? with
    | some e =>
      rw [last] at stands
      simp only at stands ⊢
      rw [stands]
    | none =>
      rw [last] at stands
      simp only
      rw [skip]
      simp only [List.filter_false, List.getLast?_nil]
      exact byte_of (stands k below)
  unfold servedAnnotation
  rw [bytes, Annotation.decode_encode start duration length]

end Served

end Sys2Proof.Machine
end

section
/-! PROOFS. Reads in flight (O36): takes, the response, the read held behind it, and what CAP serves them. -/

namespace Sys2Proof.Machine

variable {s v : State} {id : SegId} {r : ReadInFlight} {g : Segment}

/-! ## Takes (R78, R79, R74) -/

theorem entryEnd_eq (g : Segment) : g.entryEnd = (g.discarded.getD (g.written, g.annotationsStored)).1 := by
  unfold Segment.entryEnd
  cases g.discarded <;> rfl

theorem annotationEnd_eq (g : Segment) : g.annotationEnd = (g.discarded.getD (g.written, g.annotationsStored)).2 := by
  unfold Segment.annotationEnd
  cases g.discarded <;> rfl

/-- One take of the read in flight. -/
theorem readStep_of {take : Cap → Segment → ReadInFlight → ReadInFlight} (read : s.cap.read = some r)
    (more : r.hasMore s.cap.segments[r.segment] = true) : s.readStep r.kind take
      = { s with cap := { s.cap with read := some (take s.cap s.cap.segments[r.segment] r) } } := by
  unfold State.readStep
  rw [read]
  exact if_pos ⟨rfl, more⟩

theorem hasMore_entries (kind : r.kind = .entries) (left : 0 < r.remaining) (below : r.next < g.entryEnd) :
    r.hasMore g = true := by
  unfold ReadInFlight.hasMore
  rw [kind]
  exact decide_eq_true ⟨left, below⟩

theorem hasMore_annotations (kind : r.kind = .annotations) (left : 0 < r.remaining) (below : r.next < g.annotationEnd) :
    r.hasMore g = true := by
  unfold ReadInFlight.hasMore
  rw [kind]
  exact decide_eq_true ⟨left, below⟩

theorem takeEntry_removed (c : Cap) (removed : r.next < g.firstRetained) :
    c.takeEntry g r = { r with next := r.next + 1, rotatedAway := true } := if_pos removed

theorem takeEntry_taken {c : Cap} {e : ReadEntry} (kept : g.firstRetained ≤ r.next)
    (here : (c.retainedEntries g)[r.next - g.firstRetained]? = some e) : c.takeEntry g r
      = { r with next := r.next + 1, remaining := r.remaining - 1, entries := r.entries ++ [e] } := by
  unfold Cap.takeEntry
  rw [if_neg (Nat.not_lt.mpr kept), here]
  rfl

theorem takeAnnotation_removed (c : Cap) (removed : r.next < g.firstAnnotation) :
    c.takeAnnotation g r = { r with next := r.next + 1, rotatedAway := true } := if_pos removed

theorem takeAnnotation_taken {c : Cap} {a : Annotation} (kept : g.firstAnnotation ≤ r.next)
    (here : c.annotationAt g r.next = some a) : c.takeAnnotation g r
      = { r with next := r.next + 1, remaining := r.remaining - 1, annotations := r.annotations ++ [(r.next, a)] } := by
  unfold Cap.takeAnnotation
  rw [if_neg (Nat.not_lt.mpr kept), here]
  rfl

theorem exec_entryTake (read : s.cap.read = some r) (kind : r.kind = .entries) (left : 0 < r.remaining)
    (below : r.next < s.cap.segments[r.segment].entryEnd) {taken : ReadInFlight}
    (taken_ : s.cap.takeEntry s.cap.segments[r.segment] r = taken) :
    exec .segmentReadEntryTake s = .next { s with cap := { s.cap with read := some taken } } := by
  have step := readStep_of (take := Cap.takeEntry) read (hasMore_entries kind left below)
  rw [kind, taken_] at step
  rw [exec_eq_after, after_segmentReadEntryTake, step]

theorem exec_annotationTake (read : s.cap.read = some r) (kind : r.kind = .annotations) (left : 0 < r.remaining)
    (below : r.next < s.cap.segments[r.segment].annotationEnd) {taken : ReadInFlight}
    (taken_ : s.cap.takeAnnotation s.cap.segments[r.segment] r = taken) :
    exec .annotationReadEntryTake s = .next { s with cap := { s.cap with read := some taken } } := by
  have step := readStep_of (take := Cap.takeAnnotation) read (hasMore_annotations kind left below)
  rw [kind, taken_] at step
  rw [exec_eq_after, after_annotationReadEntryTake, step]

/-! ## The read held behind (R180) -/

theorem takeHeld_some {h : HeldRead} (held : s.cmd.held = some h)
    (v_ : v = { s with cmd := { s.cmd with held := none } }) : s.takeHeld = if v.resting then v.answered .level
      else match h.fit with
        | .short => v.answered .badParam
        | .enough => v.beginTaken h.kind h.segment h.start h.count := by
  subst v_
  unfold State.takeHeld State.takeRead
  rw [held]
  rfl

theorem takeHeld_resting {h : HeldRead} (held : s.cmd.held = some h)
    (v_ : v = { s with cmd := { s.cmd with held := none } }) (rests : v.restsInStandby) :
    s.takeHeld = v.answered .level :=
  (takeHeld_some held v_).trans (if_pos (by
    obtain ⟨level, steady⟩ := rests
    unfold State.resting
    rw [level, steady]
    rfl))

theorem takeHeld_short {h : HeldRead} (held : s.cmd.held = some h)
    (v_ : v = { s with cmd := { s.cmd with held := none } }) (up : ¬ v.restsInStandby)
    (short : h.fit = .short ∨ 8 ≤ h.segment.toNat) : s.takeHeld = v.answered .badParam := by
  rw [takeHeld_some held v_, not_resting up]
  cases fit : h.fit with
  | short => rfl
  | enough =>
    rcases short with short | high
    · rw [fit] at short
      cases short
    · exact beginTaken_of_le high _ _ _

theorem takeHeld_enough {h : HeldRead} (held : s.cmd.held = some h)
    (v_ : v = { s with cmd := { s.cmd with held := none } }) (up : ¬ v.restsInStandby) (fit : h.fit = .enough) :
    s.takeHeld = v.beginTaken h.kind h.segment h.start h.count := by
  rw [takeHeld_some held v_, not_resting up, fit]
  rfl

/-! ## What CAP serves (R47, R48, R52, R55) -/

theorem linked_owner {m : PageMap} {owner : PageOwner} {pages : List Nat} (links : linked m owner pages) {p : Nat}
    (mem : p ∈ pages) : (PageMap.get m p).owner = owner := by
  obtain ⟨k, at_⟩ := List.mem_iff_getElem?.mp mem
  rw [links k p at_]

/-- No annotation is staged for a page of a record chain. -/
theorem annotations_apart (sound : s.stagedSound) {pages : List Nat} {i : SegId}
    (links : linked s.cap.pages (.records i) pages) {p : Nat} (mem : p ∈ pages) :
    ∀ a ∈ s.cap.stagedAnnotations, a.page ≠ p := by
  rintro a staged rfl
  obtain ⟨_, j, _, owner⟩ := sound.annotations a staged
  rw [linked_owner links mem] at owner
  cases owner

/-- No entry is staged for a page of an annotation chain. -/
theorem entries_apart (sound : s.stagedSound) {pages : List Nat} {i : SegId}
    (links : linked s.cap.pages (.annotations i) pages) {p : Nat} (mem : p ∈ pages) :
    ∀ e ∈ s.cap.staged, e.page ≠ p := by
  rintro e staged rfl
  obtain ⟨_, j, _, owner⟩ := sound.entries e staged
  rw [linked_owner links mem] at owner
  cases owner

theorem retainedEntries_eq {c : Cap} {pages : List Nat} {i : SegId} {fill : Nat}
    (held : g.records.holds c.pages (.records i) pages) (some_ : pages ≠ []) (written : g.written ≠ 0)
    (fill_ : fill = (g.written - 1) % 510 + 1) :
    c.retainedEntries g = pageEntries c.served fill pages g.firstRetained := by
  have count : g.records.count ≠ 0 := by
    rw [held.1]
    exact fun none_ => some_ (List.length_eq_zero_iff.mp none_)
  have same : g.recordFill = fill := by
    rw [fill_]
    exact if_neg (not_or.mpr ⟨count, written⟩)
  unfold Cap.retainedEntries
  rw [same, held.chainPages]

theorem annotationAt_eq {c : Cap} {pages : List Nat} {i : SegId} (held : g.annotations.holds c.pages (.annotations i) pages)
    (index : Nat) : c.annotationAt g index = (pages[(index - g.firstAnnotation) / 256]?).map fun p =>
      servedAnnotation c.served p (index % 256) := by
  unfold Cap.annotationAt
  rw [held.chainPages]
  rfl

theorem filterMap_range {α : Type} {n : Nat} {at_ : Nat → Option α} {f : Nat → α} (each : ∀ i, i < n → at_ i = some (f i)) :
    (List.range n).filterMap at_ = (List.range n).map f := by
  rw [← List.filterMap_eq_map]
  exact List.filterMap_congr fun i mem => each i (List.mem_range.mp mem)

/-! ## The response of a read (R78, R79) -/

/-- R27, R75, R78: the state once a read's response is formed, before a held read is taken. -/
def State.readFormed (s : State) (r : ReadInFlight) (data : ResponseData) : State := { s with
  cap := { s.cap with
    segments := s.cap.segments.set r.segment
      { s.cap.segments[r.segment] with pins := s.cap.segments[r.segment].pins - 1 }
    read := none
    port := if s.cap.port = .entering ∧ s.cap.staged = [] ∧ s.cap.stagedAnnotations = [] ∧ s.dsp.state ≠ .reading
      then .selfRefresh else s.cap.port }
  cmd := if r.frameOpen then { s.cmd with frame := .response, response := some ⟨.ok, data⟩ } else s.cmd }

theorem formRead_leaves {c : Instr} {last : Nat} {data : ResponseData} (read : s.cap.read = some r)
    (kinds : (r.kind = .entries ∧ c = .segmentReadResponseFormed ∧ last = s.cap.segments[r.segment].entryEnd
        ∧ data = .entries s.cap.segments[r.segment].state s.cap.segments[r.segment].written
          s.cap.segments[r.segment].firstRetained r.rotatedAway r.entries)
      ∨ (r.kind = .annotations ∧ c = .annotationReadResponseFormed ∧ last = s.cap.segments[r.segment].annotationEnd
        ∧ data = .annotations s.cap.segments[r.segment].firstAnnotation s.cap.segments[r.segment].annotationsStored
          s.cap.segments[r.segment].annotationsDropped r.rotatedAway r.annotations))
    (ends : r.remaining = 0 ∨ last ≤ r.next)
    (stays : ¬ (s.cap.segments[r.segment].state = .retiring ∧ s.cap.segments[r.segment].pins ≤ 1)) :
    exec c s = .next (s.readFormed r data).takeHeld := by
  rw [formRead_of read kinds ends, unpin_keeps (by exact stays), settlePort_eq]
  show Host.Outcome.next (State.takeHeld { s with
    cap := { s.cap with
      segments := s.cap.segments.set r.segment
        { s.cap.segments[r.segment] with pins := s.cap.segments[r.segment].pins - 1 }
      read := none
      port := if s.cap.port = .entering ∧ s.cap.staged = [] ∧ s.cap.stagedAnnotations = []
        ∧ (none : Option ReadInFlight) = none ∧ s.dsp.state ≠ .reading then .selfRefresh else s.cap.port }
    cmd := r.presentedIn s.cmd .ok data }) = _
  simp only [true_and]
  rfl

theorem readFormed_segment (s : State) (r : ReadInFlight) (data : ResponseData) (j : SegId) :
    (s.readFormed r data).cap.segments[j] = if j = r.segment
      then { s.cap.segments[r.segment] with pins := s.cap.segments[r.segment].pins - 1 } else s.cap.segments[j] :=
  set_get _ _ _ _

theorem readFormed_held (s : State) (r : ReadInFlight) (data : ResponseData) :
    (s.readFormed r data).cmd.held = s.cmd.held := by
  show (if r.frameOpen then { s.cmd with frame := .response, response := some ⟨.ok, data⟩ } else s.cmd).held = _
  split <;> rfl

/-- R19, R75, R78 to R80: the read held behind the one that ends, begun with a pin. -/
theorem beginTaken_begins {b : Byte} (named : b.toNat = id.val) (granted : (s.segment id).pinnable = true)
    (none_ : s.cmd.held = none) (kind : ReadKind) (start count : Nat) : s.beginTaken kind b start count = { s with
      cap := { s.cap with
        segments := s.cap.segments.set id { s.cap.segments[id] with pins := s.cap.segments[id].pins + 1 }
        read := some (s.cap.segments[id].beginRead kind id start count) }
      cmd := { s.cmd with frame := .response, response := none } } := by
  rw [beginTaken_granted named granted, ← none_]

/-- Settles O36. -/
theorem readsTakeEntriesAndFormResponses : Obligations.ReadsTakeEntriesAndFormResponses := by
  refine ⟨fun s r g written stored read is ends => ?_, fun s id g pages fill canonical sound is held some_ written fill_ => ?_,
    fun s id g pages canonical sound is held => ⟨fun index p a kept at_ stands start duration length => ?_,
      fun index past => ?_, fun last f each => ?_⟩⟩
  · subst is
    obtain ⟨written_, stored_⟩ : s.cap.segments[r.segment].entryEnd = written
        ∧ s.cap.segments[r.segment].annotationEnd = stored := by
      rw [entryEnd_eq, annotationEnd_eq, ← ends]
      exact ⟨rfl, rfl⟩
    subst written_ stored_
    refine ⟨fun kind left below => ⟨fun removed => exec_entryTake read kind left below (takeEntry_removed _ removed),
        fun e kept here => exec_entryTake read kind left below (takeEntry_taken kept here)⟩,
      fun kind left below => ⟨fun removed => exec_annotationTake read kind left below (takeAnnotation_removed _ removed),
        fun a kept here => exec_annotationTake read kind left below (takeAnnotation_taken kept here)⟩,
      fun c last data kinds done_ stays => ?_⟩
    have formed := formRead_leaves read kinds done_ stays
    have held := readFormed_held s r data
    refine ⟨(s.readFormed r data).cap.segments, (s.readFormed r data).cap.port, s.readFormed r data, rfl,
      (readFormed_segment ..).trans (if_pos rfl), fun j other => (readFormed_segment ..).trans (if_neg other),
      fun entering none_ idle => if_pos ⟨entering, none_.1, none_.2, idle⟩,
      fun other => if_neg fun ⟨entering, none_, none', idle⟩ => other ⟨entering, ⟨none_, none'⟩, idle⟩,
      fun none_ => by rw [formed, takeHeld_none (held.trans none_)], fun h v waits v_ => ?_⟩
    have waits := held.trans waits
    have lvl : v.lvl = s.lvl := by rw [v_]; rfl
    have rests : v.restsInStandby ↔ s.restsInStandby := by
      unfold State.restsInStandby
      rw [lvl]
    have segments : v.cap.segments = (s.readFormed r data).cap.segments := by rw [v_]
    have none_ : v.cmd.held = none := by rw [v_]
    refine ⟨fun standby => ?_, fun up short => ?_, fun up fit id named => ⟨fun refused => ?_, fun shown live => ?_⟩⟩
    · rw [formed, takeHeld_resting waits v_ (rests.mpr standby)]
    · rw [formed, takeHeld_short waits v_ (mt rests.mp up) short]
    · rw [formed, takeHeld_enough waits v_ (mt rests.mp up) fit, beginTaken_refused named]
      rw [← segments] at refused
      exact Bool.eq_false_iff.mpr (mt (pinnable_iff id).mp refused)
    · rw [← segments] at shown live ⊢
      rw [formed, takeHeld_enough waits v_ (mt rests.mp up) fit,
        beginTaken_begins named ((pinnable_iff id).mpr ⟨shown, live⟩) none_]
      cases h.kind <;> rfl
  · subst is
    obtain ⟨wf, _⟩ := canonical
    obtain ⟨count, head, tail, links⟩ := held
    have served := retainedEntries_eq (c := s.cap) ⟨count, head, tail, links⟩ some_ written fill_
    have slots := fun e mem => (sound.entries e mem).1
    have slots' := fun a mem => (sound.annotations a mem).1
    have full : fill ≤ 510 := by omega
    rw [served]
    refine ⟨pageEntries_length _ _ _ _ some_, fun p h mem stands fits =>
      servedHeader_of wf slots slots' (annotations_apart sound links mem) stands fits, fun i p x below at_ stands fits => ?_⟩
    have mem : p ∈ pages := List.mem_of_getElem? at_
    have apart := annotations_apart sound links mem
    obtain ⟨e, here, sequence, kind, state, first, later⟩ := pageEntries_get s.cap.served fill full pages
      s.cap.segments[id].firstRetained i p below at_
    rw [servedEntry_of wf slots slots' (Nat.mod_lt _ (by decide)) apart stands fits] at kind state first later
    refine ⟨e, here, sequence, kind, state, fun h zero stands' fits' => ?_, later⟩
    rw [first zero, servedHeader_of wf slots slots' apart stands' fits']
  · subst is
    obtain ⟨wf, _⟩ := canonical
    obtain ⟨count, head, tail, links⟩ := held
    have mem : p ∈ pages := List.mem_of_getElem? at_
    rw [annotationAt_eq ⟨count, head, tail, links⟩, at_, Option.map_some, servedAnnotation_of wf
      (fun e mem => (sound.entries e mem).1) (fun a mem => (sound.annotations a mem).1) (Nat.mod_lt _ (by decide))
      (entries_apart sound links mem) stands start duration length]
  · subst is
    rw [annotationAt_eq held, List.getElem?_eq_none past, Option.map_none]
  · subst is
    exact filterMap_range fun i below => by rw [each i below, Option.map_some]

end Sys2Proof.Machine
end

section
/-! PROOFS. The transaction record's bytes (Tables 13-5, 13-6). -/

namespace Sys2Proof.Machine

variable {r : Record}

/-! ## Bytes by their place -/

theorem getD_append {α : Type} {a b : List α} {n : Nat} (length : a.length = n) (k : Nat) (d : α) :
    (a ++ b).getD (n + k) d = b.getD k d := by
  rw [List.getD_append_right _ _ _ _ (by omega), length, Nat.add_sub_cancel_left]

theorem getD_front {α : Type} {a b : List α} {k : Nat} (below : k < a.length) (d : α) :
    (a ++ b).getD k d = a.getD k d := List.getD_append _ _ _ _ below

theorem leBytes_zero_getD (n k : Nat) : (leBytes n 0).getD k 0#8 = 0#8 := by
  induction n generalizing k with
  | zero => rfl
  | succ n ih =>
    cases k with
    | zero => rfl
    | succ k => exact ih k

/-- Table 13-5: the bytes before the payload. -/
def Record.front (r : Record) : List Byte :=
  [BitVec.ofNat 8 (r.context.val + 16 * recordKindCode r.kind + 128 * bitN (r.has .trimmed))]
    ++ leBytes 2 (r.flags.toNat % 65536)
    ++ [if r.kind = .flashOp then r.modeByte.getD 0#8 else (r.flags.extractLsb' 16 8)]
    ++ [BitVec.ofNat 8 r.kindByte] ++ leBytes 6 r.startTick ++ leBytes 6 r.endTick ++ leBytes 2 r.length

/-- Table 13-5: the four payload bytes, absent ones 0. -/
def Record.payload (r : Record) : List Byte := (r.head ++ [0#8, 0#8, 0#8, 0#8]).take 4

theorem front_length (r : Record) : r.front.length = 19 := rfl

theorem payload_length (r : Record) : r.payload.length = 4 := by
  unfold Record.payload
  rw [List.length_take, List.length_append]
  exact Nat.min_eq_left (Nat.le_add_left _ _)

theorem encode_eq (r : Record) : r.encode = r.front ++ (r.payload ++ r.kindArea) := List.append_assoc ..

theorem kindArea_length (r : Record) : r.kindArea.length = 9 := by
  unfold Record.kindArea
  split <;> rfl

theorem encode_length (r : Record) : r.encode.length = 32 := by
  rw [encode_eq, List.length_append, List.length_append, front_length, payload_length, kindArea_length]

theorem encode_front {k : Nat} (below : k < 19) : r.encode.getD k 0#8 = r.front.getD k 0#8 := by
  rw [encode_eq, getD_front (by rw [front_length]; exact below)]

theorem payload_getD {k : Nat} (below : k < 4) : r.payload.getD k 0#8 = r.head.getD k 0#8 := by
  unfold Record.payload
  rw [List.getD_eq_getElem?_getD, List.getElem?_take, if_pos below, List.getD_eq_getElem?_getD]
  by_cases short : k < r.head.length
  · rw [List.getElem?_append_left short]
  · rw [List.getElem?_append_right (Nat.not_lt.mp short), List.getElem?_eq_none (Nat.not_lt.mp short)]
    have zero (j : Nat) : ([0#8, 0#8, 0#8, 0#8] : List Byte)[j]?.getD 0#8 = 0#8 := by
      match j with
      | 0 | 1 | 2 | 3 => rfl
      | _ + 4 => rfl
    exact zero _

theorem encode_payload {k : Nat} (below : k < 4) : r.encode.getD (19 + k) 0#8 = r.head.getD k 0#8 := by
  rw [encode_eq, getD_append (front_length r), getD_front (by rw [payload_length]; exact below), payload_getD below]

theorem encode_area (k : Nat) : r.encode.getD (23 + k) 0#8 = r.kindArea.getD k 0#8 := by
  rw [encode_eq, show 23 + k = 19 + (4 + k) by omega, getD_append (front_length r), getD_append (payload_length r)]

/-! ## The bytes before the payload (Table 13-5) -/

theorem toNat_ofByte {n : Nat} (fits : n < 256) : (BitVec.ofNat 8 n).toNat = n := by
  rw [BitVec.toNat_ofNat, Nat.mod_eq_of_lt fits]

theorem bitN_le (b : Bool) : bitN b ≤ 1 := by cases b <;> decide

theorem has_eq (r : Record) (f : RecordFlag) : r.has f = r.flags.getLsbD f.position := rfl

theorem encode_head : (r.encode.getD 0 0#8).toNat
    = r.context.val + 16 * recordKindCode r.kind + (if r.flags.getLsbD 24 then 128 else 0) := by
  have kind := recordKindCode_lt r.kind
  have trimmed : 128 * bitN (r.has .trimmed) = if r.flags.getLsbD 24 then 128 else 0 := by
    rw [has_eq]
    show 128 * bitN (r.flags.getLsbD 24) = _
    cases r.flags.getLsbD 24 <;> rfl
  rw [encode_front (by decide)]
  show (BitVec.ofNat 8 (r.context.val + 16 * recordKindCode r.kind + 128 * bitN (r.has .trimmed))).toNat = _
  rw [trimmed, toNat_ofByte (by split <;> omega)]

theorem encode_flags {k : Nat} (below : k < 16) :
    (r.encode.getD (1 + k / 8) 0#8).getLsbD (k % 8) = r.flags.getLsbD k := by
  have place : k / 8 < 2 := by omega
  have front : r.front.getD (1 + k / 8) 0#8 = (leBytes 2 (r.flags.toNat % 65536)).getD (k / 8) 0#8 := by
    unfold Record.front
    simp only [List.append_assoc]
    rw [getD_append (n := 1) rfl, getD_front (by rw [leBytes_length]; exact place)]
  rw [encode_front (by omega), front, leBytes_getLsbD _ place (Nat.mod_lt _ (by decide)), Nat.div_add_mod,
    show (65536 : Nat) = 2 ^ 16 from rfl, Nat.testBit_mod_two_pow, decide_eq_true below, Bool.true_and,
    BitVec.testBit_toNat]

theorem encode_mode (flash : r.kind = .flashOp) : r.encode.getD 3 0#8 = r.modeByte.getD 0#8 := by
  rw [encode_front (by decide)]
  show (if r.kind = .flashOp then r.modeByte.getD 0#8 else r.flags.extractLsb' 16 8) = _
  rw [if_pos flash]

theorem encode_highFlags (other : r.kind ≠ .flashOp) {k : Nat} (below : k < 8) :
    (r.encode.getD 3 0#8).getLsbD k = r.flags.getLsbD (16 + k) := by
  rw [encode_front (by decide)]
  show ((if r.kind = .flashOp then r.modeByte.getD 0#8 else r.flags.extractLsb' 16 8) : Byte).getLsbD k = _
  rw [if_neg other, BitVec.getLsbD_extractLsb', decide_eq_true below, Bool.true_and]

theorem encode_kindByte : r.encode.getD 4 0#8 = BitVec.ofNat 8 r.kindByte := encode_front (by decide)

theorem encode_ticks {k : Nat} (below : k < 6) : r.encode.getD (5 + k) 0#8 = (leBytes 6 r.startTick).getD k 0#8
    ∧ r.encode.getD (11 + k) 0#8 = (leBytes 6 r.endTick).getD k 0#8 := by
  rw [encode_front (by omega), encode_front (by omega)]
  unfold Record.front
  constructor
  · rw [List.append_assoc, List.append_assoc, getD_append (n := 5) rfl, getD_front (by rw [leBytes_length]; exact below)]
  · rw [List.append_assoc, getD_append (n := 11) rfl, getD_front (by rw [leBytes_length]; exact below)]

theorem encode_lengthField {k : Nat} (below : k < 2) : r.encode.getD (17 + k) 0#8 = (leBytes 2 r.length).getD k 0#8 := by
  rw [encode_front (by omega)]
  exact getD_append rfl k 0#8

/-! ## The kind byte and the kind area (Table 13-6) -/

theorem plain_kind (plain : r.kind = .character ∨ r.kind = .brk ∨ r.kind = .idle) :
    r.kindByte = 0 ∧ r.kindArea = leBytes 9 0 := by
  unfold Record.kindByte Record.kindArea
  rcases plain with kind | kind | kind <;> (rw [kind]; exact ⟨rfl, rfl⟩)

theorem gap_kind (gap : r.kind = .gap) : r.kindByte = 0 ∧ r.kindArea = leBytes 4 (r.lost.getD 0) ++ leBytes 5 0 := by
  unfold Record.kindByte Record.kindArea
  rw [gap]
  exact ⟨rfl, rfl⟩

theorem word_kind (word : r.kind = .word) : r.kindByte = bitN r.inWord.isSome
    ∧ r.kindArea = leBytes 4 (r.inWord.getD 0#32).toNat ++ leBytes 5 0 := by
  unfold Record.kindByte Record.kindArea
  rw [word]
  exact ⟨rfl, by cases r.inWord <;> rfl⟩

theorem flash_area (flash : r.kind = .flashOp) : r.kindArea = [r.opcode.getD 0#8] ++ (leBytes 4 (r.address.getD 0)
    ++ leBytes 4 (if r.flags.getLsbD 15 then min (r.busyDuration.getD 0) (2 ^ 32 - 1) else r.endAddress.getD 0)) := by
  unfold Record.kindArea
  rw [flash, ← List.append_assoc]
  rfl

theorem message_area (message : r.kind = .message) : r.kindArea
    = [BitVec.ofNat 8 (r.address.getD 0 % 128 + 128 * bitN (r.isRead.getD false))]
      ++ (leBytes 2 (min ((r.ack.bind (·.firstNak)).getD 0) 65535) ++ leBytes 6 0) := by
  unfold Record.kindArea
  rw [message, ← List.append_assoc]

/-- Table 13-6: the kind byte of a FLASH_OP. -/
theorem flash_kindByte (flash : r.kind = .flashOp) : r.kindByte = (match r.effect with
      | some e => effectCode e
      | none => 15)
    + 16 * bitN r.opcode.isSome + 32 * bitN r.modeByte.isSome
    + 64 * (if r.address = none then 0 else if r.addressBytes = 4 then 2 else 1) := by
  unfold Record.kindByte
  rw [flash]
  cases r.address <;> rfl

theorem effectCode_lt (e : EffectClass) : effectCode e < 12 := by cases e <;> decide

theorem bitN_isSome {α : Type} (o : Option α) : bitN o.isSome = 1 ↔ o ≠ none := by
  cases o <;> simp [bitN]

/-- Bit `k` of a byte from its number. -/
theorem ofByte_bit {n k : Nat} (fits : n < 256) : (BitVec.ofNat 8 n).getLsbD k = true ↔ n / 2 ^ k % 2 = 1 := by
  rw [← BitVec.testBit_toNat, toNat_ofByte fits, Nat.testBit_eq_decide_div_mod_eq, decide_eq_true_eq]

/-- Tables 13-5, 13-6: the kind byte and the kind area of a FLASH_OP. -/
theorem flash_encode (flash : r.kind = .flashOp) :
    (r.encode.getD 4 0#8).toNat % 16 = (match r.effect with
      | none => 15
      | some e => effectCode e)
    ∧ ((r.encode.getD 4 0#8).getLsbD 4 = true ↔ r.opcode ≠ none)
    ∧ ((r.encode.getD 4 0#8).getLsbD 5 = true ↔ r.modeByte ≠ none)
    ∧ (r.encode.getD 4 0#8).toNat / 64 = (if r.address = none then 0 else if r.addressBytes = 4 then 2 else 1) := by
  have byte := flash_kindByte flash
  obtain ⟨effect, effect_⟩ : ∃ n, n = (match r.effect with
      | some e => effectCode e
      | none => 15) := ⟨_, rfl⟩
  obtain ⟨form, form_⟩ : ∃ n, n = (if r.address = none then 0 else if r.addressBytes = 4 then 2 else 1) := ⟨_, rfl⟩
  have effectFits : effect ≤ 15 := by
    rw [effect_]
    cases r.effect with
    | none => exact Nat.le_refl _
    | some e => exact Nat.le_of_lt (Nat.lt_trans (effectCode_lt e) (by decide))
  have formFits : form ≤ 2 := by
    rw [form_]
    split
    · decide
    · split <;> decide
  have opcode := bitN_le r.opcode.isSome
  have mode := bitN_le r.modeByte.isSome
  rw [← effect_, ← form_] at byte
  have fits : r.kindByte < 256 := by omega
  rw [encode_kindByte, ofByte_bit fits, ofByte_bit fits, toNat_ofByte fits, byte, ← form_, ← bitN_isSome, ← bitN_isSome]
  refine ⟨?_, by omega, by omega, by omega⟩
  refine (show _ = effect by omega).trans (effect_.trans ?_)
  cases r.effect <;> rfl

theorem flash_encode_area (flash : r.kind = .flashOp) : r.encode.getD 23 0#8 = r.opcode.getD 0#8
    ∧ (∀ k, k < 4 → r.encode.getD (24 + k) 0#8 = (leBytes 4 (r.address.getD 0)).getD k 0#8)
    ∧ ∀ k, k < 4 → r.encode.getD (28 + k) 0#8
      = (leBytes 4 (if r.flags.getLsbD 15 then min (r.busyDuration.getD 0) (2 ^ 32 - 1) else r.endAddress.getD 0)).getD
        k 0#8 := by
  have area := flash_area flash
  refine ⟨?_, fun k below => ?_, fun k below => ?_⟩
  · rw [encode_area 0, area]
    rfl
  · rw [show 24 + k = 23 + (1 + k) by omega, encode_area, area, getD_append (n := 1) rfl,
      getD_front (by rw [leBytes_length]; exact below)]
  · rw [show 28 + k = 23 + (1 + (4 + k)) by omega, encode_area, area, getD_append (n := 1) rfl,
      getD_append (leBytes_length _ _)]

/-- Tables 13-5, 13-6: the kind byte of a MESSAGE. -/
theorem message_encode (message : r.kind = .message) : ((r.encode.getD 4 0#8).getLsbD 0 = true ↔ r.address ≠ none)
    ∧ (r.ack = none → (r.encode.getD 4 0#8).toNat / 2 = 0)
    ∧ ∀ a, r.ack = some a → ((r.encode.getD 4 0#8).getLsbD 1 = true ↔ a.addressAck = false)
      ∧ ((r.encode.getD 4 0#8).getLsbD 2 = true ↔ a.firstNak ≠ none)
      ∧ (r.encode.getD 4 0#8).toNat / 8 = (match a.lastAck with
        | none => 0
        | some true => 1
        | some false => 2) := by
  have address := bitN_le r.address.isSome
  rw [encode_kindByte]
  cases ack : r.ack with
  | none =>
    have byte : r.kindByte = bitN r.address.isSome := by
      unfold Record.kindByte
      rw [message, ack]
    have fits : r.kindByte < 256 := by omega
    rw [ofByte_bit fits, toNat_ofByte fits, byte, ← bitN_isSome]
    exact ⟨by omega, fun _ => by omega, nofun⟩
  | some a =>
    obtain ⟨last, last_⟩ : ∃ n, n = (match a.lastAck with
        | none => 0
        | some true => 1
        | some false => 2) := ⟨_, rfl⟩
    have lastFits : last ≤ 2 := by
      rw [last_]
      split <;> decide
    have byte : r.kindByte = bitN r.address.isSome + 2 * bitN (!a.addressAck) + 4 * bitN a.firstNak.isSome + 8 * last := by
      unfold Record.kindByte
      rewrite [message, ack, last_]
      rfl
    have acked := bitN_le (!a.addressAck)
    have nak := bitN_le a.firstNak.isSome
    have fits : r.kindByte < 256 := by omega
    have acks : bitN (!a.addressAck) = 1 ↔ a.addressAck = false := by cases a.addressAck <;> simp [bitN]
    rw [ofByte_bit fits, toNat_ofByte fits, ← bitN_isSome]
    refine ⟨by omega, nofun, fun a' same => ?_⟩
    cases same
    rw [ofByte_bit fits, ofByte_bit fits, byte, ← bitN_isSome, ← acks]
    refine ⟨by omega, by omega, ?_⟩
    exact (show _ = last by omega).trans last_

theorem message_encode_area (message : r.kind = .message) :
    (r.encode.getD 23 0#8).toNat % 128 = r.address.getD 0 % 128
    ∧ ((r.encode.getD 23 0#8).getLsbD 7 = true ↔ r.isRead = some true)
    ∧ (∀ a, r.ack = some a → ∀ k, k < 2 →
      r.encode.getD (24 + k) 0#8 = (leBytes 2 (min (a.firstNak.getD 0) 65535)).getD k 0#8)
    ∧ ∀ k, k < 6 → r.encode.getD (26 + k) 0#8 = 0#8 := by
  have area := message_area message
  have direction := bitN_le (r.isRead.getD false)
  have fits : r.address.getD 0 % 128 + 128 * bitN (r.isRead.getD false) < 256 := by omega
  have read : bitN (r.isRead.getD false) = 1 ↔ r.isRead = some true := by
    cases r.isRead with
    | none => simp [bitN]
    | some read => cases read <;> simp [bitN]
  have byte : r.encode.getD 23 0#8 = BitVec.ofNat 8 (r.address.getD 0 % 128 + 128 * bitN (r.isRead.getD false)) := by
    rw [encode_area 0, area]
    rfl
  refine ⟨?_, ?_, fun a ack k below => ?_, fun k below => ?_⟩
  · rw [byte, toNat_ofByte fits]
    omega
  · rw [byte, ofByte_bit fits, ← read]
    omega
  · rw [show 24 + k = 23 + (1 + k) by omega, encode_area, area, getD_append (n := 1) rfl,
      getD_front (by rw [leBytes_length]; exact below), ack]
    rfl
  · rw [show 26 + k = 23 + (1 + (2 + k)) by omega, encode_area, area, getD_append (n := 1) rfl,
      getD_append (leBytes_length _ _), leBytes_zero_getD]

/-- Tables 13-5, 13-6: an area of a number and zeros. -/
theorem encode_number {v : Nat} (area : r.kindArea = leBytes 4 v ++ leBytes 5 0) :
    (∀ k, k < 4 → r.encode.getD (23 + k) 0#8 = (leBytes 4 v).getD k 0#8) ∧ ∀ k, k < 5 → r.encode.getD (27 + k) 0#8 = 0#8 := by
  refine ⟨fun k below => ?_, fun k below => ?_⟩
  · rw [encode_area, area, getD_front (by rw [leBytes_length]; exact below)]
  · rw [show 27 + k = 23 + (4 + k) by omega, encode_area, area, getD_append (leBytes_length _ _), leBytes_zero_getD]

end Sys2Proof.Machine
end

section
/-! PROOFS. Requests read from their frames (Table 13-1, R178, R179, R185). -/

namespace Sys2Proof.Machine

variable {code : Byte} {params surplus : List Byte} {least : Nat}

/-! ## Needed parameters (R179) -/

/-- R179: fewer bytes than the least that a request needs. -/
theorem neededParams_few {n : Nat} (few : params.length < least) : neededParams n least params = none := by
  unfold neededParams
  rw [List.find?_eq_none.mpr, Option.map_none]
  intro k mem enough
  have within := List.mem_range.mp mem
  have least_ := of_decide_eq_true (Bool.and_eq_true_iff.mp enough).1
  omega

/-- The needed parameters are a beginning of the bytes, at least as long as the request needs. -/
theorem neededParams_some {n : Nat} {needed : List Byte} (is : neededParams n least params = some needed) :
    needed ⊆ params ∧ least ≤ needed.length := by
  obtain ⟨k, found, rfl⟩ := Option.map_eq_some_iff.mp is
  have within := List.mem_range.mp (List.mem_of_find?_eq_some found)
  have test := List.find?_some found
  have least_ := of_decide_eq_true (Bool.and_eq_true_iff.mp test).1
  exact ⟨List.take_subset _ _, by rw [List.length_take]; omega⟩

/-- R179: surplus bytes are no needed parameters. -/
theorem neededParams_surplus {n : Nat} {needed : List Byte} (is : neededParams n least params = some needed) :
    neededParams n least (params ++ surplus) = some needed := by
  obtain ⟨k, found, rfl⟩ := Option.map_eq_some_iff.mp is
  have within := List.mem_range.mp (List.mem_of_find?_eq_some found)
  have same (j : Nat) (mem : j ∈ List.range (params.length + 1)) : (params ++ surplus).take j = params.take j :=
    List.take_append_of_le_length (Nat.lt_succ_iff.mp (List.mem_range.mp mem))
  unfold neededParams
  rw [List.length_append, show params.length + surplus.length + 1 = params.length + 1 + surplus.length by omega,
    List.range_add, List.find?_append]
  have front : (List.range (params.length + 1)).find? (fun j =>
      decide (least ≤ j) && Config.covers n ((params ++ surplus).take j)) = some k := by
    rw [← found]
    exact List.find?_congr fun j mem => by rw [same j mem]
  rw [front, Option.some_or, Option.map_some, same k (List.mem_range.mpr within)]

theorem readNeeded_some {n : Nat} {short : Instr} {read : List Byte → Instr} {needed : List Byte}
    (is : neededParams n least params = some needed) : readNeeded n least short read params = read needed := by
  unfold readNeeded
  rw [is]

theorem readNeeded_none {n : Nat} {short : Instr} {read : List Byte → Instr}
    (none_ : neededParams n least params = none) : readNeeded n least short read params = short := by
  unfold readNeeded
  rw [none_]

theorem readNeeded_few {n : Nat} {short : Instr} {read : List Byte → Instr} (few : params.length < least) :
    readNeeded n least short read params = short := readNeeded_none (neededParams_few few)

/-! ## The forms of the requests (R185) -/

/-- R185: how the request of a code reads its parameter bytes. -/
inductive RequestForm (n : Nat) : (List Byte → Instr) → Prop where
  /-- A request without parameters. -/
  | fixed {c : Instr} (fit : parameterFit c = none) (code : requestCode c = some n) : RequestForm n fun _ => c
  /-- FLASH_SET_LOAD, which takes its bytes as they are. -/
  | load (is : n = 0x1D) : RequestForm n .flashSetLoad
  /-- A request of one byte. -/
  | byte {command : Fit → Byte → Instr} (fit : ∀ f b, parameterFit (command f b) = some f)
      (code : ∀ f b, requestCode (command f b) = some n) : RequestForm n (readByte command)
  /-- A request of a set of channels. -/
  | lines {command : Fit → Lines → Instr} (fit : ∀ f l, parameterFit (command f l) = some f)
      (code : ∀ f l, requestCode (command f l) = some n) : RequestForm n (readLines command)
  /-- A request of a set of notice kinds. -/
  | kinds {command : Fit → BitVec 16 → Instr} (fit : ∀ f k, parameterFit (command f k) = some f)
      (code : ∀ f k, requestCode (command f k) = some n) : RequestForm n (readKinds command)
  /-- A request whose layout chapter 13 does not give. -/
  | needed {m least : Nat} {short : Instr} {read : List Byte → Instr} (some_ : 1 ≤ least)
      (fit : parameterFit short = some .short) (fits : ∀ p, parameterFit (read p) = some .enough)
      (code : requestCode short = some n) (codes : ∀ p, requestCode (read p) = some n) :
      RequestForm n (readNeeded m least short read)

section Forms

variable {n : Nat}

theorem requestForm_fixed (mem : n ∈ [0x05, 0x09, 0x0B, 0x0C, 0x0E, 0x12, 0x13, 0x21, 0x22, 0x25, 0x26, 0x27, 0x29, 0x2A,
    0x2B, 0x2D, 0x2E]) : RequestForm n (requestOf (BitVec.ofNat 8 n)) := by
  fin_cases mem <;> exact .fixed rfl rfl

theorem requestForm_byte (mem : n ∈ [0x04, 0x08, 0x10, 0x11, 0x14, 0x17, 0x18, 0x1A, 0x1B, 0x1C, 0x1E]) :
    RequestForm n (requestOf (BitVec.ofNat 8 n)) := by
  fin_cases mem <;> exact .byte (fun _ _ => rfl) fun _ _ => rfl

theorem requestForm_needed (mem : n ∈ [0x01, 0x02, 0x03, 0x06, 0x0A, 0x0D, 0x0F, 0x15, 0x16, 0x19, 0x1F, 0x20, 0x23, 0x24,
    0x28]) : RequestForm n (requestOf (BitVec.ofNat 8 n)) := by
  fin_cases mem <;> exact .needed (by decide) rfl (fun _ => rfl) rfl fun _ => rfl

theorem requestForm_of (from_ : 1 ≤ n) (upTo : n ≤ 0x2E) : RequestForm n (requestOf (BitVec.ofNat 8 n)) := by
  by_cases fixed : n ∈ [0x05, 0x09, 0x0B, 0x0C, 0x0E, 0x12, 0x13, 0x21, 0x22, 0x25, 0x26, 0x27, 0x29, 0x2A, 0x2B, 0x2D, 0x2E]
  · exact requestForm_fixed fixed
  by_cases byte : n ∈ [0x04, 0x08, 0x10, 0x11, 0x14, 0x17, 0x18, 0x1A, 0x1B, 0x1C, 0x1E]
  · exact requestForm_byte byte
  by_cases needed : n ∈ [0x01, 0x02, 0x03, 0x06, 0x0A, 0x0D, 0x0F, 0x15, 0x16, 0x19, 0x1F, 0x20, 0x23, 0x24, 0x28]
  · exact requestForm_needed needed
  have others : n = 0x07 ∨ n = 0x2C ∨ n = 0x1D := by
    simp only [List.mem_cons, List.not_mem_nil, or_false] at fixed byte needed
    omega
  rcases others with rfl | rfl | rfl
  · exact .lines (fun _ _ => rfl) fun _ _ => rfl
  · exact .kinds (fun _ _ => rfl) fun _ _ => rfl
  · exact .load rfl

end Forms

/-- R185: the form of every recognised request. -/
theorem requestOf_form (from_ : 1 ≤ code.toNat) (upTo : code.toNat ≤ 0x2E) : RequestForm code.toNat (requestOf code) := by
  have form := requestForm_of from_ upTo
  rwa [BitVec.ofNat_toNat, BitVec.setWidth_eq] at form

/-- R185: the codes outside 0x01 to 0x2E. -/
theorem requestOf_unknown (outside : code.toNat = 0 ∨ 0x2E < code.toNat) (params : List Byte) :
    requestOf code params = .unknownRequest code := by
  unfold requestOf
  split
  case h_47 => rfl
  all_goals omega

theorem readByte_fit {command : Fit → Byte → Instr} (fit : ∀ f b, parameterFit (command f b) = some f)
    (params : List Byte) : parameterFit (readByte command params) = some (if params = [] then .short else .enough) := by
  cases params with
  | nil => exact fit _ _
  | cons b more => exact fit _ _

theorem readLines_short {command : Fit → Lines → Instr} (few : params.length < 4) :
    readLines command params = command .short 0#32 := by
  match params, few with
  | [], _ | [_], _ | [_, _], _ | [_, _, _], _ => rfl

theorem readLines_enough {command : Fit → Lines → Instr} (enough : 4 ≤ params.length) : ∃ channels,
    ∀ surplus, readLines command (params ++ surplus) = command .enough channels := by
  match params, enough with
  | a :: b :: c :: d :: more, _ => exact ⟨_, fun _ => rfl⟩

theorem readKinds_short {command : Fit → BitVec 16 → Instr} (few : params.length < 2) :
    readKinds command params = command .short 0#16 := by
  match params, few with
  | [], _ | [_], _ => rfl

theorem readKinds_enough {command : Fit → BitVec 16 → Instr} (enough : 2 ≤ params.length) : ∃ kinds,
    ∀ surplus, readKinds command (params ++ surplus) = command .enough kinds := by
  match params, enough with
  | a :: b :: more, _ => exact ⟨_, fun _ => rfl⟩

/-- R179: a request that is not short reads surplus bytes as if they were not there. -/
theorem RequestForm.drops_surplus {n : Nat} {read : List Byte → Instr} (form : RequestForm n read) (other : n ≠ 0x1D)
    (long : parameterFit (read params) ≠ some .short) : read (params ++ surplus) = read params := by
  cases form with
  | fixed fit code => rfl
  | load is => exact absurd is other
  | byte fit code =>
    cases params with
    | nil => exact absurd (fit _ _) long
    | cons b more => rfl
  | lines fit code =>
    by_cases few : params.length < 4
    · rw [readLines_short few] at long
      exact absurd (fit _ _) long
    · obtain ⟨channels, same⟩ := readLines_enough (Nat.not_lt.mp few)
      rw [same, ← same [], List.append_nil]
  | kinds fit code =>
    by_cases few : params.length < 2
    · rw [readKinds_short few] at long
      exact absurd (fit _ _) long
    · obtain ⟨kinds, same⟩ := readKinds_enough (Nat.not_lt.mp few)
      rw [same, ← same [], List.append_nil]
  | needed some_ fit fits code codes =>
    rename_i m least short read
    cases is : neededParams m least params with
    | none =>
      rw [readNeeded_none is] at long
      exact absurd fit long
    | some needed => rw [readNeeded_some is, readNeeded_some (neededParams_surplus is)]

/-- R179: with no parameter bytes a request that needs some is short. -/
theorem RequestForm.bare {n : Nat} {read : List Byte → Instr} (form : RequestForm n read)
    (needs : parameterFit (read params) ≠ none) : parameterFit (read []) = some .short := by
  cases form with
  | fixed fit code => exact absurd fit needs
  | load is => exact absurd rfl needs
  | byte fit code => exact fit _ _
  | lines fit code => exact fit _ _
  | kinds fit code => exact fit _ _
  | needed some_ fit fits code codes => rwa [readNeeded_few (by exact some_)]

theorem RequestForm.code_eq {n : Nat} {read : List Byte → Instr} (form : RequestForm n read) (params : List Byte) :
    requestCode (read params) = some n := by
  cases form with
  | fixed fit code => exact code
  | load is =>
    rw [is]
    rfl
  | byte fit code => cases params <;> exact code _ _
  | lines fit code =>
    by_cases few : params.length < 4
    · rw [readLines_short few, code]
    · obtain ⟨channels, same⟩ := readLines_enough (Nat.not_lt.mp few)
      have here := same []
      rw [List.append_nil] at here
      rw [here, code]
  | kinds fit code =>
    by_cases few : params.length < 2
    · rw [readKinds_short few, code]
    · obtain ⟨kinds, same⟩ := readKinds_enough (Nat.not_lt.mp few)
      have here := same []
      rw [List.append_nil] at here
      rw [here, code]
  | needed some_ fit fits code codes =>
    rename_i m least short read
    cases is : neededParams m least params with
    | none => rw [readNeeded_none is, code]
    | some needed => rw [readNeeded_some is, codes]

/-- R179: a request with too few bytes, by what it needs. -/
theorem requestOf_few {n : Nat} {short : Instr} {read : List Byte → Instr} (is : code.toNat = n)
    (form : requestOf (BitVec.ofNat 8 n) = readNeeded n least short read) (fit : parameterFit short = some .short)
    (few : params.length < least) : parameterFit (requestOf code params) = some .short := by
  have same : code = BitVec.ofNat 8 n := by rw [← is, BitVec.ofNat_toNat, BitVec.setWidth_eq]
  rw [same, form, readNeeded_few few, fit]

/-! ## Numbers among the parameter bytes (R185) -/

/-- R185: a number of a request is one of its parameter bytes. -/
theorem byteField_mem {n k : Nat} {p : List Byte} (some_ : 1 ≤ p.length) : byteField n k p ∈ p := by
  have place : Config.fieldPlace n k p % (p.length + 1 - 1) < p.length := Nat.mod_lt _ some_
  unfold byteField fieldAt
  rw [List.headD_eq_head?_getD, List.head?_drop, List.getElem?_eq_getElem place]
  exact List.getElem_mem _

/-- R179, R185: a request that is not short reads beginnings of its bytes. -/
theorem readNeeded_enough {n : Nat} {short : Instr} {read : List Byte → Instr} {c : Instr} (some_ : 1 ≤ least)
    (fit : parameterFit short = some .short) (fits : parameterFit c = some .enough)
    (is : readNeeded n least short read params = c) : ∃ p, c = read p ∧ p ⊆ params ∧ 1 ≤ p.length := by
  cases needed : neededParams n least params with
  | none =>
    rw [readNeeded_none needed] at is
    subst is
    rw [fit] at fits
    cases fits
  | some p =>
    rw [readNeeded_some needed] at is
    obtain ⟨within, long⟩ := neededParams_some needed
    exact ⟨p, is.symm, within, Nat.le_trans some_ long⟩

theorem unitFields_context {p : List Byte} {b : Byte} {compare : RecordCompare}
    (is : unitFields p = .record (.id b) compare) : b = byteField 0x23 1 p := by
  unfold unitFields at is
  split at is
  · cases is
    rfl
  · rename_i other
    exact absurd is (other b compare)

theorem viewFields_segment {p : List Byte} {b : Byte} (is : (viewFields p).segment = some b) : b = byteField 0x28 0 p := by
  unfold viewFields at is
  obtain ⟨_, _, same⟩ := Option.map_eq_some_iff.mp is
  exact same.symm

theorem viewFields_annotation {p : List Byte} {b : Byte} (mem : .annotation b ∈ (viewFields p).rows) :
    ∃ k, b = byteField 0x28 k p := by
  unfold viewFields at mem
  obtain ⟨⟨row, i⟩, _, is⟩ := List.mem_map.mp mem
  cases row with
  | channel n => cases is
  | annotation n =>
    cases is
    exact ⟨_, rfl⟩

/-! ## Bits of a set (R185) -/

/-- R185: bit `n` of a set of channels. -/
theorem fourBytes_bit (a b c d : Byte) {n : Nat} (below : n < 32) :
    (d ++ c ++ b ++ a).getLsbD n = ([a, b, c, d].getD (n / 8) 0#8).getLsbD (n % 8) := by
  simp only [BitVec.getLsbD_append]
  have place : n / 8 = 0 ∨ n / 8 = 1 ∨ n / 8 = 2 ∨ n / 8 = 3 := by omega
  rcases place with h | h | h | h
  · rw [h, if_pos (show n < 8 by omega), show n % 8 = n by omega]
    rfl
  · rw [h, if_neg (show ¬ n < 8 by omega), if_pos (show n - 8 < 8 by omega), show n % 8 = n - 8 by omega]
    rfl
  · rw [h, if_neg (show ¬ n < 8 by omega), if_neg (show ¬ n - 8 < 8 by omega), if_pos (show n - 8 - 8 < 8 by omega),
      show n % 8 = n - 8 - 8 by omega]
    rfl
  · rw [h, if_neg (show ¬ n < 8 by omega), if_neg (show ¬ n - 8 < 8 by omega), if_neg (show ¬ n - 8 - 8 < 8 by omega),
      show n % 8 = n - 8 - 8 - 8 by omega]
    rfl

/-- R185: bit `n` of a set of notice kinds. -/
theorem twoBytes_bit (a b : Byte) {n : Nat} (below : n < 16) :
    (b ++ a).getLsbD n = ([a, b].getD (n / 8) 0#8).getLsbD (n % 8) := by
  rw [BitVec.getLsbD_append]
  have place : n / 8 = 0 ∨ n / 8 = 1 := by omega
  rcases place with h | h
  · rw [h, if_pos (show n < 8 by omega), show n % 8 = n by omega]
    rfl
  · rw [h, if_neg (show ¬ n < 8 by omega), show n % 8 = n - 8 by omega]
    rfl

/-! ## Frames (Table 13-1) -/

theorem decodeFrame_whole {low high : Byte} (length : params.length = low.toNat + 256 * high.toNat)
    (surplus : List Byte) :
    decodeFrame (code :: low :: high :: (params ++ surplus)) = some (requestOf code params) := by
  unfold decodeFrame
  dsimp only
  rw [← length, if_pos (by rw [List.length_append]; exact Nat.le_add_right _ _), List.take_left' rfl]

theorem decodeFrame_partial {low high : Byte} (few : params.length < low.toNat + 256 * high.toNat) :
    decodeFrame (code :: low :: high :: params) = none := if_neg (Nat.not_le.mpr few)

theorem decodeFrame_short {bytes : List Byte} (few : bytes.length < 3) : decodeFrame bytes = none := by
  match bytes, few with
  | [], _ | [_], _ | [_, _], _ => rfl

end Sys2Proof.Machine
end

section
/-! PROOFS. Responses on the command port (Table 13-2, R178, R185 to R187), and layouts and frames together (O40). -/

namespace Sys2Proof.Machine

/-! ## Fields in their places -/

/-- The fields of a response stand behind each other in some order. -/
theorem inPlace_perm (part : List Nat) (fields : List (List Byte)) :
    ∃ placed : List (List Byte), placed.Perm fields ∧ inPlace part fields = placed.flatten := by
  unfold inPlace
  obtain ⟨sorted, is, perm⟩ : ∃ sorted, (fields.zipIdx.insertionSort fun a b =>
      Config.fieldKey part fields.length a.2 ≤ Config.fieldKey part fields.length b.2) = sorted
      ∧ sorted.Perm fields.zipIdx := ⟨_, rfl, List.perm_insertionSort _ _⟩
  rw [is]
  refine ⟨sorted.map (·.1), ?_, (List.flatMap_def ..)⟩
  have fst := perm.map (·.1)
  rwa [List.zipIdx_map_fst] at fst

theorem flatten_length_perm {a b : List (List Byte)} (perm : a.Perm b) : a.flatten.length = b.flatten.length := by
  rw [List.length_flatten, List.length_flatten]
  exact (perm.map List.length).sum_eq

/-- R185: the data of a response in fields: some order of its fields, cut at what the data length can say. -/
theorem fields_placed {data : ResponseData} (is : data.bytes = (inPlace [data.fields.1] data.fields.2).take 65535) :
    ∃ fields : List (List Byte), fields.Perm data.fields.2 ∧ data.bytes = fields.flatten.take 65535 := by
  obtain ⟨placed, perm, same⟩ := inPlace_perm [data.fields.1] data.fields.2
  exact ⟨placed, perm, by rw [is, same]⟩

/-- R185: data that the data length covers is not cut. -/
theorem fields_whole {data : ResponseData} (is : data.bytes = (inPlace [data.fields.1] data.fields.2).take 65535)
    (short : data.fields.2.flatten.length ≤ 65535) :
    ∃ fields : List (List Byte), fields.Perm data.fields.2 ∧ data.bytes = fields.flatten := by
  obtain ⟨fields, perm, same⟩ := fields_placed is
  exact ⟨fields, perm, by rw [same, List.take_of_length_le (by rw [flatten_length_perm perm]; exact short)]⟩

/-! ## Data lengths (Table 13-2) -/

theorem records_length (isOpen : Bool) (occupancy lost : Nat) (taken : List Record) :
    (ResponseData.records isOpen occupancy lost taken).bytes.length = 8 + 32 * taken.length := by
  have each : (taken.flatMap Record.encode).length = 32 * taken.length := by
    induction taken with
    | nil => rfl
    | cons r rest ih =>
      rw [List.flatMap_cons, List.length_append, encode_length, ih, List.length_cons]
      omega
  unfold ResponseData.bytes
  simp only [List.length_append, leBytes_length, List.length_cons, List.length_nil, each]

/-- Table 13-2: the data length can say how long the data is. -/
theorem bytes_length (data : ResponseData)
    (few : ∀ isOpen occupancy lost taken, data = .records isOpen occupancy lost taken → taken.length ≤ 16) :
    data.bytes.length ≤ 65535 := by
  cases data with
  | none => exact Nat.zero_le _
  | records isOpen occupancy lost taken =>
    have short := few _ _ _ _ rfl
    rw [records_length]
    omega
  | _ => exact List.length_take_le _ _

/-! ## The bytes returned (Table 13-2, R178) -/

section Returned

variable {c : Cmd} {r : Response} (formed : c.response = some r) (fillers : Nat)

include formed

theorem returned_filler {k : Nat} (early : k < fillers) : c.returnedByte fillers k = 0xFF#8 := by
  unfold Cmd.returnedByte
  rw [formed]
  dsimp only
  rw [getD_front (by rw [List.length_replicate]; exact early), List.getD_eq_getElem _ _ (by
    rw [List.length_replicate]; exact early), List.getElem_replicate]

theorem returned_response (k : Nat) : c.returnedByte fillers (fillers + k) = r.bytes.getD k 0xFF#8 := by
  unfold Cmd.returnedByte
  rw [formed]
  exact getD_append List.length_replicate k _

/-- Table 13-2: the data behind the ready marker, the status and the data length. -/
theorem returned_data (k : Nat) : c.returnedByte fillers (fillers + 4 + k) = r.data.bytes.getD k 0xFF#8 := by
  rw [Nat.add_assoc, returned_response formed]
  exact getD_append (n := 4) rfl k _

theorem returned_length (short : r.data.bytes.length ≤ 65535) : (c.returnedByte fillers (fillers + 2)).toNat
    + 256 * (c.returnedByte fillers (fillers + 3)).toNat = r.data.bytes.length := by
  rw [returned_response formed, returned_response formed]
  show (BitVec.ofNat 8 r.data.bytes.length).toNat + 256 * (BitVec.ofNat 8 (r.data.bytes.length / 256)).toNat = _
  rw [BitVec.toNat_ofNat, BitVec.toNat_ofNat]
  omega

end Returned

/-- Settles O40. -/
theorem layoutsReadBackAndFramesDecode : Obligations.LayoutsReadBackAndFramesDecode := by
  refine ⟨fun e fits => ⟨e.encode_length, Entry.decode_encode fits⟩,
    fun h fits => ⟨h.encode_length, PageHeader.decode_encode fits⟩,
    fun a start duration length => ⟨a.encode_length, Annotation.decode_encode start duration length⟩,
    fun r at_ is => ?_, fun code params => ⟨fun ⟨from_, upTo⟩ => (requestOf_form from_ upTo).code_eq params,
      fun outside => requestOf_unknown outside params⟩,
    fun code low high params surplus => ⟨fun length => decodeFrame_whole length surplus, decodeFrame_partial⟩,
    fun bytes => decodeFrame_short, fun code params surplus other long => ?_, fun code params needs => ?_,
    fun code params is few => ?_, fun code params is few => ?_, fun code params is few => ?_,
    fun params => ⟨fun few => ?_, fun few => ?_⟩,
    fun b more => ⟨rfl, rfl, rfl, rfl, rfl, rfl, rfl, rfl, rfl, rfl, rfl, rfl⟩,
    fun a b c d more => ⟨d ++ c ++ b ++ a, b ++ a, rfl, rfl, fun n => fourBytes_bit a b c d, fun n => twoBytes_bit a b⟩,
    fun params pod code level pods width => ⟨fun is => ?_, fun is => ?_⟩,
    fun params unit n stage branch compare p v => ⟨fun is => ?_, fun is => ?_, fun is => ?_⟩,
    fun pending kinds lock error glitch activity => ⟨?_, ?_⟩, fun isOpen occupancy lost taken => ?_, fun units branches => ?_,
    fun first stored dropped rotatedAway taken => ?_, fun report m opcode resync phase engine => ?_,
    fun n v k below => ?_, fun c fillers k => ⟨fun none_ => ?_, fun r data formed data_ few => ?_⟩⟩
  · have is (k : Nat) : at_ k = r.encode.getD k 0#8 := is k
    simp only [is]
    refine ⟨encode_length r, encode_head, fun k => encode_flags, fun other k => encode_highFlags other, encode_mode,
      fun k => encode_ticks, fun k => encode_lengthField, fun k => encode_payload, fun plain => ?_, fun word => ?_,
      fun flash => ?_, fun message => ?_, fun gap => ?_⟩
    · obtain ⟨byte, area⟩ := plain_kind plain
      exact ⟨by rw [encode_kindByte, byte], fun k _ => by rw [encode_area, area, leBytes_zero_getD]⟩
    · obtain ⟨byte, area⟩ := word_kind word
      refine ⟨?_, encode_number area⟩
      rw [encode_kindByte, byte]
      cases r.inWord <;> rfl
    · obtain ⟨effect, opcode, mode, form⟩ := flash_encode flash
      obtain ⟨first, address, last⟩ := flash_encode_area flash
      refine ⟨effect, opcode, mode, form, first, address, fun clear k below => ?_, fun set k below => ?_⟩
      · rw [last k below, clear]
        rfl
      · rw [last k below, set]
        rfl
    · obtain ⟨address, plain, acks⟩ := message_encode message
      obtain ⟨low, read, nak, zero⟩ := message_encode_area message
      refine ⟨address, plain, fun a ack => ?_, low, read, zero⟩
      obtain ⟨acked, nak_, last⟩ := acks a ack
      exact ⟨acked, nak_, last, nak a ack⟩
    · obtain ⟨byte, area⟩ := gap_kind gap
      exact ⟨by rw [encode_kindByte, byte], encode_number area⟩
  · by_cases inside : 1 ≤ code.toNat ∧ code.toNat ≤ 0x2E
    · refine (requestOf_form inside.1 inside.2).drops_surplus (fun load => other ?_) long
      exact BitVec.eq_of_toNat_eq load
    · have outside : code.toNat = 0 ∨ 0x2E < code.toNat := by omega
      rw [requestOf_unknown outside, requestOf_unknown outside]
  · refine ⟨?_, ?_⟩
    · obtain ⟨fit, is⟩ := Option.ne_none_iff_exists'.mp needs
      rw [is]
      cases fit
      · exact .inl rfl
      · exact .inr rfl
    · by_cases inside : 1 ≤ code.toNat ∧ code.toNat ≤ 0x2E
      · exact (requestOf_form inside.1 inside.2).bare needs
      · rw [requestOf_unknown (by omega)] at needs
        exact absurd rfl needs
  · rcases is with is | is <;> exact requestOf_few is rfl rfl few
  · rcases is with is | is <;> exact requestOf_few is rfl rfl few
  · rcases is with is | is | is | is | is | is <;> (rw [is] at few; exact requestOf_few is rfl rfl few)
  · exact congrArg parameterFit (readLines_short few)
  · exact congrArg parameterFit (readKinds_short few)
  · obtain ⟨p, same, within, some_⟩ := readNeeded_enough (by decide) rfl rfl is
    cases same
    exact within (byteField_mem some_)
  · obtain ⟨p, same, within, some_⟩ := readNeeded_enough (by decide) rfl rfl is
    cases same
    exact ⟨within (byteField_mem some_), within (byteField_mem some_)⟩
  · obtain ⟨p, same, within, some_⟩ := readNeeded_enough (by decide) rfl rfl is
    obtain ⟨-, unit_, fields⟩ := Instr.matchUnitSet.inj same
    rw [unit_, unitFields_context fields.symm]
    exact ⟨within (byteField_mem some_), within (byteField_mem some_)⟩
  · obtain ⟨q, same, within, some_⟩ := readNeeded_enough (by decide) rfl rfl is
    obtain ⟨-, stage_, branch_, fields⟩ := Instr.branchSet.inj same
    rw [stage_, branch_, fields]
    exact ⟨within (byteField_mem some_), within (byteField_mem some_), within (byteField_mem some_),
      within (byteField_mem some_)⟩
  · obtain ⟨q, same, within, some_⟩ := readNeeded_enough (by decide) rfl rfl is
    obtain ⟨-, fields⟩ := Instr.viewSet.inj same
    rw [fields]
    refine ⟨fun b segment => ?_, fun b row => ?_⟩
    · rw [viewFields_segment segment]
      exact within (byteField_mem some_)
    · obtain ⟨k, is⟩ := viewFields_annotation row
      rw [is]
      exact within (byteField_mem some_)
  · exact fields_whole (data := .notices pending lock error glitch activity) rfl (show 14 ≤ 65535 by decide)
  · exact fields_whole (data := .mask kinds pending) rfl (show 4 ≤ 65535 by decide)
  · rw [← List.flatMap_def]
    rfl
  · obtain ⟨fields, perm, same⟩ := fields_placed (data := .program units branches) rfl
    refine ⟨fields, same, fun i ctx compare unit => perm.mem_iff.mpr ?_, fun i j =>
      ⟨perm.mem_iff.mpr ?_, perm.mem_iff.mpr ?_⟩⟩
    · refine List.mem_append_left _ (List.mem_flatMap.mpr ⟨i, List.mem_finRange i, ?_⟩)
      rw [unit]
      exact List.mem_cons_of_mem _ List.mem_cons_self
    · exact List.mem_append_right _ (List.mem_flatMap.mpr ⟨i, List.mem_finRange i,
        List.mem_flatMap.mpr ⟨j, List.mem_finRange j, List.mem_cons_self⟩⟩)
    · exact List.mem_append_right _ (List.mem_flatMap.mpr ⟨i, List.mem_finRange i,
        List.mem_flatMap.mpr ⟨j, List.mem_finRange j, List.mem_cons_of_mem _ List.mem_cons_self⟩⟩)
  · obtain ⟨fields, perm, same⟩ := fields_placed (data := .annotations first stored dropped rotatedAway taken) rfl
    refine ⟨fields, same, fun a mem => perm.mem_iff.mpr (List.mem_cons_of_mem _ (List.mem_flatMap.mpr ⟨a, mem, ?_⟩))⟩
    exact List.mem_cons_self
  · obtain ⟨fields, perm, same⟩ := fields_placed (data := .context report) rfl
    refine ⟨fields, same, perm.mem_iff.mpr (List.mem_cons_of_mem _ ?_)⟩
    rw [engine]
    exact List.mem_cons_self
  · rw [leBytes_getLsbD _ (by omega) (Nat.mod_lt _ (by decide)), Nat.div_add_mod]
  · unfold Cmd.returnedByte
    rw [none_]
  · subst data_
    have short := bytes_length r.data few
    refine ⟨fun none_ => by rw [none_]; rfl, short, returned_filler formed fillers, returned_response formed fillers 0,
      returned_response formed fillers 1, returned_length formed fillers short, fun b here => ?_, fun past => ?_⟩
    · rw [returned_data formed, List.getD_eq_getElem?_getD, here, Option.getD_some]
    · obtain ⟨j, rfl⟩ : ∃ j, k = fillers + 4 + j := ⟨k - (fillers + 4), by omega⟩
      rw [returned_data formed, List.getD_eq_getElem?_getD, List.getElem?_eq_none (by omega), Option.getD_none]

end Sys2Proof.Machine
end
